-- ==== Sys2Proof/Word.lean ====
section
/-! DEFINITION. The word types of the register space (R14) and of memory, and the sparse tables the state is made of. -/

namespace Sys2Proof

/-- A register is 64 bits wide (R14). -/
abbrev Word := BitVec 64

/-- The smallest addressable unit of memory. -/
abbrev Byte := BitVec 8

/-- A sparse table: pairs of a key and a value, keys strictly rising, each key at most once. -/
abbrev Tbl (α : Type) := List (Nat × α)

end Sys2Proof
end

