-- ==== Sys2Proof/Config.lean ====
section
/-! DEFINITION. What the manual leaves open or leaves to the device's surroundings. Every constant here has no body: nothing
can be proved of its values, so a claim holds whatever they are. Each is named in a row of the assumption log. -/

namespace Sys2Proof.Config

/-- Free values: the n-th open value the machine needs. `State.freeCtr` counts them (log entry 1). -/
opaque freeNat : Nat → Nat

/-- The byte that memory outside the device (a host window or a remote window) returns to the n-th read of the run at this
device physical address (log entry 2). -/
opaque outsideByte : Nat → Nat → Byte

/-- The status a path outside the device gives the n-th request answered within a step, at this address: a code of R281, 0
for success (log entry 10). -/
opaque outsideStatus : Nat → Nat → Nat

/-- Whether a metadata region of so many GiB holds so many sequence roots, directories, leaves, page records and index blocks
(R182; log entry 22). -/
opaque metaFits : Nat → List Nat → Bool

/-- The rows of memory (device physical address ÷ 1,024) that the n-th fill leaves in tower cache lines at its end, of those
that it filled (R241, R254; log entry 65). -/
opaque fillLeft : Nat → List Nat

/-- Where an item of the metadata region lies, in units of its size from the region's start: kind (0 root, 1 directory, 2 leaf,
3 page record, 4 index block within its bank) and index (R182–R184, R224; log entry 131). -/
opaque metaAt : Nat → Nat → Nat

/-- SHA-384 of a byte string, as a number below 2^384 (R430, R455; log entry 4). -/
opaque sha384 : List Byte → Nat

/-- ECDSA P-384: key (X then Y), digest, signature (r then s) (R430, R455; log entry 4). -/
opaque ecdsaVerify : Nat → Nat → Nat → Bool

/-- The fixed hash of R295 that chooses a path of a flow: source device, source engine and channel, destination, window
(log entry 5). -/
opaque flowHash : Nat → Nat → Nat → Nat → Nat

/-- Fused heat capacity of a thermal node, in J/K (R409; log entry 6). -/
opaque heatCapacity : Nat → Rat

/-- Fused thermal resistance between two nodes, in K/W (R409; log entry 6). -/
opaque heatResistance : Nat → Nat → Rat

/-- Fused resistance of a cap node to the plate, in K/W (R409; log entry 6). -/
opaque capResistance : Nat → Rat

/-- The share of a cluster's VCORE power that heats its S node at an access count of its scratchpad in the millisecond, by the
fused coefficients (R410; log entry 6). -/
opaque coreShare : Nat → Nat → Rat

/-- The share of a domain's power, or of its regulators' losses, that heats a floor node (R410; log entry 6). -/
opaque floorShare : Nat → Nat → Rat

/-- What the regulators of a domain lose, in W, at a power of the domain in 10 µW (R410; log entry 6). -/
opaque regLoss : Nat → Nat → Rat

/-- The share of a domain's power that heats a node while no access gives the shares (R410; log entry 164). -/
opaque idleShare : Nat → Nat → Rat

/-- Fused idle share i_t of a tower, in W (R415; log entry 6). -/
opaque towerIdle : Nat → Nat

/-- Fused VCORE point of a physical cluster at a frequency in MHz, in mV (R363; log entry 6). -/
opaque vcorePoint : Nat → Nat → Nat

/-- Fused SHA-384 hash of firmware key 0 to 3 (R430; log entry 4). -/
opaque fusedKeyHash : Nat → Nat

/-- Micro-operations of the firmware store of every near-bank unit, by entry, and its group slots G4 to G7, as the management
processor loads them (R172; log entry 27). -/
opaque nbFirmware : Nat → Nat
opaque nbFirmwareGroup : Nat → Nat

/-- Manufacturer code of the IDCODE (R468; log entry 28). -/
opaque idcodeMaker : Nat

/-- Fused frequency limit of a physical cluster, in MHz (R388; log entry 6). -/
opaque fusedFmax : Nat → Nat

/-- The pattern of a float result whose value the spec states no rule for: the place (the operation), and its operands as
patterns. It stands where no operand is NaN and no real result exists: infinity − infinity, 0 × infinity, the logarithm of zero
or of a negative number, 1 ÷ 0 and its kin, in the vector lanes, the attention merge and the expert combine (log entry 9). -/
opaque openFloat : Nat → Nat → Nat → Nat → Nat

/-- Which NaN pattern the E5M2 format uses for a NaN result (log entry 8). -/
opaque e5m2Nan : Nat

end Sys2Proof.Config
end

