-- ==== Sys2Proof/Machine/Table.lean ====
section
/-! DEFINITION. The plain containers of the state: sparse tables, memory as a canonical list of cells, lists as queues, and
the little-endian byte order of R12. -/

namespace Sys2Proof.Machine

/-- The entry of a sparse table, if it has one. -/
def tfind {α : Type} (t : Tbl α) (k : Nat) : Option α :=
  (t.find? (fun p => p.1 == k)).map (fun p => p.2)

/-- The entry of a sparse table, or the value an absent entry stands for. -/
def tget {α : Type} (d : α) (t : Tbl α) (k : Nat) : α := (tfind t k).getD d

/-- Write an entry, keeping the keys strictly rising. -/
def tput {α : Type} (k : Nat) (v : α) : Tbl α → Tbl α
  | [] => [(k, v)]
  | p :: r => if k < p.1 then (k, v) :: p :: r else if k = p.1 then (k, v) :: r else p :: tput k v r

/-- Remove an entry. -/
def tdel {α : Type} (k : Nat) (t : Tbl α) : Tbl α := t.filter (fun p => p.1 != k)

/-- Change an entry. -/
def tmod {α : Type} (d : α) (k : Nat) (f : α → α) (t : Tbl α) : Tbl α := tput k (f (tget d t k)) t

/-- Element `i` of a list, or a default. -/
def lget {α : Type} (d : α) (l : List α) (i : Nat) : α := l.getD i d

/-- Set element `i` of a list (no change beyond its end). -/
def lset {α : Type} (l : List α) (i : Nat) (v : α) : List α := l.set i v

/-- Memory: pairs of an address and a byte (R38), addresses strictly rising, no byte 0. An unlisted address reads 0
(R76 and R130 for stack DRAM and scratchpads; log entry 7 for the spill tier). -/
abbrev Memory := List Host.Cell

/-- What an unlisted address reads as. -/
def Memory.unlisted : Byte := 0

/-- Cells above address `lo` in the canonical form. -/
def Memory.wfFrom : Nat → Memory → Bool
  | _, [] => true
  | lo, (a, b) :: r => decide (lo ≤ a) && (b != Memory.unlisted) && Memory.wfFrom (a + 1) r

/-- The canonical form. -/
def Memory.wf (m : Memory) : Bool := Memory.wfFrom 0 m

/-- Read one byte. -/
def mget : Memory → Nat → Byte
  | [], _ => Memory.unlisted
  | (k, v) :: r, a => if a = k then v else mget r a

/-- Write one byte, keeping the canonical form. -/
def mput : Memory → Nat → Byte → Memory
  | [], a, b => if b = Memory.unlisted then [] else [(a, b)]
  | (k, v) :: r, a, b =>
    if a < k then (if b = Memory.unlisted then (k, v) :: r else (a, b) :: (k, v) :: r)
    else if a = k then (if b = Memory.unlisted then r else (a, b) :: r)
    else (k, v) :: mput r a b

/-- Bring any list of cells into the canonical form; a list already in it stays as it is. -/
def Memory.norm (m : Memory) : Memory :=
  if m.wf then m else m.foldl (fun acc c => mput acc c.1 c.2) []

/-- Bytes from `a` on along cells that start at or above `a`. -/
def readFrom : Memory → Nat → Nat → List Byte
  | _, _, 0 => []
  | [], a, n + 1 => Memory.unlisted :: readFrom [] (a + 1) n
  | (k, v) :: r, a, n + 1 => if k = a then v :: readFrom r (a + 1) n else Memory.unlisted :: readFrom ((k, v) :: r) (a + 1) n

/-- The bytes from `a` on, `n` of them. -/
def mread (m : Memory) (a n : Nat) : List Byte := readFrom (m.dropWhile (fun c => decide (c.1 < a))) a n

/-- The listed cells of consecutive bytes. -/
def cellsOf : Nat → List Byte → Memory
  | _, [] => []
  | a, b :: r => if b = Memory.unlisted then cellsOf (a + 1) r else (a, b) :: cellsOf (a + 1) r

/-- Write bytes from `a` on. -/
def mwrite (m : Memory) (a : Nat) (d : List Byte) : Memory :=
  m.filter (fun c => decide (c.1 < a)) ++ (cellsOf a d ++ m.filter (fun c => decide (a + d.length ≤ c.1)))

/-- Write consecutive entries of a table. -/
def tputRange {α : Type} (a : Nat) (vs : List α) (t : Tbl α) : Tbl α :=
  t.filter (fun c => decide (c.1 < a)) ++ (List.zip (List.range' a vs.length) vs ++ t.filter (fun c => decide (a + vs.length ≤ c.1)))

/-- Lay the entries of a table over bytes that start at `a`, both in ascending order. -/
def overlay : List Byte → Nat → Tbl Byte → List Byte
  | [], _, _ => []
  | b, _, [] => b
  | b :: r, a, (k, v) :: t => if k = a then v :: overlay r (a + 1) t else b :: overlay r (a + 1) ((k, v) :: t)

/-- Every byte of [a, a + n) set to 0. -/
def mclear (m : Memory) (a n : Nat) : Memory := m.filter (fun c => c.1 < a || a + n ≤ c.1)

/-- Little-endian value of a byte list (R12). -/
def leNat : List Byte → Nat
  | [] => 0
  | b :: r => b.toNat + 256 * leNat r

/-- The `n` little-endian bytes of a number (R12). -/
def leBytes : Nat → Nat → List Byte
  | 0, _ => []
  | n + 1, v => BitVec.ofNat 8 (v % 256) :: leBytes n (v / 256)

/-- Bits [hi:lo] of a number (R11). -/
def bits (v hi lo : Nat) : Nat := v / 2 ^ lo % 2 ^ (hi + 1 - lo)

/-- Replace bits [hi:lo] of a number. -/
def setBits (v hi lo x : Nat) : Nat :=
  v / 2 ^ (hi + 1) * 2 ^ (hi + 1) + x % 2 ^ (hi + 1 - lo) * 2 ^ lo + v % 2 ^ lo

/-- Bit `i` of a number. -/
def tbit (v i : Nat) : Bool := v / 2 ^ i % 2 == 1

/-- A Bool as a bit. -/
def b2n (b : Bool) : Nat := if b then 1 else 0

/-- The signed value of the low `w` bits. -/
def sext (w v : Nat) : Int := if v % 2 ^ w < 2 ^ (w - 1) then (v % 2 ^ w : Int) else (v % 2 ^ w : Int) - 2 ^ w

/-- The low `w` bits of an integer, two's complement. -/
def wrap (w : Nat) (x : Int) : Nat := (x % (2 ^ w : Int)).toNat

/-- Fold over the numbers below `n`, in ascending order. -/
def foldUp {α : Type} (n : Nat) (f : α → Nat → α) (a : α) : α := (List.range n).foldl f a

/-- Number of set bits among the low `n`. -/
def popCount (n v : Nat) : Nat := ((List.range n).filter (fun i => tbit v i)).length

/-- The largest `i` below `n` that satisfies `p`. -/
def findDown (p : Nat → Bool) : Nat → Option Nat
  | 0 => none
  | n + 1 => if p n then some n else findDown p n

/-- A saturating sum at `m`. -/
def satAdd (m a b : Nat) : Nat := min m (a + b)

end Sys2Proof.Machine
end

