-- ==== Sys2Proof/Machine/PartsMem.lean ====
section
/-! DEFINITION. State of the stack: the logical map and what is out of it, spares and lanes, the correctable-error records,
refresh, scrub, the tower caches and the near-bank units. -/

namespace Sys2Proof.Machine

/-- Why a physical cluster is out of the logical map: ROLE 2 or 3 and CAUSE of its Sett record. -/
structure OutRec where
  role  : Nat
  cause : Nat
  deriving DecidableEq, Repr

/-- Kinds of nomination (R74, R245), numbered as DETAIL [51:50] of NOMINATED (R354). -/
inductive NomKind where
  | bank | dataLane | checkLane | way
  deriving DecidableEq, Repr

/-- A pending nomination. `c` is the physical cluster, or the tower for a way; `lane` is the lane or the way.
`failed` marks a bank or lane that a fault names (R340), not a correctable-error count. -/
structure Nom where
  kind   : NomKind
  c      : Nat
  die    : Nat
  p      : Nat
  lane   : Nat
  failed : Bool
  /-- Its NOMINATED entry is written. -/
  told   : Bool
  deriving DecidableEq, Repr

/-- One correction that crossed a shaft lane, for the three-die test of R72. -/
structure LaneHit where
  c     : Nat
  check : Bool
  lane  : Nat
  die   : Nat
  tick  : Nat
  deriving DecidableEq, Repr

/-- Logical and physical: the maps of R34–R36 and the repairs in force (R77). -/
structure Topo where
  /-- The maps are loaded and checked (R34). -/
  loaded    : Bool
  /-- Physical cluster of each logical number, in order; none is absent. -/
  lmap      : List (Option Nat)
  /-- Clusters with ROLE 2 or 3, by C. -/
  out       : Tbl OutRec
  /-- Spare banks in use: key (16 t + die) × 32 + j, value (SIDE, P) (R23). -/
  bankSpare : Tbl (Nat × Nat)
  /-- Spare banks that failed at test, by key (R434). -/
  badSpare  : List Nat
  /-- Spare data lanes in use: key 32 C + group, value the lane steered (R58). -/
  dataSpare : Tbl Nat
  /-- Spare control lanes in use: key 8 C + group (CK groups 0–3, CA groups 4–7), value the lane within the 64. -/
  ctlSpare  : Tbl Nat
  /-- Pillars at half width: the surviving half, 0 for groups 0–15 (R61). -/
  half      : Tbl Nat
  /-- Data lanes that no spare serves, as 512 C + lane (R77). -/
  badData   : List Nat
  /-- Lanes that have failed in service and corrupt what crosses them until a compute reset, as 1,024 C + lane for D0–511 and
  1,024 C + 512 + m for CKm (R59, R349). -/
  deadLanes : List Nat
  /-- Control lanes that failed in service, as 64 C + lane, CK0–31 then CA0–31 (R60). -/
  badCtl    : List Nat
  /-- READ_LAT of each pillar, in 0.1 ns, as measured at bring-up. -/
  readLat   : Tbl Nat
  /-- The latency values of the Sett table, key 16 × record + b. -/
  lat       : Tbl Nat
  /-- Clusters dark until the next compute reset (R37, R365). -/
  dark      : List Nat
  /-- Pillars that accept no access until the next compute reset (R350). -/
  closed    : List Nat
  /-- Failed bonds outside the shafts that are steered to spare vias: (tower, layer code, bundle, signal) (R432). -/
  bonds     : List (Nat × Nat × Nat × Nat)
  deriving DecidableEq, Repr

/-- Correctable-error bookkeeping that no register shows. -/
structure Ecc where
  noms     : List Nom
  hits     : List LaneHit
  /-- Corrections per tower since the last CE_SUMMARY (R357). -/
  perTower : Tbl Nat
  /-- Failed transmissions of the shaft command in flight, by C; none once a command of the pillar passes (R60). -/
  cmdTries : Tbl Nat
  /-- Next row of the scrubber of each pillar: (32 die + p) × 8,192 + row (R75). -/
  scrub    : Tbl Nat
  /-- Pillars whose scrubber finished the current pass. -/
  scrubbed : List Nat
  /-- Rows the scrubber skipped, as 8,192 × bank + row, to return to (R75). -/
  skipped  : List Nat
  deriving DecidableEq, Repr

/-- Refresh state of one bank (R62, R63). -/
structure Refr where
  row    : Nat
  due    : Bool
  busy   : Bool
  active : Bool
  deriving DecidableEq, Repr

/-- A bank at reset: row 0 next. -/
def Refr.init : Refr := ⟨0, false, false, false⟩

/-- A reduction queued at a line, or a staged contribution (R250, R252). -/
structure Contrib where
  op   : Nat
  src  : Nat
  addr : Nat
  data : List Byte
  deriving DecidableEq, Repr

/-- A tower cache line (R238, R246). `gran` is the issued address of its 1 KiB row divided by 1,024. -/
structure TcLine where
  gran    : Nat
  way     : Nat
  cls     : Nat
  dirty   : Bool
  comp    : Bool
  stamp   : Nat
  /-- FP32 values of a widened line and its companion way (R251). -/
  wide    : Option (Nat × List Nat)
  queue   : List Contrib
  staged  : List Contrib
  /-- Ways taken by staging entries. -/
  stWays  : List Nat
  victim  : Bool
  deriving DecidableEq, Repr

/-- A stream detector entry (R249): requester, bank, last row and length of the run. -/
structure Stream where
  ni   : Nat
  bank : Nat
  row  : Nat
  len  : Nat
  deriving DecidableEq, Repr

/-- One tower cache. -/
structure Tc where
  lines   : List TcLine
  stamp   : Nat
  look    : Nat
  miss    : Nat
  /-- Ticks of the corrections of each way within the last hour (R245). -/
  wayCe   : Tbl (List Nat)
  streams : Tbl (List Stream)
  /-- Data-array ways in force since the last compute reset (R256). -/
  wayEn   : Nat
  flushInv : Bool
  deriving DecidableEq, Repr

/-- An empty tower cache. -/
def Tc.init : Tc := ⟨[], 0, 0, 0, [], [], 0xFFFF, false⟩

/-- A near-bank command as its slot sampled it (R149). -/
structure NbCmd where
  tower  : Nat
  slot   : Nat
  kind   : Nat
  pc     : Nat
  prelen : Nat
  desc   : Bool
  store  : Nat
  tag    : Nat
  inB    : Nat
  inL    : Nat
  outB   : Nat
  outL   : Nat
  p      : List Nat
  data   : List Byte
  job    : Nat
  /-- A run of the KV page manager (R226). -/
  kv     : Bool
  deriving DecidableEq, Repr

/-- A running near-bank operation. `stop` is the status it ended with, reported by NB_UNIT_COMPLETE. -/
structure NbRun where
  cmd     : NbCmd
  pc      : Nat
  inB     : Nat
  inL     : Nat
  outB    : Nat
  outL    : Nat
  /-- The descriptor of R153 is still to be read. -/
  desc    : Bool
  /-- Row of the step in progress and its columns so far (R164). -/
  step    : Option (Nat × Nat)
  /-- The step takes no further column (R165). -/
  cut     : Bool
  /-- Suspended for a refresh (R63). -/
  susp    : Bool
  /-- Waiting for a token of the pillar's bucket, and a token taken and not yet used (R167). -/
  wait    : Bool
  token   : Bool
  /-- A column of OUT was written by this command. -/
  wrote   : Bool
  stop    : Option Nat
  /-- Program entry of the failing micro-operation. -/
  upc     : Nat
  deriving DecidableEq, Repr

/-- A near-bank unit (R144). Latch units are 512-bit numbers, byte 0 lowest (R145). -/
structure NbUnit where
  latch : Tbl Nat
  si    : Nat
  ac    : List Nat
  lc    : List Nat
  p     : List Nat
  g     : List Nat
  store : List (List Nat)
  valid : List Bool
  run   : Option NbRun
  pendT : Option NbCmd
  pendF : Option NbCmd
  /-- A firmware command ran since the last tenant command (R150). -/
  fw    : Bool
  deriving DecidableEq, Repr

/-- A unit after compute reset, as the device reports ready (R172): the management processor has loaded the firmware store
and G4 to G7. -/
def NbUnit.init : NbUnit :=
  ⟨[], 0, [0, 0, 0, 0], [0, 0, 0, 0], List.replicate 16 0,
   List.replicate 4 0xFFF ++ (List.range 4).map (fun i => Config.nbFirmwareGroup i % 4096),
   [[], (List.range 128).map (fun i => Config.nbFirmware i % 2 ^ 32)], [false, true], none, none, none, false⟩

/-- Token bucket of one pillar (R167). `last` is the unit served last, as 32 die + p. -/
structure Bucket where
  tokens : Nat
  last   : Nat
  deriving DecidableEq, Repr

/-- A memory access at a shaft controller. `who` names the requester, `reader` is the reader code of R354. -/
structure MemReq where
  who    : Nat
  reader : Nat
  addr   : Nat
  len    : Nat
  write  : Bool
  data   : List Byte
  hint   : Nat
  deriving DecidableEq, Repr

/-- An access inside a step that waits for a bank (R155, R165): its range, whether it reads the OUT range of the bank's running
unit, and whether it has waited more than 20 µs. `ready` says that its boundary has come: the bank is kept for it until its row
comes again. -/
structure NbBlock where
  bank  : Nat
  addr  : Nat
  len   : Nat
  out   : Bool
  late  : Bool
  ready : Bool
  deriving DecidableEq, Repr

/-- How long bit errors of a word last: in its cells until it is rewritten, on one crossing of the shaft, or on every crossing
from now on, since the lanes that the bits lie on have failed (R59, R349). -/
inductive ErrKind where
  | cell
  | crossing
  | lane
  deriving DecidableEq, Repr

/-- Bit errors of one 16-byte word. -/
structure WordErr where
  word : Nat
  flip : BitVec 144
  kind : ErrKind
  deriving DecidableEq, Repr

end Sys2Proof.Machine
end

