-- ==== Sys2Proof/Machine/PartsSyn.lean ====
section
/-! DEFINITION. State of the Synur fabric interface: packets, ports, membership, bursts and reads in progress. -/

namespace Sys2Proof.Machine

/-- A packet: the header word of R287, the byte mask of a full WR or RED, and its data bytes. -/
structure Pkt where
  hdr  : Nat
  mask : Nat
  data : List Byte
  deriving DecidableEq, Repr

/-- A flit on a link (R283): the symbols of each active lane in ascending physical order, symbol times in order, `none` for an
idle symbol. `torn`: after its acknowledgement an uncorrectable error of a transit buffer makes it undeliverable (R292). -/
structure Wire where
  lanes : List (List (Option Byte))
  torn  : Bool
  deriving DecidableEq, Repr

/-- A flit decoded: the link control word of R286, its packet, the active lane of each corrected symbol, and whether any
codeword did not decode. `unc` has, for each codeword that did not, the active lane on which alone idle symbols came in its place,
none where its wrong symbols cannot be told (R284). -/
structure Flit where
  ctl  : Nat
  pkt  : Pkt
  corr : List Nat
  unc  : List (Option Nat)
  bad  : Bool
  deriving DecidableEq, Repr

def Pkt.dst (p : Pkt) : Nat := bits p.hdr 127 112
def Pkt.src (p : Pkt) : Nat := bits p.hdr 111 96
def Pkt.vc (p : Pkt) : Nat := bits p.hdr 95 94
def Pkt.layer (p : Pkt) : Nat := bits p.hdr 93 93
def Pkt.ttl (p : Pkt) : Nat := bits p.hdr 92 90
def Pkt.path (p : Pkt) : Nat := bits p.hdr 89 88
def Pkt.typ (p : Pkt) : Nat := bits p.hdr 87 83
def Pkt.first (p : Pkt) : Bool := tbit p.hdr 82
def Pkt.last (p : Pkt) : Bool := tbit p.hdr 81
def Pkt.job (p : Pkt) : Nat := bits p.hdr 80 65
def Pkt.tag (p : Pkt) : Nat := bits p.hdr 64 54
def Pkt.win (p : Pkt) : Nat := bits p.hdr 53 42
def Pkt.gen (p : Pkt) : Nat := bits p.hdr 41 30
/-- OFFSET[33:4] as a byte offset. -/
def Pkt.off (p : Pkt) : Nat := bits p.hdr 29 0 * 16
/-- The virtual channel layer number 2 × VC + LAYER (R291). -/
def Pkt.vcl (p : Pkt) : Nat := 2 * p.vc + p.layer
/-- A full flit carries 256 bytes, a short one 32 (R287). -/
def Pkt.full (p : Pkt) : Bool := decide (32 < p.data.length)
/-- The payload filled to the size of its flit (R287). -/
def Pkt.sized (p : Pkt) : Pkt :=
  let n := if p.full then 256 else 32
  { p with data := p.data.take n ++ List.replicate (n - p.data.length) 0 }
/-- Credit units a flit takes (R291). -/
def Pkt.units (p : Pkt) : Nat := if p.full then 5 else 1

/-- Assemble a header (R287). -/
def mkHdr (dst src vc layer ttl path typ : Nat) (first last : Bool) (job tag win gen off : Nat) : Nat :=
  (((((((((((((dst % 2 ^ 16) * 2 ^ 16 + src % 2 ^ 16) * 4 + vc % 4) * 2 + layer % 2) * 8 + ttl % 8) * 4 + path % 4) * 32
    + typ % 32) * 2 + b2n first) * 2 + b2n last) * 2 ^ 16 + job % 2 ^ 16) * 2 ^ 11 + tag % 2 ^ 11) * 2 ^ 12 + win % 2 ^ 12)
    * 2 ^ 12 + gen % 2 ^ 12) * 2 ^ 30 + off / 16 % 2 ^ 30

/-- A flit held by the device on its way to a port: its packet, and the port and virtual channel layer it arrived on, whose
credits it still holds (R291); none for a packet of the device's own. -/
structure Waiting where
  pkt : Pkt
  src : Option (Nat × Nat)
  deriving DecidableEq, Repr

/-- One Synur port: link sequence numbers, retry buffer, credits per layer at the other end, and flits waiting. -/
structure SynPort where
  txSeq  : Nat
  rxSeq  : Nat
  retry  : List (Nat × Pkt)
  credit : List Nat
  owed   : List Nat
  wait   : List Waiting
  /-- Replays without progress (R292). -/
  replays : Nat
  /-- Lanes known good. -/
  good   : Nat
  /-- Lane operations proposed and not yet confirmed: (LANE_OP, LANE) (R284). -/
  ops    : List (Nat × Nat)
  /-- Corrected codewords of the last millisecond: (lane, tick) (R284). -/
  laneErr : List (Nat × Nat)
  /-- Tick of the last arrival (R292). -/
  rxTick : Nat
  /-- Flits held for 100 µs after this port failed (R296). -/
  hold   : List Waiting
  holding : Bool
  /-- Stratum heard in HELLO. -/
  strat  : Option Nat
  /-- Tick of the last SYNC_REQ of a neighbour that took this device as its parent (R299). -/
  child  : Option Nat
  /-- Tick, in 0.25 ns, at the first symbol of the last SYNC_REQ or SYNC_RSP that arrived (R299). -/
  syncAt : Nat
  deriving DecidableEq, Repr

def SynPort.init : SynPort :=
  ⟨0, 0, [], List.replicate 8 512, List.replicate 8 0, [], 0, 0xFF, [], [], 0, [], false, none, none, 0⟩

/-- An inbound burst (R304): its sender, tag, window, whether it was accepted, its first status, and flits accepted. -/
structure Burst where
  src  : Nat
  tag  : Nat
  win  : Nat
  stat : Nat
  flits : Nat
  port : Nat
  deriving DecidableEq, Repr

/-- Who waits for an answer of the fabric: a cluster core's load or store, a DMA channel, a copy channel, a queue write. -/
inductive Waiter where
  | coreLd (c : Nat)
  | coreSt (c : Nat)
  | dma (c ch idx row : Nat)
  | chan (i row : Nat)
  | none
  deriving DecidableEq, Repr

/-- A request, or the rest of one, through remote windows: who waits, its parts in order (address and length: the rows of a
descriptor), the data of all of them, and the bytes its earlier parts read. -/
structure RemReq where
  who   : Waiter
  job   : Nat
  parts : List (Nat × Nat)
  write : Bool
  data  : List Byte
  got   : List Byte
  deriving DecidableEq, Repr

/-- The first address of a request. -/
def RemReq.addr (q : RemReq) : Nat := match q.parts with | [] => 0 | p :: _ => p.1

/-- An outstanding burst or read sent to another device (R304). -/
structure Sent where
  dst   : Nat
  tag   : Nat
  job   : Nat
  who   : Waiter
  read  : Bool
  /-- Bytes asked for, and bytes before them in the 16-byte units read. -/
  len   : Nat
  skip  : Nat
  data  : List Byte
  stat  : Nat
  /-- Bytes of the parts before, and the part in the next slot (R301). -/
  got   : List Byte
  next  : Option RemReq
  deriving DecidableEq, Repr

/-- The device's side of the fabric. -/
structure Syn where
  ports   : Tbl SynPort
  members : List Nat
  heard   : Tbl Nat
  /-- Packets delivered to this device and not yet taken, with their arrival port. -/
  inbox   : List (Nat × Pkt)
  bursts  : List Burst
  sent    : List Sent
  nextTag : Nat
  /-- Tick t1 of the SYNC_REQ in flight, in 0.25 ns, and exchanges within 5 ns in a row. -/
  syncT1  : Nat
  goodSync : Nat
  /-- The rest of the offset the tick still slews by, in 0.25 ns, and the tick of the last slew (R299). -/
  slew    : Int
  slewAt  : Nat
  /-- A parent is chosen (R299). -/
  parented : Bool
  /-- The port whose MEMBER_MAP is taken; the join has its map, and the tick of its JOIN (R300). -/
  mapFrom : Option Nat
  mapped  : Bool
  joinTick : Option Nat
  /-- Hot spares are reserved (R285), since the member count exceeded 1,024. -/
  reserve : Bool
  /-- WIN_CLOSE commands waiting for their accepted bursts: (window, command). -/
  closing : List (Nat × Nat)
  /-- BASE and SIZE of the inbound windows, by index (R302). -/
  wins : Tbl (Nat × Nat)
  /-- Requests that wait for a TAG, oldest first. -/
  tagWait : List RemReq
  deriving DecidableEq, Repr

def Syn.init : Syn := ⟨[], [], [], [], [], [], 0, 0, 0, 0, 0, false, none, false, none, false, [], [], []⟩

end Sys2Proof.Machine
end

