-- ==== Sys2Proof/Syntax.lean ====
section
/-! DEFINITION. The commands of the block: one constructor per row of spec/opcode_table.json, with the row's operands. The
table gives no row any bits, so a command is what its sender names, not a word. -/

namespace Sys2Proof

open Sys2Proof.Machine (MemReq WordErr Wire)

/-- How a register access reaches the register space (R446): BAR0 (Operator), BAR2 (Tenant, folded under R447), a Synur
register packet with RVIEW 2 or 1, the management processor, or the board controller through the I3C target (R466). -/
inductive RegSrc where
  | bar0 | bar2 | synOper | synTenant | owl | i3c
  deriving DecidableEq, Repr

/-- A pillar bank by its physical cluster, die and pillar-local number (R22). -/
structure BankId where
  c   : Fin 1024
  die : Fin 16
  p   : Fin 32
  deriving DecidableEq, Repr

/-- A failing re-verify test (R342): `kind` as DETAIL [51:48] of VERIFY_FAIL, its physical cluster (for a domain, the
domain), and its unit for a self-test. -/
structure VerifyFail where
  kind : Nat
  c    : Nat
  unit : Nat
  deriving DecidableEq, Repr

/-- A buffer of a Synur port: its wait queue, or its receive buffer. -/
structure PortBuf where
  port  : Fin 16
  inbox : Bool
  deriving DecidableEq, Repr

/-- What a downstream link lost: one expander, by its number in link training, or the whole link. -/
structure SpillLoss where
  link : Fin 4
  dev  : Option (Fin 8)
  deriving DecidableEq, Repr

/-- What the power manager measured and estimated over the millisecond just ended (R368, R370, R410): VIN in 10 mV, input
current in 10 mA, input power in mW, the demand it estimates in mW, domain currents (main, second rail) in 10 mA, scratchpad accesses by
cluster, column accesses by 16 × cluster + die, lookups by 64 × tower + slice, and each tower's ungated rail power in W. -/
structure Measured where
  vin    : Nat
  iin    : Nat
  pin    : Nat
  demand : Nat
  cur    : Tbl (Nat × Nat)
  spAcc  : Tbl Nat
  cols   : Tbl Nat
  looks  : Tbl Nat
  towerDemand : List Nat
  deriving DecidableEq, Repr

/-- A downstream device found by SPILL (R321): its link of four (as HP_LINK_STAT numbers them), its capacity in bytes, and whether it is a CXL memory device. -/
structure Found where
  port : Nat
  bytes : Nat
  cxl  : Bool
  deriving DecidableEq, Repr

/-- A fuse bank as it is read: two copies, each its bytes and its CRC-32C (R429). -/
structure FuseBank where
  first  : List Byte × Nat
  second : List Byte × Nat
  deriving DecidableEq, Repr

/-- What a bring-up stage found (R425–R437). `halt` is the DETAIL of a failure that halts: nothing for a missing reference, the
bank of a ledger read failure, a generator and loop, a floor unit. `fuses` are the fuse banks read; `bonds` failing bonds outside
the shafts (tower, layer code, bundle, signal); `phases` are lost (domain, phase); `clocks`, `logic`, `scratch` failing clusters; `lanes` failing (cluster, lane), lanes 512 up
the 64 control lanes; `units` towers whose merge or codec unit fails; `ways` failing (tower, way); `banks` failing (cluster,
die, bank), spares as bank 32; `links` links up: (port, or at SPILL link of four, speed code, width); `slots` the two images of the
boot flash; `found` the spill devices; `readLat` and `lat` the latencies. -/
structure StageResult where
  halt    : Option Nat
  fuses   : List FuseBank
  bonds   : List (Nat × Nat × Nat × Nat)
  phases  : List (Nat × Nat)
  clocks  : List Nat
  lanes   : List (Nat × Nat)
  logic   : List Nat
  scratch : List Nat
  units   : List Nat
  ways    : List (Nat × Nat)
  banks   : List (Nat × Nat × Nat)
  links   : List (Nat × Nat × Nat)
  slots   : List (List Byte)
  found   : List Found
  readLat : Tbl Nat
  lat     : Tbl Nat
  deriving DecidableEq, Repr

/-- The commands of the block: one constructor per row of the table of operations and events, those with
operands first. -/
inductive Instr where
  /-- REGISTER_WRITE (R445). A whole-word register write that has no row of its own is applied, or is discarded under the view, partial-write and reserved-offset rules. -/
  | registerWrite (src : RegSrc) (off : Nat) (be : BitVec 8) (val : Word)
  /-- CONFIG_REQUEST (R428). A PCIe configuration request on an upstream link completes with Request Retry Status until the FIRMWARE stage of bring-up completes. -/
  | configRequest (p : Fin 2) (write : Bool)
  /-- PWR_CEILING_WRITE (R448). A limited-change write of the module power ceiling is checked under R449 and, when accepted, starts programming a ledger record. -/
  | pwrCeilingWrite (src : RegSrc) (val : Word)
  /-- HP_ROLE_WRITE (R310). A limited-change write of the default host port roles is checked and, when accepted, is recorded in the ledger for the next cold reset. -/
  | hpRoleWrite (src : RegSrc) (val : Word)
  /-- SYN_ID_WRITE (R293). A limited-change write of the Synur device ID is checked, including EN = 0 and no reserved ID, and, when accepted, is recorded in the ledger. -/
  | synIdWrite (src : RegSrc) (val : Word)
  /-- LCS_TENANT_WRITE (R452). A limited-change write of the Tenant view policy is checked and, when accepted, is recorded in the ledger. -/
  | lcsTenantWrite (src : RegSrc) (val : Word)
  /-- HRD_SLOPE_CEIL_WRITE (R448). A limited-change write of the Heord slope ceilings is checked against 50–100,000 mW/ms and, when accepted, is recorded in the ledger. -/
  | hrdSlopeCeilWrite (src : RegSrc) (val : Word)
  /-- LCS_GRADE_WRITE (R453). A limited-change grade downgrade naming a shipped grade below STAGED is accepted, recorded in the ledger and staged for the next cold reset. -/
  | lcsGradeWrite (src : RegSrc) (val : Word)
  /-- OPEN (R456). An OPEN action on LCS_AUTH_CTL starts verification of a signed request to open a change session. -/
  | credOpen (src : RegSrc) (val : Word)
  /-- CLOSE (R456). A CLOSE action ends any open change session, with no signature or check. -/
  | credClose (src : RegSrc) (val : Word)
  /-- BIND (R456). A BIND action starts verification of a request to fuse the hash of a key at an unbound credential index. -/
  | credBind (src : RegSrc) (val : Word)
  /-- SEAL (R456). A SEAL action starts verification of a signed request to set COMMISSIONED. -/
  | credSeal (src : RegSrc) (val : Word)
  /-- REVOKE (R456). A REVOKE action starts verification of a request, made under a session, to fuse the revocation of a credential index. -/
  | credRevoke (src : RegSrc) (val : Word)
  /-- STACK_ACCESS (R25). A shaft controller serves a read or write to its pillar, from its own cluster or arriving over the floor network, through the tower cache and the banks. -/
  | stackAccess (req : MemReq) (errs : List WordErr)
  /-- SHAFT_CMD_CRC_FAIL (R60). A shaft command fails its CRC and is sent again, up to two times. -/
  | shaftCmdCrcFail (c : Fin 1024) (lane : Fin 32)
  /-- REFRESH_ROW_DUE (R63). A bank's next row refresh falls due and is issued at the next step boundary, ahead of queued accesses. -/
  | refreshRowDue (b : BankId)
  /-- REFRESH_COMPLETE (R63). A row refresh completes after tRFCr, and queued accesses and the suspended near-bank unit resume. -/
  | refreshComplete (b : BankId)
  /-- NB_ACTIVITY_EVAL (R62). Every 100 µs each bank's near-bank activity over the last 1 ms is evaluated for the refresh window. -/
  | nbActivityEval (b : BankId) (busyUs : Nat)
  /-- SCRUB_READ (R75). The scrubber reads its next row in an idle or forced shaft slot and decodes each word. -/
  | scrubRead (c : Fin 1024) (errs : List WordErr)
  /-- DRAIN_TIMEOUT (R339). A unit that has not stopped within the drain bound is logged, its work reports 0x0601 and it joins the fault set. -/
  | drainTimeout (c : Option (Fin 1024)) (unit : Nat)
  /-- COMPUTE_RESET_STAGE (R439). A compute reset runs: fetch stops, host lines resolve, caches flush, shafts retrain, repairs and renumbering apply, state clears and the Sett table is rebuilt. -/
  | computeResetStage (hostLost : List Nat) (failed : List (Nat × Nat))
  /-- REVERIFY (R342). After the compute reset, the map copies and the new, repaired or marked resources are tested. -/
  | reverify (fails : List VerifyFail)
  /-- MMA (R98). A matrix multiply instruction reaches the head of the matrix queue, is checked, and its tile starts loading into the shadow registers. -/
  | mma (c : Fin 1024)
  /-- MMA_STREAM_START (R94). An instruction's weight stream starts at its stream-start cycle behind the swap front. -/
  | mmaStreamStart (c : Fin 1024)
  /-- MMA_SLOT_UPDATE (R91). A column product is aligned and added into its accumulator slot, with SAT, INX and NAN updated. -/
  | mmaSlotUpdate (c : Fin 1024) (m : Fin 128)
  /-- MMA_OUTPUT_RECORD (R93). A column's slots are converted and their output record is issued to the scratchpad. -/
  | mmaOutputRecord (c : Fin 1024)
  /-- MMA_COMPLETE (R96). A matrix instruction completes once its record writes are accepted. -/
  | mmaComplete (c : Fin 1024)
  /-- MDRAIN (R100). MDRAIN writes out a run of accumulator slots without streaming, optionally clearing them. -/
  | mdrain (c : Fin 1024)
  /-- MSYNC (R101). MSYNC enters the matrix queue to post its token once earlier instructions complete. -/
  | msync (c : Fin 1024)
  /-- MSYNC_COMPLETE (R101). Every earlier matrix instruction is complete and visible, and MSYNC posts its token. -/
  | msyncComplete (c : Fin 1024)
  /-- MATRIX_BALLAST_START (R106). Matrix ballast starts streaming internal data when the queue is empty and the governor requests ballast. -/
  | matrixBallastStart (c : Fin 1024)
  /-- ADD (R109). ALU FN 0 adds gA and gB into gD. -/
  | add (c : Fin 1024)
  /-- SUB (R109). ALU FN 1 subtracts gB from gA into gD. -/
  | sub (c : Fin 1024)
  /-- AND (R109). ALU FN 2 forms the bitwise AND of gA and gB. -/
  | and (c : Fin 1024)
  /-- OR (R109). ALU FN 3 forms the bitwise OR of gA and gB. -/
  | or (c : Fin 1024)
  /-- XOR (R109). ALU FN 4 forms the bitwise XOR of gA and gB. -/
  | xor (c : Fin 1024)
  /-- SLL (R109). ALU FN 5 shifts gA left by the low 6 bits of gB. -/
  | sll (c : Fin 1024)
  /-- SRL (R109). ALU FN 6 shifts gA right logically. -/
  | srl (c : Fin 1024)
  /-- SRA (R109). ALU FN 7 shifts gA right arithmetically. -/
  | sra (c : Fin 1024)
  /-- MUL (R109). ALU FN 8 gives the low 64 bits of the product. -/
  | mul (c : Fin 1024)
  /-- MULH (R109). ALU FN 9 gives the signed high 64 bits of the product. -/
  | mulh (c : Fin 1024)
  /-- SLT (R109). ALU FN 10 sets gD to the signed less-than of gA and gB. -/
  | slt (c : Fin 1024)
  /-- SLTU (R109). ALU FN 11 sets gD to the unsigned less-than of gA and gB. -/
  | sltu (c : Fin 1024)
  /-- DIVU (R109). ALU FN 12 divides unsigned, giving all ones for division by zero. -/
  | divu (c : Fin 1024)
  /-- REMU (R109). ALU FN 13 gives the unsigned remainder, or the dividend for division by zero. -/
  | remu (c : Fin 1024)
  /-- ADDI (R109). ADDI adds the sign-extended immediate to gA. -/
  | addi (c : Fin 1024)
  /-- ANDI (R109). ANDI ANDs gA with the zero-extended immediate. -/
  | andi (c : Fin 1024)
  /-- ORI (R109). ORI ORs gA with the zero-extended immediate. -/
  | ori (c : Fin 1024)
  /-- XORI (R109). XORI XORs gA with the zero-extended immediate. -/
  | xori (c : Fin 1024)
  /-- SLLI (R109). SLLI shifts gA left by IMM[5:0]. -/
  | slli (c : Fin 1024)
  /-- SRLI (R109). SRLI shifts gA right logically by IMM[5:0]. -/
  | srli (c : Fin 1024)
  /-- SRAI (R109). SRAI shifts gA right arithmetically by IMM[5:0]. -/
  | srai (c : Fin 1024)
  /-- SHLI (R109). SHLI shifts gA left by 16 and ORs in the zero-extended immediate. -/
  | shli (c : Fin 1024)
  /-- LDS (R109). LDS loads 8 bytes of the own scratchpad into gD, trapping on an unmapped or misaligned offset. -/
  | lds (c : Fin 1024)
  /-- STS (R109). STS stores gD into the own scratchpad by read, merge and write of the codeword. -/
  | sts (c : Fin 1024)
  /-- LDG (R109). LDG issues an 8-byte load from a device physical address. -/
  | ldg (c : Fin 1024)
  /-- LDG_COMPLETE (R111). The data of an LDG returns, or its failure traps the core with access error. -/
  | ldgComplete (c : Fin 1024)
  /-- STG (R109). STG issues an 8-byte store to a device physical address and holds issue until it completes. -/
  | stg (c : Fin 1024)
  /-- STG_COMPLETE (R111). The completion of an STG returns, the next instruction issues, or an error traps precisely. -/
  | stgComplete (c : Fin 1024)
  /-- BEQ (R109). BEQ branches when gA equals gB. -/
  | beq (c : Fin 1024)
  /-- BNE (R109). BNE branches when gA differs from gB. -/
  | bne (c : Fin 1024)
  /-- BLT (R109). BLT branches on signed less-than. -/
  | blt (c : Fin 1024)
  /-- BGE (R109). BGE branches on signed greater-or-equal. -/
  | bge (c : Fin 1024)
  /-- BLTU (R109). BLTU branches on unsigned less-than. -/
  | bltu (c : Fin 1024)
  /-- BGEU (R109). BGEU branches on unsigned greater-or-equal. -/
  | bgeu (c : Fin 1024)
  /-- JAL (R109). JAL links pc + 4 into gD and jumps PC-relative. -/
  | jal (c : Fin 1024)
  /-- JALR (R109). JALR links pc + 4 into gD and jumps to gA plus the immediate. -/
  | jalr (c : Fin 1024)
  /-- QPUSH (R112). QPUSH pushes an entry from registers into the matrix or a vector queue, stalling when full and discarded when halted. -/
  | qpush (c : Fin 1024)
  /-- TWAIT (R113). TWAIT waits until a token source reaches a target, or traps with queue-halted on a halted source. -/
  | twait (c : Fin 1024)
  /-- TREAD (R109). TREAD reads the last token of a source into gD. -/
  | tread (c : Fin 1024)
  /-- DKICK (R136). DKICK sets the TAIL of a DMA channel, starting its descriptors or setting KICK_ERR. -/
  | dkick (c : Fin 1024)
  /-- DCTL_RESUME (R140). DCTL action 0 resumes a halted channel at HEAD + 1. -/
  | dctlResume (c : Fin 1024)
  /-- DCTL_RETRY (R140). DCTL action 1 retries the failing descriptor from its start. -/
  | dctlRetry (c : Fin 1024)
  /-- DCTL_RESET (R140). DCTL action 2 resets a halted channel to idle with HEAD := TAIL. -/
  | dctlReset (c : Fin 1024)
  /-- ROINV (R132). ROINV invalidates the data ways, or all ways, of the cluster's read-only cache. -/
  | roinv (c : Fin 1024)
  /-- CSRR (R110). CSRR reads a control and status register into gD. -/
  | csrr (c : Fin 1024)
  /-- CSRW (R110). CSRW writes a control and status register, trapping for a read-only one. -/
  | csrw (c : Fin 1024)
  /-- TRAP (R115). TRAP takes a software trap with TVAL set from the immediate. -/
  | trap (c : Fin 1024)
  /-- ERET (R109). ERET returns to EPC and clears INTRAP, after which a held asynchronous cause may be taken. -/
  | eret (c : Fin 1024)
  /-- HALT (R118). HALT ends the kernel on this cluster with an exit code. -/
  | halt (c : Fin 1024)
  /-- ASYNC_TRAP (R115). An asynchronous cause is taken at the next instruction boundary, or at once for a waiting TWAIT. -/
  | asyncTrap (c : Fin 1024)
  /-- KERNEL_COMPLETE (R118). After HALT, the kernel completes once every queue is empty or halted and every DMA channel idle or halted. -/
  | kernelComplete (l : Nat)
  /-- ROC_FILL (R131). A read-only cache miss fills a 256-byte line from the owning shaft controller, or reports its failure to the fetch or operand read. -/
  | rocFill (c : Fin 1024) (code : Bool) (addr : Nat) (errs : List WordErr)
  /-- VNOP (R121). VNOP does nothing. -/
  | vnop (c : Fin 1024) (v : Fin 4)
  /-- VADD (R121). VADD adds two vector registers lane by lane. -/
  | vadd (c : Fin 1024) (v : Fin 4)
  /-- VSUB (R121). VSUB subtracts lane by lane. -/
  | vsub (c : Fin 1024) (v : Fin 4)
  /-- VMUL (R121). VMUL multiplies lane by lane. -/
  | vmul (c : Fin 1024) (v : Fin 4)
  /-- VFMA (R121). VFMA forms va × vb + vc with one rounding. -/
  | vfma (c : Fin 1024) (v : Fin 4)
  /-- VMAX (R121). VMAX takes the lane-wise maximum. -/
  | vmax (c : Fin 1024) (v : Fin 4)
  /-- VMIN (R121). VMIN takes the lane-wise minimum. -/
  | vmin (c : Fin 1024) (v : Fin 4)
  /-- VABS (R121). VABS takes the lane-wise absolute value. -/
  | vabs (c : Fin 1024) (v : Fin 4)
  /-- VNEG (R121). VNEG negates each lane. -/
  | vneg (c : Fin 1024) (v : Fin 4)
  /-- VADDI (R121). VADDI adds an immediate constant to each lane. -/
  | vaddi (c : Fin 1024) (v : Fin 4)
  /-- VMULI (R121). VMULI multiplies each lane by an immediate constant. -/
  | vmuli (c : Fin 1024) (v : Fin 4)
  /-- VEXP2 (R121). VEXP2 computes 2 to the power of each lane. -/
  | vexp2 (c : Fin 1024) (v : Fin 4)
  /-- VLOG2 (R121). VLOG2 computes the base-2 logarithm of each lane. -/
  | vlog2 (c : Fin 1024) (v : Fin 4)
  /-- VRCP (R121). VRCP computes the reciprocal of each lane. -/
  | vrcp (c : Fin 1024) (v : Fin 4)
  /-- VRSQRT (R121). VRSQRT computes the reciprocal square root of each lane. -/
  | vrsqrt (c : Fin 1024) (v : Fin 4)
  /-- VLDEXP (R121). VLDEXP scales each lane by a power of two. -/
  | vldexp (c : Fin 1024) (v : Fin 4)
  /-- VGETE (R121). VGETE extracts the binary exponent of each lane. -/
  | vgete (c : Fin 1024) (v : Fin 4)
  /-- VRSUM (R122). VRSUM writes the fixed-tree sum of the enabled lanes into every lane. -/
  | vrsum (c : Fin 1024) (v : Fin 4)
  /-- VRMAX (R122). VRMAX writes the maximum of the enabled lanes into every lane. -/
  | vrmax (c : Fin 1024) (v : Fin 4)
  /-- VPERM (R121). VPERM permutes lanes by indices in vb. -/
  | vperm (c : Fin 1024) (v : Fin 4)
  /-- VCMP (R121). VCMP writes a mask register from a lane-wise comparison. -/
  | vcmp (c : Fin 1024) (v : Fin 4)
  /-- VSEL (R121). VSEL selects lanes from va or vb by a mask. -/
  | vsel (c : Fin 1024) (v : Fin 4)
  /-- VCVT (R123). VCVT converts lanes between types, with part selection. -/
  | vcvt (c : Fin 1024) (v : Fin 4)
  /-- VLD (R121). VLD loads 128 bytes of the scratchpad into a vector register. -/
  | vld (c : Fin 1024) (v : Fin 4)
  /-- VST (R125). VST stores the enabled lanes of a vector register to the scratchpad. -/
  | vst (c : Fin 1024) (v : Fin 4)
  /-- VLDBC (R121). VLDBC broadcasts one scratchpad element to every lane. -/
  | vldbc (c : Fin 1024) (v : Fin 4)
  /-- VSETA (R121). VSETA sets an address register to an immediate. -/
  | vseta (c : Fin 1024) (v : Fin 4)
  /-- VADDA (R121). VADDA adds an immediate to an address register modulo 4 MiB. -/
  | vadda (c : Fin 1024) (v : Fin 4)
  /-- VSYNC (R121). VSYNC enters the vector queue to post its token once earlier instructions complete. -/
  | vsync (c : Fin 1024) (v : Fin 4)
  /-- VSYNC_COMPLETE (R121). Every earlier instruction of the vector core is complete and visible, and VSYNC posts its token. -/
  | vsyncComplete (c : Fin 1024) (v : Fin 4)
  /-- SCRATCHPAD_ACCESS (R127). A scratchpad access from a port is granted by bank arbitration or its fixed slot and served. -/
  | scratchpadAccess (c : Fin 1024) (port : Fin 8) (req : MemReq) (errs : List WordErr)
  /-- DMA_COPY (R135). A copy descriptor starts on its channel and copies LEN bytes, plainly or with reduction. -/
  | dmaCopy (c : Fin 1024) (ch : Fin 16)
  /-- DMA_COPY_2D (R135). A 2D copy descriptor starts and copies ROWS rows with strides. -/
  | dmaCopy2d (c : Fin 1024) (ch : Fin 16)
  /-- DMA_FILL (R135). A fill descriptor starts and fills LEN bytes with a 32-bit pattern. -/
  | dmaFill (c : Fin 1024) (ch : Fin 16)
  /-- DESC_STATUS_WRITE (R137). A descriptor completes: its STATUS is written in ring order, HEAD advances and its token is posted. -/
  | descStatusWrite (c : Fin 1024) (ch : Fin 16)
  /-- LAUNCH (R277). LAUNCH is checked and claims its logical clusters to run a code object. -/
  | launch (k : Nat)
  /-- LAUNCH_START (R270). A launch or graph node whose clusters are free starts, writing the argument block and initial state. -/
  | launchStart (l : Nat)
  /-- GRAPH_LAUNCH (R278). GRAPH_LAUNCH reads and checks every node record before any node starts. -/
  | graphLaunch (k : Nat)
  /-- GRAPH_NODE_START (R278). A graph node whose predecessors all completed with exit code 0 starts, or is skipped on a failed predecessor. -/
  | graphNodeStart (k : Nat) (node : Nat)
  /-- NB_RUN (R148). A RUN command written to a slot is checked, its target set resolved and it is dispatched to the units. -/
  | nbRun (src : RegSrc) (t : Fin 16) (slot : Fin 64) (val : Word)
  /-- NB_LOAD (R148). A LOAD command written to a slot is checked and dispatched to write a program store. -/
  | nbLoad (src : RegSrc) (t : Fin 16) (slot : Fin 64) (val : Word)
  /-- NB_SETGRP (R148). A SETGRP command written to a slot is checked and dispatched to set group slots. -/
  | nbSetgrp (src : RegSrc) (t : Fin 16) (slot : Fin 64) (val : Word)
  /-- NB_CMD_ARRIVE (R150). A near-bank command arrives at a unit and starts, takes its set's pending position, or is refused with NB_BUSY. -/
  | nbCmdArrive (b : BankId)
  /-- UNIT_NOP (R158). The micro-operation NOP does nothing. -/
  | unitNop (b : BankId)
  /-- END (R158). END completes the unit's operation once its writes and records are accepted. -/
  | unitEnd (b : BankId)
  /-- SETAC (R158). SETAC sets an address counter from a parameter and immediate. -/
  | setac (b : BankId)
  /-- SETLC (R158). SETLC sets a loop counter from an immediate. -/
  | setlc (b : BankId)
  /-- SETLCP (R158). SETLCP sets a loop counter from a parameter. -/
  | setlcp (b : BankId)
  /-- LOOP (R158). LOOP decrements a loop counter and branches while it is positive. -/
  | loop (b : BankId)
  /-- BZLC (R158). BZLC branches when a loop counter is zero. -/
  | bzlc (b : BankId)
  /-- RDC (R158). RDC reads the column at an address counter into a latch unit within the declared ranges. -/
  | rdc (b : BankId)
  /-- WRC (R158). WRC writes a latch unit to the column at an address counter within OUT. -/
  | wrc (b : BankId)
  /-- EMIT (R161). EMIT sends latch units as a record to memory or to the tower merge unit, blocking until accepted. -/
  | emit (b : BankId)
  /-- DOT (R160). DOT adds the exact dot product of a span and a stored column into a scalar accumulator. -/
  | dot (b : BankId)
  /-- AXPY (R160). AXPY adds a scaled column into lanes of an accumulator vector. -/
  | axpy (b : BankId)
  /-- AVSCALE (R158). AVSCALE multiplies every lane of an accumulator vector by a scalar. -/
  | avscale (b : BankId)
  /-- AVZERO (R158). AVZERO clears an accumulator vector to +0. -/
  | avzero (b : BankId)
  /-- SSETI (R158). SSETI sets a scalar accumulator to a constant. -/
  | sseti (b : BankId)
  /-- SLDP (R158). SLDP loads a scalar accumulator from a parameter. -/
  | sldp (b : BankId)
  /-- SMOV (R158). SMOV copies a scalar accumulator. -/
  | smov (b : BankId)
  /-- SADD (R158). SADD adds two scalar accumulators. -/
  | sadd (b : BankId)
  /-- SSUB (R158). SSUB subtracts two scalar accumulators. -/
  | ssub (b : BankId)
  /-- SMUL (R158). SMUL multiplies two scalar accumulators. -/
  | smul (b : BankId)
  /-- SMAX (R158). SMAX takes the maximum of two scalar accumulators. -/
  | smax (b : BankId)
  /-- SEXP2 (R158). SEXP2 raises 2 to a scalar accumulator's power. -/
  | sexp2 (b : BankId)
  /-- NB_STEP_BOUNDARY (R164). A near-bank step ends with row close, serving queued accesses, refresh or fence stop before the unit resumes. -/
  | nbStepBoundary (b : BankId)
  /-- TOKEN_REFILL (R167). Every 8 ns a pillar's token bucket refills by RATE_EFF and waiting units take tokens in order. -/
  | tokenRefill (c : Fin 1024)
  /-- NB_UNIT_COMPLETE (R151). A unit's completion report reaches its slot, held reads are served and a pending command starts. -/
  | nbUnitComplete (b : BankId)
  /-- NB_READ_TIMEOUT (R155). A read held for a running unit's OUT range for more than 20 µs completes with 0x0801. -/
  | nbReadTimeout (b : BankId)
  /-- KV_POOL_SET (R178). KV_POOL_SET declares the pool bank list, the class assignments and the metadata region. -/
  | kvPoolSet (k : Nat)
  /-- KV_PROFILE_SET (R185). KV_PROFILE_SET writes a cache profile of layers, heads and layer records. -/
  | kvProfileSet (k : Nat)
  /-- SEQ_CREATE (R187). SEQ_CREATE takes the lowest Free sequence entry. -/
  | seqCreate (k : Nat)
  /-- SEQ_FORK (R188). SEQ_FORK creates a sequence sharing the source's first T tokens. -/
  | seqFork (k : Nat)
  /-- SEQ_FREE (R189). SEQ_FREE drops every page-table entry of a sequence and frees it. -/
  | seqFree (k : Nat)
  /-- SEQ_TRUNCATE (R190). SEQ_TRUNCATE cuts every layer length to T and drops pages wholly beyond it. -/
  | seqTruncate (k : Nat)
  /-- KV_APPEND (R191). KV_APPEND writes new keys and values to one layer of each listed sequence. -/
  | kvAppend (k : Nat)
  /-- KV_EXPORT (R279). KV_EXPORT copies positions of a layer out as BF16 or as stored. -/
  | kvExport (k : Nat)
  /-- KV_SPILL_SET (R206). KV_SPILL_SET places the spill area in the spill tier. -/
  | kvSpillSet (k : Nat)
  /-- KV_SWAP_SET (R211). KV_SWAP_SET places the swap area in a host memory window. -/
  | kvSwapSet (k : Nat)
  /-- KV_PREFETCH (R209). KV_PREFETCH brings named spilled pages into stack DRAM. -/
  | kvPrefetch (k : Nat)
  /-- KV_SPILL_PAGES (R208). KV_SPILL_PAGES spills the named sealed pages whatever the watermarks. -/
  | kvSpillPages (k : Nat)
  /-- SEQ_SWAP_OUT (R211). SEQ_SWAP_OUT moves a sequence's exclusive resident pages to swap slots. -/
  | seqSwapOut (k : Nat)
  /-- SEQ_SWAP_IN (R212). SEQ_SWAP_IN brings a swapped sequence's pages back and makes it Active. -/
  | seqSwapIn (k : Nat)
  /-- SPILL_START (R207). Free frames of a class falling below LOW start spilling of the oldest sealed pages. -/
  | spillStart (cls : Fin 3)
  /-- ALLOC_WAIT_EXPIRE (R210). An allocation waiting for a free frame reaches SPILL_WAIT and pre-empts or fails. -/
  | allocWaitExpire (k : Nat)
  /-- KV_ATTEND (R217). KV_ATTEND starts decode attention over the cache for its listed sequences. -/
  | kvAttend (k : Nat)
  /-- PAGE_RUN_DISPATCH (R230). The manager opens a context and dispatches page runs once the context can be opened and the pages are chosen. -/
  | pageRunDispatch (t : Fin 16)
  /-- MERGE_ACCEPT (R229). In a merge cycle the tower merge unit accepts a partial or up to 16 select records and returns credits. -/
  | mergeAccept (t : Fin 16)
  /-- FLOOR_MERGE_FOLD (R233). Once every expected tower has delivered, the floor merge folds the tower results or selections in tower order. -/
  | floorMergeFold (ctx : Nat)
  /-- TC_REDUCTION (R250). A reduction reaches its tower cache line and is applied, queued or staged. -/
  | tcReduction (src : Nat) (addr : Nat) (op : Nat) (data : List Byte) (hint : Nat)
  /-- VICTIM_WRITEBACK (R243). A victim line's write-back is issued once its reduction queue is empty. -/
  | victimWriteback (t : Fin 16) (errs : List WordErr)
  /-- BATCH_TIMEOUT (R252). An allocation in a set that has waited 10 µs closes the line's batch. -/
  | batchTimeout (t : Fin 16) (gran : Nat)
  /-- TC_FLUSH (R255). TC_CTL.FLUSH starts a flush that closes batches, narrows lines, writes back dirty lines and optionally invalidates. -/
  | tcFlush (src : RegSrc) (t : Fin 16) (val : Word)
  /-- TC_FLUSH_DONE (R255). The flush pass ends and FLUSHING clears. -/
  | tcFlushDone (t : Fin 16)
  /-- TC_RCLOSE (R252). TC_CTL.RCLOSE closes every batch of the tower. -/
  | tcRclose (src : RegSrc) (t : Fin 16) (val : Word)
  /-- TC_UNPIN (R246). TC_CTL.UNPIN makes every keep line of the tower normal. -/
  | tcUnpin (src : RegSrc) (t : Fin 16) (val : Word)
  /-- THRASH_WINDOW_END (R248). At the end of a lookup window the thrash detector raises an event when both conditions hold. -/
  | thrashWindowEnd (t : Fin 16)
  /-- TC_APERTURE_ACCESS (R257). An access to the tower cache aperture reads or writes the data array, or returns raw data and discards writes in service. -/
  | tcApertureAccess (tenantView : Bool) (req : MemReq)
  /-- DOORBELL_SQ (R261). A write to QD_DB_SQ sets SQ_TAIL, or is ignored with DB_ERR. -/
  | doorbellSq (src : RegSrc) (q : Fin 256) (val : Word)
  /-- DOORBELL_CQ (R261). A write to QD_DB_CQ sets CQ_HEAD, or is ignored with DB_ERR. -/
  | doorbellCq (src : RegSrc) (q : Fin 256) (val : Word)
  /-- QUEUE_ENABLE (R259). A write of EN = 1 enables a queue and zeroes its pointers, or sets CFG_ERR. -/
  | queueEnable (src : RegSrc) (q : Fin 256) (val : Word)
  /-- QUEUE_DISABLE (R259). A write of EN = 0 stops fetching while fetched commands complete. -/
  | queueDisable (src : RegSrc) (q : Fin 256) (val : Word)
  /-- QUEUE_RESET (R263). A write of RESET stops fetching and waits for in-flight replies before clearing the queue. -/
  | queueReset (src : RegSrc) (q : Fin 256) (val : Word)
  /-- FENCE_ACK (R272). A write of FENCE_ACK clears FENCED once the device has reported ready after the queue's last fence. -/
  | fenceAck (src : RegSrc) (q : Fin 256) (val : Word)
  /-- COMMAND_FETCH (R262). The Owl fetches a command from a queue whose conditions hold, checks it and hands it to its unit. -/
  | commandFetch (q : Fin 256)
  /-- REPLY_POST (R268). A finished command's reply is posted in ring order once every earlier reply of its queue is posted. -/
  | replyPost (q : Fin 256)
  /-- NOP (R274). The Tarhel NOP command does nothing and posts a reply. -/
  | tarhelNop (k : Nat)
  /-- WAIT_QUEUE (R274). WAIT_QUEUE waits for another queue's reply count to reach a value. -/
  | waitQueue (k : Nat)
  /-- SIGNAL (R274). SIGNAL writes an 8-byte value at an address. -/
  | signal (k : Nat)
  /-- TENANT_SWITCH (R274). TENANT_SWITCH completes the tenant clearing and makes a new tenant current. -/
  | tenantSwitch (k : Nat)
  /-- CODE_LOAD (R275). CODE_LOAD copies and checks a code object and invalidates every read-only cache. -/
  | codeLoad (k : Nat)
  /-- MODEL_LOAD (R276). MODEL_LOAD with CONV 0 copies bytes into stack DRAM. -/
  | modelLoad (k : Nat)
  /-- MODEL_LOAD_CONVERT (R204). MODEL_LOAD with CONV 1–4 converts MX records to INT8 with scales in the codec unit. -/
  | modelLoadConvert (k : Nat)
  /-- WIN_OPEN (R302). WIN_OPEN opens an inbound window with a new generation. -/
  | winOpen (k : Nat)
  /-- WIN_CLOSE (R306). WIN_CLOSE marks a window closing; it completes when accepted bursts are applied. -/
  | winClose (k : Nat)
  /-- HWIN_MAP (R319). HWIN_MAP maps a host memory window. -/
  | hwinMap (k : Nat)
  /-- HWIN_UNMAP (R320). HWIN_UNMAP unmaps a host window after its issued requests complete. -/
  | hwinUnmap (k : Nat)
  /-- DMA_DESC (R280). DMA_DESC runs one descriptor on a collective engine copy channel. -/
  | dmaDesc (k : Nat)
  /-- DMA_LIST (R280). DMA_LIST runs a list of descriptors in order, stopping at the first failure. -/
  | dmaList (k : Nat)
  /-- ALLREDUCE (R327). ALLREDUCE reduces every member's buffer around a ring and circulates the result. -/
  | allreduce (k : Nat)
  /-- ALLGATHER (R326). ALLGATHER gathers every member's buffer into each member. -/
  | allgather (k : Nat)
  /-- REDUCE_SCATTER (R327). REDUCE_SCATTER reduces block r of every member into rank r. -/
  | reduceScatter (k : Nat)
  /-- BROADCAST (R326). BROADCAST copies the root's buffer to every member. -/
  | broadcast (k : Nat)
  /-- ALLTOALL (R326). ALLTOALL exchanges blocks between every pair of members. -/
  | alltoall (k : Nat)
  /-- PERMUTE (R333). PERMUTE moves segments between members through staging, safely in place. -/
  | permute (k : Nat)
  /-- EXPERT_DISPATCH (R330). EXPERT_DISPATCH routes token rows to expert holders within capacity. -/
  | expertDispatch (k : Nat)
  /-- EXPERT_COMBINE (R332). EXPERT_COMBINE returns kept rows and forms weighted token sums. -/
  | expertCombine (k : Nat)
  /-- GROUP_SET (R323). GROUP_SET defines a collective group for the queue's job. -/
  | groupSet (k : Nat)
  /-- HRD_TARGET (R378). HRD_TARGET schedules a power target at a tick. -/
  | hrdTarget (k : Nat)
  /-- CLK_SYNC (R390). CLK_SYNC schedules a class frequency change at a tick and sets the idle loops. -/
  | clkSync (k : Nat)
  /-- HRD_BALLAST (R380). HRD_BALLAST sets the ballast floor and hold. -/
  | hrdBallast (k : Nat)
  /-- LOG_READ (R471). LOG_READ copies log entries from a sequence number to memory. -/
  | logRead (k : Nat)
  /-- TELEM_SNAP (R369). TELEM_SNAP with KIND 0 writes the last latched power millisecond. -/
  | telemSnap (k : Nat)
  /-- TELEM_SNAP_THERMAL (R421). TELEM_SNAP with KIND 1 writes the sensor and tower snapshot. -/
  | telemSnapThermal (k : Nat)
  /-- LOG_CLEAR (R356). LOG_CLEAR empties the log. -/
  | logClear (k : Nat)
  /-- COMPUTE_RESET (R347). COMPUTE_RESET starts a recovery with the reset fence, merges into a running one, or leaves Held. -/
  | computeReset (k : Nat)
  /-- HELD_RELEASE (R346). HELD_RELEASE leaves Held with a new recovery that maps out the resources that caused restarts. -/
  | heldRelease (k : Nat)
  /-- VENDOR_TEST (R274). A vendor test command is refused with 0x0101 on a device in service. -/
  | vendorTest (k : Nat)
  /-- FLIT_RECEIVE (R290). A flit arrives on a Synur port and is decoded and accepted in sequence, or NAKed. -/
  | flitReceive (p : Fin 16) (flit : Wire)
  /-- IDLE_FLIT_SEND (R290). An IDLE flit carrying ACK is sent when 100 ns pass without one. -/
  | idleFlitSend (p : Fin 16)
  /-- LANE_FAIL (R284). A Synur lane that loses lock or collects errors fails and is replaced by its spare or narrowed out. -/
  | laneFail (p : Fin 16) (lane : Fin 8)
  /-- PORT_RETRAIN (R292). A port leaves UP for RETRAIN on repeated replay, silence or too few lanes. -/
  | portRetrain (p : Fin 16)
  /-- PORT_UP (R292). Training of a port succeeds and it returns to UP, resuming replay or with fresh sequence numbers. -/
  | portUp (p : Fin 16) (lanes : Nat) (fresh : Bool)
  /-- PORT_FAILED (R292). A retraining port that exceeds LINK_HOLD becomes FAILED and discards its retry buffer. -/
  | portFailed (p : Fin 16)
  /-- PORT_TRAIN_ATTEMPT (R292). A FAILED port attempts training every 1 s. -/
  | portTrainAttempt (p : Fin 16) (ok : Bool) (lanes : Nat)
  /-- FLIT_AGED (R297). A flit held in a buffer more than 100 µs is discarded, counted and handled as a loss. -/
  | flitAged (place : PortBuf)
  /-- PATH_HOLD_EXPIRE (R296). Flits held 100 µs after their port failed take another path. -/
  | pathHoldExpire (p : Fin 16)
  /-- MEMBER_TIMEOUT (R300). A member not heard for 500 ms is removed and logged. -/
  | memberTimeout (id : Nat)
  /-- BURST_TORN (R306). A burst without a flit for 100 µs is torn, counted and fences the window's job. -/
  | burstTorn (win : Fin 4096)
  /-- COLL_TIMEOUT (R328). A collective without progress for TIMEOUT completes with 0x0401 and fences. -/
  | collTimeout (g : Nat)
  /-- SYN_EN_SET (R300). Writing SYN_CFG.EN = 1 with an ID set trains the ports and starts joining. -/
  | synEnSet (src : RegSrc) (val : Word)
  /-- SYN_EN_CLEAR (R308). Writing SYN_CFG.EN = 0 broadcasts LEAVE and takes every port down. -/
  | synEnClear (src : RegSrc) (val : Word)
  /-- ROUTE_TABLE_WRITE (R300). A routing table write is stored and counted in NO_DJ when it lacks DJ in a large fabric. -/
  | routeTableWrite (src : RegSrc) (i : Fin 16384) (val : Word)
  /-- HOST_MEM_ACCESS (R312). A host access through BAR4 reaches device memory under Operator privilege. -/
  | hostMemAccess (p : Fin 2) (req : MemReq)
  /-- CXL_MEM_REQUEST (R314). A CXL.mem request reaches stack DRAM through the HDM range, with the host filter updated for shared regions. -/
  | cxlMemRequest (p : Fin 2) (req : MemReq) (shared : Bool)
  /-- BIRSP (R316). A host back-invalidate response arrives, its write-back is applied and the device-side access proceeds. -/
  | birsp (p : Fin 2) (addr : Nat) (dirty : Option (List Byte))
  /-- BI_TIMEOUT (R316). No BIRsp within BI_TIMEOUT completes the device-side access with 0x0405 and logs it. -/
  | biTimeout (p : Fin 2) (addr : Nat)
  /-- HOST_SNOOP (R318). A host snoop to the device is answered as a miss. -/
  | hostSnoop (p : Fin 2) (addr : Nat)
  /-- HOST_COMPLETION (R320). A completion for a device request through a host port completes its requester, with 0x0405 on error. -/
  | hostCompletion (p : Fin 2) (tag : Nat) (err : Bool) (data : List Byte)
  /-- HOST_LINK_DOWN (R320). An upstream link is lost and every outstanding request through it completes with 0x0405. -/
  | hostLinkDown (p : Fin 2)
  /-- SPILL_DEVICE_LOST (R322). A downstream link or Type-3 device fails and its capacity answers 0x0405 from then on. -/
  | spillDeviceLost (loss : SpillLoss)
  /-- HOST_LINK_RESET (R424). PERST#, Hot Reset or Link Disable not set for cold reset resets only that port's link and configuration space. -/
  | hostLinkReset (p : Fin 2)
  /-- LOG_CTL_CLEAR (R356). Writing LOG_CTL.CLEAR empties the log and sets OLDEST_SEQ to NEXT_SEQ. -/
  | logCtlClear (src : RegSrc) (val : Word)
  /-- MILLISECOND_BOUNDARY (R368). At every millisecond tick the measurements are latched and the governor and thermal control act. -/
  | millisecondBoundary (m : Measured)
  /-- ENVELOPE_STEP (R372). Every 1 µs the power manager moves the load along the envelope with issue gating, ballast and the shunt. -/
  | envelopeStep (load : Nat)
  /-- PHASE_FAIL (R365). A regulator phase fails, is disconnected and its domain cap lowered. -/
  | phaseFail (d : Nat) (phase : Fin 8)
  /-- IBC_FAIL (R360). An intermediate bus converter fails and is disconnected, lowering the envelope bound. -/
  | ibcFail (i : Fin 8)
  /-- INPUT_RANGE (R359). VIN leaves or returns to the 40–60 V range and INPUT_RANGE is logged. -/
  | inputRange (mv : Nat)
  /-- POWER_LOSS (R359). VIN at or below 36 V for 100 µs, or above 63 V, stops the converters. -/
  | powerLoss (mv : Nat)
  /-- CLOCK_SWITCH (R391). At the scheduled tick each island of the class switches to its idle loop, then VCORE and the reply follow. -/
  | clockSwitch (cls : Fin 4)
  /-- SWITCH_HUNG (R394). A clock switch not completed within 1 µs sets HUNG and fences the island's job. -/
  | switchHung (isl : Nat)
  /-- CLK_BYPASS (R394). CLK_BYPASS.GO applies the reset-bypass escape to an island. -/
  | clkBypass (src : RegSrc) (val : Word)
  /-- PLL_UNLOCK (R395). A loop loses lock, writes PLL_UNLOCK and fences the jobs on its islands. -/
  | pllUnlock (gen : Nat) (loop : Fin 5)
  /-- CLK_MGMT_WRITE (R397). A CLK_MGMT write changes the management core and register bus clocks 50 µs later. -/
  | clkMgmtWrite (src : RegSrc) (val : Word)
  /-- CLK_GATE_WRITE (R398). A CLK_GATE write gates or ungates floor blocks, refusing blocks in use. -/
  | clkGateWrite (src : RegSrc) (val : Word)
  /-- CLK_OBS_WRITE (R402). A CLK_OBS write selects the observation output, holding it low through the change. -/
  | clkObsWrite (src : RegSrc) (val : Word)
  /-- MARGIN_MEASURE (R400). Every 10 µs an island's margin monitor measures slack and the VCORE trim or cycle stretch follows. -/
  | marginMeasure (isl : Nat) (slack : Int)
  /-- MARGIN_CALIBRATE (R401). After 1 s steady at one frequency the monitor calibrates and sets CAL. -/
  | marginCalibrate (isl : Nat)
  /-- SENSOR_SAMPLE (R404). Every 100 µs each sensor is converted, with range, critical and shutdown checks on the sample. -/
  | sensorSample (i : Fin 3392) (v : Int)
  /-- SENSOR_CONV_TIMEOUT (R408). A conversion not completed within 300 µs excludes the sensor. -/
  | sensorConvTimeout (i : Fin 3392)
  /-- SENSOR_SUSPECT (R407). A pair disagreeing by more than 4 °C for 100 ms is marked suspect. -/
  | sensorSuspect (i : Fin 3392)
  /-- SENSOR_PAIR_RECOVER (R407). A suspect pair within 2 °C for 1 s before the vote returns to good. -/
  | sensorPairRecover (i : Fin 3392)
  /-- MODEL_OVERRIDE (R412). An S or D estimate above its control value by over 6 °C for 50 ms takes over as governing temperature. -/
  | modelOverride (t : Fin 16) (layer : Fin 20) (r : Fin 8)
  /-- MODEL_OVERRIDE_END (R412). An excess at or below 3 °C for 1 s ends the override. -/
  | modelOverrideEnd (t : Fin 16) (layer : Fin 20) (r : Fin 8)
  /-- CRITICAL_EXIT (R418). Every node below CRIT − 5 °C for 100 ms ends the critical state. -/
  | criticalExit (t : Fin 16)
  /-- THM_COOL_WRITE (R420). A cooling descriptor write is checked and takes effect at the next millisecond, or sets COOL_ERR. -/
  | thmCoolWrite (src : RegSrc) (val : Word)
  /-- RST_CTL_COLD (R424). Writing RST_CTL.COLD starts a cold reset. -/
  | rstCtlCold (src : RegSrc) (val : Word)
  /-- PERST_COLD (R424). PERST# on a port selected in PERST_COLD starts a cold reset. -/
  | perstCold (p : Fin 2)
  /-- BRINGUP_STAGE_COMPLETE (R425). A bring-up stage completes, its tick is latched and the next stage starts. -/
  | bringupStageComplete (r : StageResult)
  /-- FW_COMMIT (R431). BOOT_FW_CTL.COMMIT raises the fused MIN_SVN to the running SVN, or sets COMMIT_ERR. -/
  | fwCommit (src : RegSrc) (val : Word)
  /-- ILLEGAL_INSTRUCTION (R109). The scalar control core executes a word with an unlisted OP or FN, a non-zero unused D field, an unlisted CSR, or DCTL action 3, and traps with cause illegal instruction. -/
  | illegalInstruction (c : Fin 1024)
  /-- VECTOR_RESERVED_OP (R124). A vector queue entry with a reserved VOP reaches the head of its queue, is rejected with code 0x01, halts the queue and traps the scalar core with vector-reject. -/
  | vectorReservedOp (c : Fin 1024) (v : Fin 4)
  /-- MATRIX_RESERVED_OP (R99). A matrix queue entry with an opcode other than MMA, MDRAIN or MSYNC reaches the head of the queue, is rejected with code 0x01, halts the queue and traps with matrix-reject. -/
  | matrixReservedOp (c : Fin 1024)
  /-- NB_CMD_RESERVED (R148). A write of NB_S_CMD with a reserved KIND is refused as a whole with 0x0110, setting FAIL and NB_S_FAIL with BUSY cleared. -/
  | nbCmdReserved (src : RegSrc) (t : Fin 16) (slot : Fin 64) (val : Word)
  /-- REGISTER_READ (R445). A register read returns the enabled bytes of its word through its view, is a counted and logged bus error in a gated block, and for LOG_STAT releases the alert output held for a pending log entry. -/
  | registerRead (src : RegSrc) (off : Nat) (be : BitVec 8)
  /-- UNIT_PARITY (R334). A parity error is detected in a unit's control state, writing UNIT_PARITY and raising the fence of the job the unit serves. -/
  | unitParity (c : Option (Fin 1024)) (unit : Nat)
  /-- HOST_LINK_UP (R425). An upstream or downstream host link finishes training and comes up, after a late start in bring-up, a link reset or a loss of the link. -/
  | hostLinkUp (p : Fin 2) (speed : Nat) (width : Nat)
  /-- TAP_RESET (R468). TRST_N asserted or left undriven holds the test access port in reset, and its release lets the TAP run again. -/
  | tapReset (held : Bool)
  /-- LEDGER_PROGRAM_DONE (R450). Programming of a ledger record completes with its CRC, the new value is applied and BUSY clears. -/
  | ledgerProgramDone
  /-- AUTH_VERIFY_DONE (R455). Verification of a credential action completes: the checks decide AUTH_RES, the action takes effect if all pass, and a new nonce is drawn. -/
  | authVerifyDone
  /-- SESSION_EXPIRE (R456). An open change session ends 60 s after it was opened. -/
  | sessionExpire
  /-- DRAIN_COMPLETE (R338). The drain stage of a recovery ends, the log stage writes trap context and fixes the action for each resource, and the compute reset stage follows. -/
  | drainComplete
  /-- READER_SLOT_GRANT (R195). A reader waiting for one of the 256 reader slots takes one that frees and pins the epoch. -/
  | readerSlotGrant
  /-- RETIRED_RETURN (R196). A retired item returns to its pool once no reader holds a pin of its epoch or lower. -/
  | retiredReturn
  /-- DMA_CHANNEL_GRANT (R280). A DMA command waiting for a copy channel takes one as it frees, in fetch order. -/
  | dmaChannelGrant
  /-- WR (R303). A window write packet is checked by the owner and applied, with bursts accepted or rejected whole. -/
  | winWrite
  /-- RD (R304). A window read packet is checked and answered with RD_DATA flits. -/
  | winRead
  /-- RD_DATA (R304). Read data or a failure status returns to the reader. -/
  | winReadData
  /-- WR_DONE (R304). A burst's completion status returns to the sender and completes its descriptor in order. -/
  | winWriteDone
  /-- RED (R304). A window reduce packet is checked and applied by the owning tower cache. -/
  | winReduce
  /-- UNREACH (R296). An UNREACH returns to the source, which completes the command with 0x0401 and may fence. -/
  | unreach
  /-- REG_WR (R307). A remote register write is applied through the view selected by RVIEW. -/
  | regWr
  /-- REG_RD (R307). A remote register read is answered through the selected view. -/
  | regRd
  /-- REG_DATA (R307). Register read data returns to the requester. -/
  | regData
  /-- COLL_READY (R324). A collective READY from a peer is compared with the receiver's own values, allowing data to that peer. -/
  | collReady
  /-- COLL_COUNTS (R330). A COUNTS message gives a holder or receiver the row or byte counts to keep or stage. -/
  | collCounts
  /-- COLL_DONE (R333). A DONE message is recorded, and after DONE from every peer the permute copies staged segments out. -/
  | collDone
  /-- COLL_DATA (R327). A collective data flit is written or reduced into the receiver's buffer for its step. -/
  | collData
  /-- BEACON (R383). A ramp-credit beacon reaches the coordinator and is collected for the epoch. -/
  | beacon
  /-- GRANT (R384). A ramp-credit grant arrives and is applied to its epoch, or ignored if late. -/
  | grant
  /-- SYNC_REQ (R299). A parent receives SYNC_REQ and replies with SYNC_RSP carrying its ticks. -/
  | syncReq
  /-- SYNC_RSP (R299). A child receives SYNC_RSP, computes the offset and slews or steps its tick. -/
  | syncRsp
  /-- HELLO (R300). A HELLO on an UP link gives the neighbour's ID and stratum. -/
  | hello
  /-- JOIN (R300). A JOIN broadcast adds a member, or on an ID collision is answered and the joiner refused. -/
  | join
  /-- LEAVE (R300). A LEAVE broadcast removes the member at once. -/
  | leave
  /-- ALIVE (R300). An ALIVE broadcast refreshes a member's liveness. -/
  | alive
  /-- FENCE (R298). A FENCE broadcast raises a fault fence for its job on a device holding that job, or is ignored. -/
  | fence
  /-- MEMBER_MAP (R300). A joining device receives the member bitmap from its first UP neighbour. -/
  | memberMap
  /-- SYNC_PERIOD (R299). Every 1 ms a child sends SYNC_REQ to its parent. -/
  | syncPeriod
  /-- ALIVE_PERIOD (R300). Every 100 ms a member broadcasts ALIVE. -/
  | alivePeriod
  /-- JOIN_SETTLE (R300). A joiner with no collision for 10 ms becomes MEMBER. -/
  | joinSettle
  /-- SPARE_RELEASE (R285). Hot spares are released after members stay at or below 960 for 10 s. -/
  | spareRelease
  /-- LOG_SEQUENCE_ASSIGN (R353). After its 2 µs hold a log report is ordered and assigned a sequence number and slot. -/
  | logSequenceAssign
  /-- CE_SUMMARY_PERIOD (R357). Every CE_PERIOD each tower with corrections writes a CE_SUMMARY entry. -/
  | ceSummaryPeriod
  /-- TARGET_APPLY (R378). A pending power target is applied at its tick, entering target mode or returning to follow mode. -/
  | targetApply
  /-- BEACON_SEND (R382). At offset 1,000,000 of an epoch each member broadcasts its beacon for the next epoch. -/
  | beaconSend
  /-- GRANT_ISSUE (R383). At the beacon deadline the coordinator computes and sends the grants. -/
  | grantIssue
  /-- EPOCH_START (R384). At an epoch start each device applies its grant or counts a missed epoch. -/
  | epochStart
  /-- REF_LOSS (R396). No reference edge for 100 ns puts every loop into holdover. -/
  | refLoss
  /-- HOLDOVER_TIMEOUT (R396). Holdover lasting over 10 µs logs REF_LOSS, asserts alert and fences every job. -/
  | holdoverTimeout
  /-- REF_RETURN (R396). The reference returns and every loop relocks. -/
  | refReturn
  /-- HOLDOVER_LIMIT (R396). Holdover lasting over 1 s holds every island but always-on in reset until cold reset. -/
  | holdoverLimit
  /-- MODEL_READY (R411). After 10 s the model offsets are set and MODEL_READY is raised. -/
  | modelReady
  /-- POWER_ON (R424). VIN reaching its operating range starts a cold reset and bring-up. -/
  | powerOn
  /-- POWER_REMOVED (R469). VIN below 10 V for 100 ms counts as power removed and resets the power-on domain. -/
  | powerRemoved
  /-- RESET_N_RELEASE (R424). Release of an asserted RESET_N starts a cold reset. -/
  | resetNRelease
  /-- WATCHDOG_SERVICE (R442). The Owl services the always-on watchdog. -/
  | watchdogService
  /-- WATCHDOG_EXPIRE (R442). No watchdog service for 1 s with WDOG_EN performs a cold reset. -/
  | watchdogExpire
  /-- EXTEST (R468). The EXTEST boundary-scan instruction drives contacts while RESET_N is low. -/
  | extest
  /-- EXTEST_PULSE (R468). The EXTEST_PULSE instruction tests AC-coupled lanes while RESET_N is low. -/
  | extestPulse
  /-- EXTEST_TRAIN (R468). The EXTEST_TRAIN instruction tests AC-coupled lanes while RESET_N is low. -/
  | extestTrain
  /-- INTEST (R468). The INTEST instruction tests internally while RESET_N is low. -/
  | intest
  /-- CLAMP (R468). The CLAMP instruction holds contacts while RESET_N is low. -/
  | clamp
  /-- SAMPLE_PRELOAD (R468). The SAMPLE/PRELOAD instruction samples contacts while RESET_N is low. -/
  | samplePreload
  /-- BYPASS (R468). The BYPASS instruction, or any instruction not decoded, selects the bypass register. -/
  | bypass
  /-- IDCODE (R468). The IDCODE instruction returns the device identification code. -/
  | idcode
  /-- MGMT_CLOCK_CHANGE (R397). 50 µs after a CLK_MGMT write, the management core and register bus clocks switch through their pairs to the new values. -/
  | mgmtClockChange
  /-- RESET_N_ASSERT (R467). The board drives RESET_N low for at least 1 µs, the device stops and its SPI contacts go high-impedance with boundary-scan instructions enabled until release. -/
  | resetNAssert
  /-- STANDBY_RAIL_UP (R466). VIN rising past 10 V brings up the standby rail, so the I3C target answers and the management inputs and power-on registers are served before bring-up. -/
  | standbyRailUp
  deriving DecidableEq, Repr

end Sys2Proof
end

