-- ==== Sys2Proof/Machine/WordCode.lean ====
section
/-! DEFINITION. The word code of R64–R70: eighteen 8-bit symbols over GF(2^8) with the issued address folded in. -/

namespace Sys2Proof.Machine

/-- x × α (R65). -/
def xtime (x : Nat) : Nat := (x * 2) % 256 ^^^ (if 128 ≤ x then 0x1D else 0)

/-- x × α^n. -/
def xtimes : Nat → Nat → Nat
  | 0, x => x
  | n + 1, x => xtimes n (xtime x)

/-- Product in GF(2^8) with the polynomial 0x11D (R64). -/
def gmul (a b : Nat) : Nat :=
  (List.range 8).foldl (fun acc i => if tbit b i then acc ^^^ xtimes i a else acc) 0

/-- Inverse in GF(2^8): a^254. -/
def ginv (a : Nat) : Nat :=
  let a2 := gmul a a
  let a4 := gmul a2 a2
  let a8 := gmul a4 a4
  let a16 := gmul a8 a8
  let a32 := gmul a16 a16
  let a64 := gmul a32 a32
  let a128 := gmul a64 a64
  gmul a128 (gmul a64 (gmul a32 (gmul a16 (gmul a8 (gmul a4 a2)))))

/-- Quotient in GF(2^8). -/
def gdiv (a b : Nat) : Nat := gmul a (ginv b)

/-- The locator of a position: α^j (R64). -/
def locator (j : Nat) : Nat := xtimes j 1

/-- The virtual symbol v0 of an issued address: the fold of bits [47:4] (R65). -/
def foldAddr (a : Nat) : Nat :=
  (List.range 44).foldl (fun f i => xtime f ^^^ b2n (tbit a (47 - i))) 0

/-- The check symbols (c0, c1) of sixteen data symbols at an issued address (R65). -/
def encodeWord (a : Nat) (d : List Byte) : Nat × Nat :=
  let v0 := foldAddr a
  let v1 := xtime v0
  let init : Nat × Nat := (v0 ^^^ v1, gmul v0 0x2D ^^^ gmul v1 0x5A)
  let ds := (List.range 16).foldl
    (fun (p : Nat × Nat) j =>
      let x := (lget 0 d j).toNat
      (p.1 ^^^ x, p.2 ^^^ gmul x (locator j))) init
  let c1 := gdiv (ds.2 ^^^ gmul ds.1 0x4C) 0xD4
  (ds.1 ^^^ c1, c1)

/-- The outcome of R66. -/
inductive WordOutcome where
  | clean
  | poisoned
  | uncorrectable
  | mismatch
  | corrected (pos err : Nat)
  deriving DecidableEq, Repr

/-- The two syndromes of a stored word read at an issued address (R66). -/
def syndromes (a : Nat) (d : List Byte) (c0 c1 : Nat) : Nat × Nat :=
  let v0 := foldAddr a
  let v1 := xtime v0
  (List.range 16).foldl
    (fun (p : Nat × Nat) j =>
      let x := (lget 0 d j).toNat
      (p.1 ^^^ x, p.2 ^^^ gmul x (locator j)))
    (c0 ^^^ c1 ^^^ v0 ^^^ v1, gmul c0 0x4C ^^^ gmul c1 0x98 ^^^ gmul v0 0x2D ^^^ gmul v1 0x5A)

/-- The outcome of a pair of syndromes (the table of R66). -/
def classify (s0 s1 : Nat) : WordOutcome :=
  if s0 = 0 then (if s1 = 0 then .clean else if s1 = 0xC3 then .poisoned else .uncorrectable)
  else if s1 = 0 then .uncorrectable
  else
    let l := gdiv s1 s0
    match (List.range 18).find? (fun j => locator j == l) with
    | some j => .corrected j s0
    | none => if l = 0x77 then .mismatch else .uncorrectable

/-- Decode a stored word (R66). -/
def decodeWord (a : Nat) (d : List Byte) (c0 c1 : Nat) : WordOutcome :=
  let s := syndromes a d c0 c1
  classify s.1 s.2

/-- Status of an outcome; 0 for a word whose data is usable (R66). -/
def WordOutcome.status : WordOutcome → Nat
  | .clean => 0
  | .corrected _ _ => 0
  | .poisoned => 0x0305
  | .uncorrectable => 0x0303
  | .mismatch => 0x0304

/-- The data after correction. -/
def WordOutcome.fix (o : WordOutcome) (d : List Byte) : List Byte :=
  match o with
  | .corrected j e => if j < 16 then lset d j (lget 0 d j ^^^ BitVec.ofNat 8 e) else d
  | _ => d

/-- CRC-8 with polynomial 0x07 over bytes, most significant bit first (R58). -/
def crc8 (d : List Byte) : Nat :=
  d.foldl (fun c b => (List.range 8).foldl
    (fun c _ => (c * 2) % 256 ^^^ (if 128 ≤ c then 0x07 else 0)) (c ^^^ b.toNat)) 0

/-- CRC-32C (reflected polynomial 0x82F63B78, initial and final 0xFFFF_FFFF) over bytes (R53, R141, R454). -/
def crc32c (d : List Byte) : Nat :=
  (d.foldl (fun c b => (List.range 8).foldl
    (fun c _ => if c % 2 = 1 then (c / 2) ^^^ 0x82F63B78 else c / 2) (c ^^^ b.toNat)) 0xFFFFFFFF) ^^^ 0xFFFFFFFF

/-- The deviation of the poison pattern from correct check symbols: 0xFF in both (R70). -/
def poisonDev : BitVec 16 := 0xFFFF

end Sys2Proof.Machine
end

