-- ==== Sys2Proof/Machine/FlitCode.lean ====
section
/-! DEFINITION. Flits on the wire: codewords, their folds, and the striping of symbols over lanes (R283, R286, R287, R289). -/

namespace Sys2Proof.Machine

/-- Codewords of a flit (R283). -/
def flitWords (full : Bool) : Nat := if full then 20 else 4

/-- Whether a TYPE is a window packet, whose payload codewords fold its window and offset (R288, R289). -/
def isWindow (typ : Nat) : Bool := decide (1 ≤ typ ∧ typ ≤ 0x0D)

/-- The fold address of codeword w of a packet (R289). -/
def flitFold (x : Pkt) (w : Nat) : Nat :=
  if 4 ≤ w && isWindow x.typ then x.win * 2 ^ 34 + (x.off + 16 * (w - 4)) % 2 ^ 34 else 0

/-- The data of each codeword of a flit: link control, header, then the mask and the payload, or 32 bytes of payload
(R286, R287). -/
def flitData (ctl : Nat) (x : Pkt) : List (List Byte) :=
  let x := x.sized
  let cut := fun (d : List Byte) n => (List.range n).map (fun i => (d.drop (16 * i)).take 16)
  leBytes 16 ctl :: leBytes 16 x.hdr ::
    (if x.full then leBytes 16 (x.mask % 2 ^ 128) :: leBytes 16 (x.mask / 2 ^ 128) :: cut x.data 16 else cut x.data 2)

/-- The symbols of a flit, in stream order: sixteen data symbols and c0, c1 of each codeword (R64, R283). -/
def flitSymbols (ctl : Nat) (x : Pkt) : List Byte :=
  let ds := flitData ctl x
  (List.range ds.length).flatMap (fun w =>
    let d := lget [] ds w
    let c := encodeWord (flitFold x w) d
    d ++ [BitVec.ofNat 8 c.1, BitVec.ofNat 8 c.2])

/-- Symbol times of a flit on n lanes. -/
def laneTimes (full : Bool) (n : Nat) : Nat := (18 * flitWords full + n - 1) / n

/-- Stripe a stream over n lanes: symbol i to lane i mod n at time i div n, the last time padded with idle symbols (R283). -/
def stripe (n : Nat) (syms : List Byte) : List (List (Option Byte)) :=
  (List.range n).map (fun k => (List.range ((syms.length + n - 1) / n)).map (fun t => lget none (syms.map some) (t * n + k)))

/-- The symbols of codeword w as they came over the lanes. -/
def wordSyms (lanes : List (List (Option Byte))) (w : Nat) : List (Option Byte) :=
  (List.range 18).map (fun j => let i := 18 * w + j; lget none (lget [] lanes (i % lanes.length)) (i / lanes.length))

/-- Decode codeword w with a fold address: its outcome and its data. An idle symbol in it does not decode. -/
def rxWord (lanes : List (List (Option Byte))) (fold w : Nat) : WordOutcome × List Byte :=
  let ys := wordSyms lanes w
  if ys.any Option.isNone then (.uncorrectable, List.replicate 16 0)
  else
    let d := (ys.take 16).map (fun y => y.getD 0)
    let c := fun j => ((lget none ys j).getD 0).toNat
    let o := decodeWord fold d (c 16) (c 17)
    (o, o.fix d)

/-- Decode a flit received on n active lanes (R283, R289): not accepted when its lanes do not carry a whole flit, when a
codeword does not decode, or when FULL does not fit its size. -/
def decodeFlit (n : Nat) (f : Wire) : Flit :=
  let times := (lget [] f.lanes 0).length
  let full := times != laneTimes false n
  if f.lanes.length != n || n = 0 || f.lanes.any (fun l => l.length != times) || (full && times != laneTimes true n) then
    ⟨0, ⟨0, 0, []⟩, [], [], true⟩
  else
    let c := rxWord f.lanes 0 0
    let h := rxWord f.lanes 0 1
    let x : Pkt := ⟨leNat h.2, 0, []⟩
    let ws := (List.range (flitWords full)).map (fun w => if w = 0 then c else if w = 1 then h
      else rxWord f.lanes (flitFold x w) w)
    let data := fun w => (lget (WordOutcome.clean, []) ws w).2
    let body := fun a m => (List.range m).flatMap (fun i => data (a + i))
    let at_ := fun w (o : WordOutcome) => match o with | .corrected j _ => some ((18 * w + j) % n) | _ => none
    let corr := (List.range ws.length).filterMap (fun w => at_ w (lget (WordOutcome.clean, []) ws w).1)
    let idle := fun w => (((List.range 18).filter (fun j => (lget none (wordSyms f.lanes w) j).isNone)).map (fun j =>
      (18 * w + j) % n)).eraseDups
    let unc : List (Option Nat) := (List.range ws.length).filterMap (fun w =>
      if (lget (WordOutcome.clean, []) ws w).1.status = 0 then none
      else match idle w with | [] => some none | [l] => some (some l) | _ => none)
    let ctl := leNat c.2
    ⟨ctl, if full then ⟨leNat h.2, leNat (body 2 2), body 4 16⟩ else ⟨leNat h.2, 0, body 2 2⟩, corr, unc,
      ws.any (fun y => y.1.status != 0) || tbit ctl 25 != full⟩

end Sys2Proof.Machine
end

