-- ==== Sys2Proof/Machine/PartsCore.lean ====
section
/-! DEFINITION. State of a cluster: the matrix array, the scalar control core, the vector cores, the read-only cache and the
DMA engine. -/

namespace Sys2Proof.Machine

/-- An accumulator slot V × 2^F with its sticky flags (R90). -/
structure Slot where
  v   : Int
  f   : Int
  sat : Bool
  inx : Bool
  nan : Bool
  deriving DecidableEq, Repr

def Slot.zero : Slot := ⟨0, 0, false, false, false⟩

/-- A weight column ready for the array: element values and segment exponents (none for a NaN scale), with the bias. -/
structure MxCol where
  w    : List Int
  ew   : List (Option Int)
  bias : Nat
  deriving DecidableEq, Repr

/-- A matrix multiply in the array (R94–R96). -/
structure MxRun where
  /-- The four words of the instruction (R98). -/
  w0     : Nat
  w1     : Nat
  w2     : Nat
  w3     : Nat
  /-- The stream has started (R94); before, the tile loads into the shadow registers. -/
  live   : Bool
  /-- Cell values per active row, row exponents and invalid marks (R88, R89). -/
  tile   : List (List Int)
  em     : List Int
  bad    : List Bool
  /-- Weight columns read so far (at most 32 ahead, R103) and those not yet used by every row. -/
  rd     : Nat
  cols   : Tbl MxCol
  /-- Next column of each active row. -/
  next   : List Nat
  /-- Values captured for output records, by 128 × column + row; the next record. -/
  outs   : Tbl Slot
  outCol : Nat
  /-- The instruction stopped: its first failing column, and whether the slots it reached are undefined (R104). -/
  stop   : Option Nat
  undef  : Bool
  deriving DecidableEq, Repr

/-- The matrix array of a cluster. -/
structure Mx where
  queue : List (List Nat)
  pipe  : List MxRun
  /-- Tokens of MSYNCs whose earlier instructions are not yet complete. -/
  sync  : Option Nat
  slots : Tbl Slot
  /-- Active registers: the tile last swapped in (R94). -/
  active : List (List Int)
  deriving DecidableEq, Repr

def Mx.init : Mx := ⟨[], [], none, [], []⟩

/-- A vector core (R119). -/
structure Vx where
  queue : List Word
  v     : List Nat
  m     : List Nat
  a     : List Nat
  sync  : Option Nat
  deriving DecidableEq, Repr

def Vx.init : Vx := ⟨[], List.replicate 32 0, List.replicate 8 0, List.replicate 8 0, none⟩

/-- An asynchronous trap cause (R115). -/
structure Async where
  code   : Nat
  status : Nat
  tval   : Nat
  deriving DecidableEq, Repr

/-- A line of the read-only cache (R131): its data and, per word, the status its fill met: a group with a failing word is not
allocated (R117). -/
structure RocLine where
  code  : Bool
  line  : Nat
  stamp : Nat
  data  : List Byte
  dev   : List (BitVec 16)
  deriving DecidableEq, Repr

/-- A descriptor that has started (R137). `phase`: 0 source data on its way from outside the device, 1 source read, 2
destination writes outside the device under way, 3 destination written. -/
structure DmaRun where
  /-- Count value of its entry. -/
  idx    : Nat
  words  : List Nat
  phase  : Nat
  /-- Source bytes, row after row, as read at the start. -/
  data   : List Byte
  /-- First failing status, 0 for none yet. -/
  status : Nat
  /-- Bytes before the failing word of a source read. -/
  good   : Nat
  /-- Answers from outside the device, by row. -/
  ans    : Tbl (Nat × List Byte)
  deriving DecidableEq, Repr

/-- A DMA channel: descriptors started and not yet completed, in ring order. -/
structure DmaCh where
  runs : List DmaRun
  /-- Next ring index to start. -/
  next : Nat
  deriving DecidableEq, Repr

def DmaCh.init : DmaCh := ⟨[], 0⟩

/-- An LDG or STG in flight. `answer` is the status and data of a path outside the device (log entry 10). -/
structure CorePend where
  addr   : Nat
  reg    : Nat
  data   : Word
  answer : Option (Nat × List Byte)
  deriving DecidableEq, Repr

/-- A cluster's cores and engines. -/
structure Clu where
  pc      : Word
  g       : List Word
  epc     : Word
  tval    : Word
  tvec    : Word
  scratch : Word
  cause   : Nat
  /-- CYCLE at the tick `start` (R110): the launch's start, or the last change of the clusters' frequency. -/
  cyc     : Nat
  start   : Nat
  lcount  : Nat
  rank    : Nat
  launch  : Option Nat
  held    : List Async
  twait   : Option (Nat × Nat)
  load    : Option CorePend
  store   : Option CorePend
  /-- A QPUSH stalled on a full queue: since when, and its instruction word (R112). -/
  stall   : Option Nat
  stallW  : Nat
  tokens  : List Nat
  fixed   : Bool
  mx      : Mx
  vx      : List Vx
  roc     : List RocLine
  rocTick : Nat
  /-- Bit errors that stay in the cached copies, by 2 × word + 1 for code (R133). -/
  rocErr  : Tbl (BitVec 144)
  /-- The 64-byte group the core fetched last (R117; log entry 136). -/
  group   : Option Nat
  dma     : List DmaCh
  deriving DecidableEq, Repr

/-- A cluster after compute reset. -/
def Clu.init : Clu :=
  { pc := 0, g := List.replicate 32 0, epc := 0, tval := 0, tvec := 0, scratch := 0, cause := 0, cyc := 0, start := 0, lcount := 0,
    rank := 0, launch := none, held := [], twait := none, load := none, store := none, stall := none, stallW := 0,
    tokens := List.replicate 32 0, fixed := false, mx := Mx.init, vx := List.replicate 4 Vx.init, roc := [], rocTick := 0, rocErr := [], group := none,
    dma := List.replicate 16 DmaCh.init }

end Sys2Proof.Machine
end

