-- ==== Sys2Proof/Machine/PartsCmd.lean ====
section
/-! DEFINITION. State of the command interface: commands in flight, launches, graphs and the copy channels. -/

namespace Sys2Proof.Machine

/-- A command in flight (R262): fetched and not yet replied. `id` grows in fetch order. -/
structure Cmd where
  id     : Nat
  q      : Nat
  tag    : Nat
  opc    : Nat
  flags  : Nat
  par    : List Byte
  /-- Its effect has begun (R267). -/
  begun  : Bool
  /-- Its outcome, once finished. -/
  status : Option Nat
  detail : Nat
  deriving DecidableEq, Repr

/-- What a queue remembers beside its registers: the last fence applied since it was enabled (R266), and the last fence
number a reply carried (R269). -/
structure QSt where
  fence : Nat
  told  : Nat
  deriving DecidableEq, Repr

/-- A kernel on its clusters: a LAUNCH or a graph node (R270, R277). `node` is 0 for a LAUNCH. -/
structure Launch where
  id      : Nat
  cmd     : Nat
  node    : Nat
  graph   : Bool
  code    : Nat
  args    : Nat
  lfirst  : Nat
  lcount  : Nat
  started : Bool
  /-- Outcome of a launch that is over: 0, or the failing status. -/
  ended    : Option Nat
  /-- ENTRY, HANDLER and ARG_LEN of its header. -/
  entry   : Nat
  handler : Nat
  argLen  : Nat
  deriving DecidableEq, Repr

/-- A graph node (R278). `state`: 0 waiting, 1 claimed or running, 2 completed with exit code 0, 3 failed, 4 skipped. -/
structure GNode where
  code   : Nat
  args   : Nat
  lfirst : Nat
  lcount : Nat
  preds  : List Nat
  state  : Nat
  status : Nat
  rank   : Nat
  exit   : Nat
  entry   : Nat
  handler : Nat
  argLen  : Nat
  deriving DecidableEq, Repr

/-- A GRAPH_LAUNCH in progress. -/
structure Graph where
  cmd   : Nat
  nodes : List GNode
  deriving DecidableEq, Repr

/-- A copy channel of the collective engine at work for a command (R280). -/
structure Chan where
  cmd  : Nat
  idx  : Nat
  run  : Option DmaRun
  deriving DecidableEq, Repr

end Sys2Proof.Machine
end

