-- ==== Sys2Proof/Machine/PartsHost.lean ====
section
/-! DEFINITION. State of the host ports (R309–R322), the collective engine's groups and collectives (R323–R333), and packets
of the fabric that a full step leaves behind. -/

namespace Sys2Proof.Machine

/-- A non-posted request for an upstream port that is not yet completed (R320). -/
structure HostReq where
  tag   : Nat
  port  : Nat
  win   : Nat
  who   : Waiter
  len   : Nat
  write : Bool
  /-- Its completion, once it is here. -/
  ans   : Option (Nat × List Byte)
  /-- Its host address and data while the link has no room for it (R311). -/
  held  : Option (Nat × List Byte)
  deriving DecidableEq, Repr

/-- A line of a shared region that a host cache holds (R315). `clean`: the host's copy is known not to be dirty (R316). -/
structure Tracked where
  line  : Nat
  port  : Nat
  clean : Bool
  deriving DecidableEq, Repr

/-- A back-invalidate sent and not yet answered: its line, port, and whether it takes the host's copy away (BISnpInv). -/
structure Snoop where
  line : Nat
  port : Nat
  inv  : Bool
  deriving DecidableEq, Repr

/-- What the step in progress must wait for first: a host's answer for a line it holds (R316), or the near-bank unit or row
refresh of a bank that an access of `len` bytes at `addr` reaches: the end of the running operation when the access reads its
OUT range, else the step boundary (R155, R165), or the clock of an island that the access passes (R393, R395). -/
inductive Need where
  | snoop (x : Snoop)
  | bank (b addr len : Nat) (out : Bool)
  | clock
  deriving DecidableEq, Repr

/-- An expander placed in the spill tier (R321): its link, first offset and size; interleaved, `stripe` (i, m) gives it the
4 KiB blocks of that range numbered i mod m. -/
structure Expander where
  link : Nat
  base : Nat
  size : Nat
  stripe : Option (Nat × Nat)
  deriving DecidableEq, Repr

/-- The host ports. -/
structure HostSt where
  reqs     : List HostReq
  nextTag  : Nat
  /-- Host filters of all controllers together, oldest entry first (R315). -/
  filter   : List Tracked
  snoops   : List Snoop
  /-- Lines whose BIRsp did not arrive in time (R316). -/
  timed    : List Nat
  /-- What the step in progress needs first; empty between steps. -/
  hit      : List Need
  /-- Regions shared in force since the last compute reset (R315). -/
  share    : List Nat
  expanders : List Expander
  /-- Expanders lost, by place in the list (R322). -/
  lost     : List Nat
  /-- HWIN_UNMAP commands waiting for the requests of their windows: (window, command). -/
  unmaps   : List (Nat × Nat)
  /-- HP_ROLE as it was at the last cold reset: the roles in force (R310). -/
  roles    : Nat
  deriving DecidableEq, Repr

def HostSt.init : HostSt := ⟨[], 0, [], [], [], [], [], [], [], [], 0x11⟩

/-- A collective group (R323). -/
structure Group where
  job     : Nat
  members : List Nat
  /-- COLLSEQ of its next collective. -/
  seq     : Nat
  deriving DecidableEq, Repr

/-- A READY received (R324), by group. -/
structure Ready where
  group : Nat
  src   : Nat
  seq   : Nat
  opc   : Nat
  len   : Nat
  crc   : Nat
  deriving DecidableEq, Repr

/-- A collective in progress (R324–R333). -/
structure Coll where
  cmd    : Nat
  group  : Nat
  opc    : Nat
  red    : Nat
  hint   : Nat
  src    : Nat
  dst    : Nat
  len    : Nat
  plan   : Nat
  seq    : Nat
  /-- Ring order, as ranks (R327). -/
  order  : List Nat
  /-- READY sent; before, the collective waits for its group's earlier ones (R324). -/
  begun  : Bool
  /-- Its part within this device is done: the local copy, or a permute's staging of its own moves. -/
  base   : Bool
  /-- Ranks whose READY agreed. -/
  ready  : List Nat
  /-- Transfers sent, as 65,536 × step + rank. -/
  sent   : List Nat
  /-- Bytes received and not yet applied, by 65,536 × step + rank. -/
  rx     : Tbl (List Byte)
  /-- Transfers applied. -/
  applied : List Nat
  /-- Values of COUNTS messages, by (rank, kind, index). -/
  counts : List (Nat × Nat × Nat × List Nat)
  /-- Ranks whose DONE came, and whether this member sent its own (R333). -/
  dones  : List Nat
  doneOut : Bool
  /-- Row records by rank: (t, k, slot) in order (R331, R332). -/
  recs   : Tbl (List (Nat × Nat × Nat))
  /-- Rows received for an EXPERT_COMBINE: (t, k, row bytes) (R332). -/
  rows   : List (Nat × Nat × List Byte)
  /-- A byte of DST was written (R328). -/
  wrote  : Bool
  /-- What it writes at the end: (address, length) of its DST, and of META (R326, R331). -/
  span   : List (Nat × Nat)
  /-- Its SRC and its DST share a byte (R326). -/
  laps   : Bool
  deriving DecidableEq, Repr

end Sys2Proof.Machine
end

