-- ==== Sys2Proof/Machine/PartsKv.lean ====
section
/-! DEFINITION. State of the KV page manager (R173–R216), of attention passes (R217–R237) and of the merge units. -/

namespace Sys2Proof.Machine

/-- A profile (R185): layers, KV heads and one 64-bit record per layer. -/
structure Profile where
  layers : Nat
  heads  : Nat
  recs   : List Nat
  deriving DecidableEq, Repr

/-- A sequence (R186). `ptes` are its page-table entries (R183) by (layer × 64 + head) × 131,072 + page, `sums` its
coarse-index summaries (R223): 256 BF16 values, max then min. -/
structure Seq where
  state   : Nat
  profile : Nat
  prio    : Nat
  lens    : List Nat
  ptes    : Tbl Nat
  sums    : Tbl (List Nat)
  /-- Tick of its last append (R213). -/
  last    : Nat
  deriving DecidableEq, Repr

/-- A page record (R184). -/
structure PageRec where
  loc    : Nat
  cls    : Nat
  sealed : Bool
  fill   : Nat
  addr   : Nat
  refcnt : Nat
  sealG  : Nat
  score  : Nat
  instep : Nat
  lastG  : Nat
  deriving DecidableEq, Repr

/-- A retired item (R196). `kind`: 0 frame, 1 spill slot, 2 swap slot, 3 page record. -/
structure Retired where
  kind : Nat
  addr : Nat
  ret  : Nat
  deriving DecidableEq, Repr

/-- A page move started under LATE = 1, which goes on after its pass (R209, R222). -/
structure KvMove where
  pid   : Nat
  seq   : Nat
  layer : Nat
  head  : Nat
  page  : Nat
  job   : Nat
  deriving DecidableEq, Repr

/-- An allocation that waits for a frame (R210): the entry of the command that needs it, the class and the page, whether the wait
is over and with which status (0: that of R210), and the sequences pre-empted for it (R213). -/
structure KvWait where
  entry   : Nat
  cls     : Nat
  page    : Nat
  ended   : Option Nat
  preempt : Nat
  deriving DecidableEq, Repr

/-- Pages of a sequence on their way back after a swap that failed (R211, R212): the sequence, the status the swap ends with, the
job, and whether they return to the swap area. -/
structure KvBack where
  seq    : Nat
  status : Nat
  job    : Nat
  out    : Bool
  deriving DecidableEq, Repr

/-- Progress of a KV command that stays in flight, or of work of the manager's own: its next list entry, its failures and pages
moved, and its allocations that wait for a frame. -/
structure KvRun where
  /-- The command; 2^32 + PID for a page move of its own, 2^33 + sequence for a return of its own (log entry 142). -/
  cmd     : Nat
  next    : Nat
  failed  : Nat
  moved   : Nat
  waits   : List KvWait
  /-- Sequences it names, and those of its operations not yet carried out, in order of arrival of the commands (R173). -/
  names   : List Nat
  left    : List Nat
  /-- Page records a swap has moved so far. -/
  pages   : List Nat
  /-- The page record it is moving in (LOC 3). -/
  mine    : Option Nat
  move    : Option KvMove
  back    : Option KvBack
  deriving DecidableEq, Repr

/-- The KV page manager. -/
structure Kv where
  /-- Pool banks in force, in list order: first issued address of the bank and its class (R178–R180). -/
  pool     : List (Nat × Nat)
  /-- Banks of the list that a rebuild has left out (R180). -/
  lost     : List Nat
  profiles : Tbl Profile
  seqs     : Tbl Seq
  recs     : Tbl PageRec
  /-- Frames and slots in use or retired, by address. -/
  frames   : List Nat
  slots    : List Nat
  swaps    : List Nat
  /-- Swap images in host memory, by slot address (log entry 20). -/
  images   : Tbl (List Byte)
  retired  : List Retired
  epoch    : Nat
  g        : Nat
  /-- Reader slots taken: who holds each and its pin (R195). -/
  readers  : List (Nat × Nat)
  /-- Readers that wait for a slot, oldest first. -/
  waiting  : List Nat
  /-- Commands and moves under way, in the order in which they reached the manager. -/
  runs     : List KvRun
  /-- The status of the fault a command's work raised (R271). -/
  faults   : Tbl Nat
  /-- Jobs whose work has written a pool bank or the metadata region: their keys and values are undefined (R17, R182). -/
  undef    : List Nat
  /-- Where the items of the metadata region lie, by kind × 2^64 + index (R183, R184, R224; log entry 131). -/
  places   : Tbl Nat
  /-- Words of the region not yet written, while a unit or a refresh holds their banks: address and 16 bytes (R155). -/
  owed     : List (Nat × List Byte)
  deriving DecidableEq, Repr

def Kv.init : Kv := ⟨[], [], [], [], [], [], [], [], [], [], 0, 0, [], [], [], [], [], [], []⟩

/-- One head's partial: maximum, sum and the 128 weighted values, FP32 patterns (R227). -/
structure Partial where
  m : Nat
  l : Nat
  o : List Nat
  deriving DecidableEq, Repr

/-- A record at a merge input (R228): its tag and its latch units. -/
structure MrgRec where
  tag   : Nat
  units : List Nat
  deriving DecidableEq, Repr

/-- A context of a merge (R230): its tag, the command and entry it serves, the records it expects and has accepted, the
folded partial of each head, and the bounds kept for a selection. -/
structure MrgCtx where
  tag    : Nat
  cmd    : Nat
  entry  : Nat
  expect : Nat
  got    : Nat
  acc    : List (Option Partial)
  sel    : List (Nat × Nat)
  deriving DecidableEq, Repr

/-- A merge unit (R229): records waiting at its 64 inputs, the input last accepted, its open contexts, and its results at its
input of the floor merge, which has 8 credits (R233). -/
structure Mrg where
  inputs : Tbl (List MrgRec)
  last   : Nat
  ctxs   : List MrgCtx
  out    : List MrgCtx
  deriving DecidableEq, Repr

def Mrg.init : Mrg := ⟨[], 63, [], []⟩

/-- A context of the floor merge (R233): the towers that expect records and what they delivered. -/
structure FloorCtx where
  tag   : Nat
  cmd   : Nat
  entry : Nat
  need  : List Nat
  got   : Tbl MrgCtx
  deriving DecidableEq, Repr

/-- A page an entry attends or may attend, as it was resolved (R195, R219). `pick` says the page is in its head's attended
set, `late` that it was not in stack DRAM when chosen, `skip` that it is left out of this step (R222). -/
structure AttPage where
  head   : Nat
  page   : Nat
  pid    : Nat
  fill   : Nat
  cls    : Nat
  addr   : Nat
  sealed : Bool
  cand   : Bool
  pick   : Bool
  late   : Bool
  skip   : Bool
  deriving DecidableEq, Repr

/-- A run not yet dispatched: an index run (`kind` 1, a KV head and a block) or a page run (`kind` 0, a pair and a page of
a KV head), at a bank of a tower. -/
structure AttWork where
  kind  : Nat
  pair  : Nat
  head  : Nat
  page  : Nat
  tower : Nat
  deriving DecidableEq, Repr

/-- A run dispatched to the unit of a bank, for an entry of a command (R226), the columns of the bank it has still to read, in
order, and what it has read of each (R164, R225, R227). -/
structure PageRun where
  bank  : Nat
  cmd   : Nat
  entry : Nat
  work  : AttWork
  cols  : List Nat
  got   : Tbl (List Byte)
  deriving DecidableEq, Repr

/-- An entry of a KV_ATTEND (R219). `stage`: 0 waiting for a reader slot, 1 running, 2 finished. -/
structure AttEntry where
  idx    : Nat
  seq    : Nat
  qaddr  : Nat
  oaddr  : Nat
  stage  : Nat
  status : Nat
  layer  : Nat
  q      : List (List Nat)
  sel    : List (List Nat)
  pages  : List AttPage
  /-- KV heads whose selection is still open. -/
  open_  : List Nat
  /-- Its page runs are listed: every selection is made and its late pages are settled (R222). -/
  planned : Bool
  /-- Runs not yet dispatched. -/
  work   : List AttWork
  /-- Forwarded (PID, page, query head, m, l) of accepted partials (R231). -/
  mass   : List (List Nat)
  /-- Final partials by query head. -/
  outs   : Tbl Partial
  deriving DecidableEq, Repr

/-- A KV_ATTEND in progress. -/
structure Attend where
  cmd     : Nat
  group   : Nat
  topp    : Nat
  flg     : Nat
  scale   : Nat
  raddr   : Nat
  entries : List AttEntry
  deriving DecidableEq, Repr

end Sys2Proof.Machine
end

