-- ==== Sys2Proof/Machine/PartsLog.lean ====
section
/-! DEFINITION. State of the event and fault log and of the staged recovery, and what leaves the device. -/

namespace Sys2Proof.Machine

/-- A report on its way to a sequence number (R352, R353). `more` holds the continuation entries of the fault: event and DETAIL; an
event code with 256·(c + 1) added stands for the trap of cluster c that has not been taken yet (R116). -/
structure Report where
  tick    : Nat
  ev      : Nat
  cls     : Nat
  kind    : Nat
  idx     : Nat
  status  : Nat
  job     : Nat
  tenant  : Nat
  merged  : Bool
  restart : Bool
  fence   : Bool
  fno     : Nat
  detail  : Nat
  more    : List (Nat × Nat)
  /-- Join steps of the tick since it was made, and what they added to the tick together (R299, R353). -/
  steps   : Nat
  shift   : Int
  deriving DecidableEq, Repr

/-- The log ring (R351): reports without a sequence number, and the four words of each slot held. -/
structure LogSt where
  waiting : List Report
  slots   : Tbl (List Word)
  /-- Entries CORE_EPC and CORE_TVAL whose trap has not been taken yet: (cluster, status, cause, SEQ of CORE_EPC) (R116). -/
  traps   : List (Nat × Nat × Nat × Nat)
  deriving DecidableEq, Repr

/-- A resource of a fault set (R343). -/
inductive Res where
  | cluster (c : Nat)
  | pillar (c : Nat)
  | domain (d : Nat)
  | way (t w : Nat)
  | floor (u : Nat)
  | port (p : Nat)
  | hlink (p : Nat)
  deriving DecidableEq, Repr

/-- Actions of R340 in ascending strength: none, re-verify, repair, mapping out. -/
inductive Action where
  | none | reverify | repair | mapOut
  deriving DecidableEq, Repr

/-- A resource in the fault set, the action for it, whether the log stage has fixed it, the CAUSE of a mapping out, and the part
of a pillar that a repair is for: 1 + 32·die + p a bank, 1,024 + l the control lane l of the cluster, 0 none (R340). -/
structure FaultRes where
  res   : Res
  act   : Action
  fixed : Bool
  cause : Nat
  part  : Nat
  deriving DecidableEq, Repr

/-- The staged recovery (R338–R347). -/
structure Rcv where
  stage    : Nat
  jobs     : List Nat
  res      : List FaultRes
  restarts : Nat
  fence    : Nat
  faults   : Nat
  /-- Resources whose faults caused a restart or the entry to Held (R346). -/
  culprits : List Res
  /-- Resources of faults whose job is 0, taken at the next compute reset (R336). -/
  later    : List FaultRes
  /-- Clusters not to be taken as spares in the reset in progress (R336). -/
  noSpare  : List Nat
  /-- COMPUTE_RESET and HELD_RELEASE commands waiting for ready. -/
  waiters  : List Nat
  /-- FENCE broadcasts already received: (origin, number) (R337). -/
  seen     : List (Nat × Nat)
  /-- Actions of `later` faults that the compute reset in progress takes. -/
  taken    : List FaultRes
  /-- Clusters with a unit that did not stop within the drain bound (R339). -/
  undrained : List Nat
  /-- The compute reset was asked for by a command with no fault (R347). -/
  byCommand : Bool
  /-- FENCE_LAST when the device last reported ready (R272). -/
  acked    : Nat
  /-- Tests that re-verify runs (R342): kind as in VERIFY_FAIL with its cluster or domain; kind 5 a floor unit's self-test. -/
  tests    : List (Nat × Nat)
  deriving DecidableEq, Repr

def Rcv.init : Rcv := ⟨0, [], [], 0, 0, 0, [], [], [], [], [], [], [], false, 0, []⟩

/-- What the device sends to its surroundings, in order (the model's own record; log entry 11). -/
inductive Output where
  /-- Data of a register read or of a memory access, to requester `who` (R445, R25). -/
  | data (who status value : Nat) (bytes : List Byte)
  /-- A PCIe completion status for a request on a host port: 0 success, 1 unsupported request, 2 request retry,
  3 completer abort; the poisoned bit of R71. -/
  | completion (port status : Nat) (poisoned : Bool) (bytes : List Byte)
  /-- An MSI-X vector signalled on a host port (R269, R358). -/
  | msix (port vec : Nat)
  /-- A contact of the package and its level: 0, 1, or 2 for high impedance. -/
  | pin (name : String) (level : Nat)
  /-- A flit handed to a Synur port: the symbols of each active lane, `none` for an idle symbol (R283). -/
  | flit (port : Nat) (lanes : List (List (Option Byte)))
  /-- A request or write through a host port. -/
  | host (port addr : Nat) (write : Bool) (len : Nat) (bytes : List Byte)
  /-- A CXL.mem message on a host port: kind and address. -/
  | cxl (port : Nat) (kind : String) (addr : Nat)
  /-- A CXL.cache request for one line or a part of it: RdCurr, or ItoMWr with its data (R318). -/
  | cxlCache (port addr : Nat) (write : Bool) (len : Nat) (bytes : List Byte)
  /-- A PLDM state sensor event to the board controller: a bring-up stage, and the code of a halt or 0 (R426, R427). -/
  | pldm (stage code : Nat)
  /-- A boundary-scan or test-port effect, with the value it shifts out. -/
  | tap (what : String) (value : Nat)
  deriving DecidableEq, Repr

end Sys2Proof.Machine
end

