-- ==== Sys2Proof/Machine/PartsSys.lean ====
section
/-! DEFINITION. State of power delivery and the Heord governor, of the clocks, of the thermal control, of the limited-change
settings, and of bring-up and the package. -/

namespace Sys2Proof.Machine

/-! ### Power (R359–R386) -/

/-- A power target (R378): its command, tick, watts, and requested slopes in mW/ms, 0 for the base slope. -/
structure Target where
  cmd   : Nat
  tick  : Nat
  watts : Nat
  up    : Nat
  dn    : Nat
  deriving DecidableEq, Repr

/-- A beacon collected by the coordinator (R383). -/
structure Beacon where
  dev  : Nat
  prio : Nat
  up   : Nat
  dn   : Nat
  deriving DecidableEq, Repr

/-- The power manager and the Heord governor. Powers are in mW, energies in nJ (1 mW for 1 µs). -/
structure Pwr where
  /-- Envelope at the end and at the start of the millisecond in progress, and its microseconds so far (R370). -/
  env    : Nat
  prev   : Nat
  us     : Nat
  tgt    : Option Target
  /-- The target in force has completed its command. -/
  done   : Bool
  /-- Rise and fall given up for want of credit, in mW, since the target applied (R378). -/
  lagUp  : Nat
  lagDn  : Nat
  pend   : List Target
  holdLeft : Nat
  demand : Nat
  /-- Measured milliseconds, newest first, run by run: (mW, count); 60,000 in all (R374). -/
  hist   : List (Nat × Nat)
  /-- Issue cycles withheld by the module gate, of 64 (R372). -/
  gate   : Nat
  /-- Ballast added, in duty steps of matrix ballast, then of scrub boost (R373). -/
  bal    : Nat
  /-- Domain currents of the last latched millisecond, main and second rail, in 10 mA (R368). -/
  cur    : Tbl (Nat × Nat)
  shunt  : Nat
  shuntMs : Nat
  shuntE : Nat
  boost  : Nat
  shuntSat : Bool
  boostDry : Bool
  /-- Milliseconds in a row outside the tolerance of R376. -/
  miss   : Nat
  /-- Windows in an excursion (R374). -/
  exceeded   : List Nat
  /-- VIN is below 40 V (R359). -/
  low    : Bool
  /-- The grant for the next epoch: (epoch, up, down) (R384). -/
  grant  : Option (Nat × Nat × Nat)
  /-- Credit was requested for the next epoch, and the epochs before it were missed. -/
  asked  : Bool
  missing : Bool
  beacons : List Beacon
  /-- The header of the last latched millisecond (R369), its tick and its fields in order. -/
  snap   : List Nat
  /-- Issue cycles withheld, of 64, on clusters held at their domain cap (R366). -/
  capGate : Tbl Nat
  /-- Phases that failed in the last microsecond in which one did: (domain, microsecond, phase) (R365). -/
  fails  : List (Nat × Nat × Nat)
  /-- The active reasons and the bounds they put on the envelope (R385). -/
  why    : List (Nat × Option Nat)
  deriving DecidableEq, Repr

/-- The governor at cold reset at an idle power (R377). -/
def Pwr.init (idle : Nat) : Pwr :=
  ⟨1000 * idle, 1000 * idle, 0, none, false, 0, 0, [], 0, 1000 * idle, [(1000 * idle, 60000)], 0, 0, [], 0, 0, 0, 6000000000, false, false, 0, [],
   false, none, false, false, [], List.replicate 12 0, [], [], []⟩

/-! ### Clocks (R387–R403) -/

/-- A pending frequency change (R390); `was` is the frequency before it, once it is applied. -/
structure ClkChange where
  cmd  : Nat
  cls  : Nat
  mhz  : Nat
  tick : Nat
  was  : Nat
  deriving DecidableEq, Repr

/-- The clock generators and monitors. -/
structure Clk where
  pend   : List ClkChange
  /-- Loop in use by pair, 0 A, 1 B: the four classes, then the management core and the register bus. -/
  src    : List Nat
  /-- Settings (N, P) of the loops, and when they were made, by 2 × pair + loop; every generator's alike (R387, R391). -/
  loops  : Tbl (Nat × Nat × Nat)
  /-- When a loop last lost lock: (generator, loop, tick) (R395). -/
  lost   : List (Nat × Nat × Nat)
  /-- Values of CLK_MGMT writes not yet in force, oldest first: (core, register bus) (R397). -/
  mgmt   : List (Nat × Nat)
  /-- Frequencies in force of the management clocks. -/
  core   : Nat
  rbus   : Nat
  /-- Tick at which holdover began, and whether REF_LOSS is written (R396). -/
  hold   : Option Nat
  lossTold : Bool
  /-- Calibrated frequencies by cluster island (R401). -/
  cal    : Tbl (List Nat)
  /-- Islands in a low-margin excursion (R400), islands whose loop lost lock (R395), and islands hung (R394). -/
  low    : List Nat
  unlocked : List Nat
  hung   : List Nat
  /-- Islands whose switch has started and does not complete, with the loop they were on (R393, R394). -/
  stuck  : Tbl Nat
  /-- Changes applied whose islands have not all switched (R390, R391). -/
  swing  : List ClkChange
  /-- Since when the cluster class runs at its frequency, and a cluster island that started later (R401). -/
  ranAt  : Nat
  ranOf  : Tbl Nat
  deriving DecidableEq, Repr

/-- N and P of a loop for a frequency in MHz: P the smallest of 4, 8 and 16 with f × P ≥ 4,000, VCO = N × 100 MHz (R387). -/
def pllOf (f : Nat) : Nat × Nat :=
  let p := if 4000 ≤ 4 * f then 4 else if 4000 ≤ 8 * f then 8 else 16
  (f * p / 100, p)

/-- The generators at cold reset: loop A of each pair at its reset frequency (R388). -/
def Clk.init : Clk :=
  ⟨[], [0, 0, 0, 0, 0, 0],
   [2000, 1500, 2000, 1500, 1200, 300].zipIdx.map (fun e => (2 * e.2, ((pllOf e.1).1, (pllOf e.1).2, 0))), [],
   [], 1200, 300, none, false, [], [], [], [], [], [], 0, []⟩

/-! ### Thermal (R404–R422) -/

/-- An override of a node (R412): whether its excess fell to 3 °C or less. -/
structure Override where
  node : Nat
  low  : Bool
  deriving DecidableEq, Repr

/-- Sensors, layer model and tower controllers. A node is 160 t + 8 y + i, y 0 for the floor, 1 for K, 2 for S, 3 + d for Dd,
19 for the cap. Temperatures are in 1/16 °C but for the model, in °C. -/
structure Thm where
  /-- Samples of the millisecond in progress by sensor: sum and count; the last sample; the last millisecond mean. -/
  acc   : Tbl (Int × Nat)
  last  : Tbl Int
  read  : Tbl Int
  /-- Suspect and excluded sensors (R407, R408). -/
  suspect : List Nat
  excluded : List Nat
  /-- K-layer sensors: a reading, and since when every reading has been within 2 °C of it (R401). -/
  steady : Tbl (Int × Nat)
  tm    : Tbl Rat
  off   : Tbl Rat
  offSum : Tbl Rat
  /-- Nodes whose sensors did not all stay good during calibration. -/
  offBad : List Nat
  /-- Model steps taken, and those of the first 10 s that entered the offsets. -/
  steps : Nat
  overrides : List Override
  /-- Nodes whose overriding estimate reached CRIT, and SHUT, at the last boundary. -/
  estCrit : List Nat
  estShut : List Nat
  /-- A cooling descriptor that takes effect at the next boundary (R420). -/
  cool  : Option Nat
  /-- D nodes above 85 °C, with their values in a row at or below 82 °C (R62). -/
  hot   : Tbl Nat
  /-- Issue cycles, of 64, that the gate of a throttled tower lets through (R416). -/
  duty  : Tbl Nat
  /-- Rail power of each tower over the last millisecond, in W (R415). -/
  towerW : List Nat
  deriving DecidableEq, Repr

def Thm.init : Thm := ⟨[], [], [], [], [], [], [], [], [], [], 0, [], [], [], none, [], [], []⟩

/-! ### Limited-change settings (R448–R456) -/

/-- A ledger record (R454). -/
structure Ledger where
  tick    : Nat
  value   : Nat
  setting : Nat
  slot    : Nat
  cred    : Nat
  valid   : Bool
  torn    : Bool
  prior   : Nat
  deriving DecidableEq, Repr

/-- The ledger, the record being programmed, the bound key hashes, the session and the action being verified. -/
structure Lcs where
  records : Tbl Ledger
  prog    : Option (Nat × Ledger)
  keys    : Tbl Nat
  /-- Tick at which the open session began. -/
  session : Option Nat
  /-- Action code and index being verified, with the key and signature bytes written for it. -/
  verify  : Option (Nat × Nat × List Byte × List Byte)
  deriving DecidableEq, Repr

def Lcs.init : Lcs := ⟨[], none, [], none, none⟩

/-! ### Bring-up and the package -/

/-- An entry of the field repair record (R435). `kind`: 0 lane to spare, 1 bank to spare, 2 way disabled, 3 cluster mapped
out; `c` a cluster or tower; `x`, `y` the lane, the die and bank, the way, or the cause; `ok` says that its CRC-8 checks, which
is programmed last. -/
structure Frr where
  kind : Nat
  c    : Nat
  x    : Nat
  y    : Nat
  ok   : Bool
  deriving DecidableEq, Repr

/-- What the device as a whole does: without power, on its standby rail only, running, halted in bring-up (R427), held in
reset after a long holdover (R396), shut down for heat (R419), or dark in its always-on domain (R365). -/
inductive Life where
  | unpowered | standby | run | halted | held | shut | dark
  deriving DecidableEq, Repr

/-- Instructions of the test access port (R468). -/
inductive TapIr where
  | bypass | idcode | extest | extestPulse | extestTrain | intest | clamp | sample
  deriving DecidableEq, Repr

/-- Bring-up, reset and package state. -/
structure Boot where
  life   : Life
  /-- VIN has reached its operating range. -/
  vin    : Bool
  /-- RESET_N is low. -/
  resetN : Bool
  frr    : List Frr
  /-- The Sett table image, one word each 8 bytes; empty before the first build. -/
  sett   : List Nat
  /-- Tick of the last watchdog service, once the firmware runs (R442). -/
  wdog   : Option Nat
  /-- A log entry selected by ALERT_MASK is pending (R358). -/
  alert  : Bool
  /-- THERMTRIP_N is asserted. -/
  trip   : Bool
  /-- TRST_N holds the test port in reset, and the port's instruction. -/
  trst   : Bool
  tap    : TapIr
  /-- No cold reset has run since input power returned, so the next one is the power-on itself (RST_CNT). -/
  fresh  : Bool
  /-- Raises of MIN_SVN fused (R431). -/
  raises : Nat
  /-- Entries at the end of the field repair record whose programming may still be cut short (R435). -/
  frrOpen : Nat
  /-- The manufacturing lane, bank and way repairs of the fuse banks, as entries of the record (R429, R432). -/
  mfg    : List Frr
  /-- The fuse banks as loaded, the first copy that checks of each (R429). -/
  fuses  : List (List Byte)
  /-- The digest of the image that runs, as the SPDM measurements carry it (R430). -/
  spdm   : List Nat
  /-- The MEASURE stage (R437): phase (0 settling, 1 idle, 2 ballast rising, 3 full ballast, 4 over), milliseconds, and their
  input power in mW together. -/
  meas   : Nat × Nat × Nat
  deriving DecidableEq, Repr

def Boot.init : Boot :=
  ⟨.run, true, false, [], [], none, false, false, true, .idcode, false, 0, 0, [], [], [], (0, 0, 0)⟩

end Sys2Proof.Machine
end

