-- ==== Sys2Proof/Machine/RegId.lean ====
section
/-! DEFINITION. The names of every register of the manual (one constructor per register heading of the chapters; a register
of several words has one name per word), the access codes of R15, the views of R446 and the reset domains of R423. -/

namespace Sys2Proof.Machine

/-- Every register of the register space, named as the manual names it. An array of registers has one name and its indices. -/
inductive RegId where
  | MEM_ILV_STAGE | MEM_ILV_ACTIVE | MEM_ILV_STAT | ECC_CE_COUNT | ECC_STAT | ECC_CFG | ECC_REPAIR_PEND | ECC_TBL
  | ECC_TBL_TICK | ECC_INJ | MEM_SCRUB_CTL | MEM_REFR_STAT | MX_STAT | MX_CNT_STREAM | MX_CNT_STALL | MX_CNT_FLAG
  | CORE_STAT | CORE_TRAP | CORE_EPC | CORE_TVAL | CORE_QSTALL | VX_STAT | DMA_CH_CFG | DMA_CH_PTR | DMA_CH_STAT
  | SP_CFG | SP_CNT | ROC_CNT | NB_S_TGT | NB_S_MASK | NB_S_CMD | NB_S_RANGE_IN | NB_S_RANGE_OUT | NB_S_STAT
  | NB_S_FAIL | NB_S_P | NB_S_DATA | NB_CAP | NB_PSTAT | NB_PCNT_COL | NB_PCNT_THR | KV_CFG | KV_POOL_STAT | KV_CLS
  | KV_WM | KV_EPOCH | KV_PIN | KV_STEP | KV_RETIRED | KV_POOL_CFG0 | KV_POOL_CFG1 | KV_POOL_CFG2 | KV_META
  | KV_SPILL_AREA | KV_SWAP_AREA | KV_CNT | KV_SEQ | MRG_STAT | MRG_CNT | KV_ATT_CNT | TC_CFG | TC_PIN_QUOTA
  | TC_THRASH | TC_CTL | TC_STAT | TC_WAY_EN | TC_CNT | QD_STAT | QD_SQ_BASE | QD_CQ_BASE | QD_Q_CFG | QD_Q_CTL
  | QD_Q_STAT | QD_Q_PTR | QD_Q_COUNT | QD_DB_SQ | QD_DB_CQ | SYN_ID | SYN_CFG | SYN_STAT | SYN_TIME | SYN_PORT_STAT
  | SYN_PORT_CNT | SYN_CNT | SYN_RT | WIN_OUT | WIN_IN_A | WIN_IN_B | HP_ROLE | HP_CFG | HP_LINK_STAT | HP_SPILL_CFG
  | HP_SPILL_STAT | HP_HDM_SHARE | HP_HWIN | HP_HWIN_HOST | HP_HWIN_SIZE | SYN_COLL_CFG | SYN_COLL_STAT | LOG_CFG
  | LOG_STAT | LOG_LOST | LOG_CTL | LOG_RCV_STAT | LOG_RCV_CNT | LOG_ENTRY_W0 | LOG_ENTRY_W1 | LOG_ENTRY_W2
  | LOG_ENTRY_W3 | PWR_CEILING | PWR_IN | PWR_REF | PWR_BUF | PWR_DOM_STAT | HRD_SLOPE_UP | HRD_SLOPE_DN
  | HRD_SLOPE_CEIL | HRD_AVG | HRD_BALLAST | HRD_COORD | HRD_FLEET | HRD_STAT | HRD_REASON | HRD_EPOCH | HRD_GRANT
  | HRD_THR_TIME | CLK_CLASS | CLK_MGMT | CLK_GATE | CLK_STAT | CLK_OBS | CLK_BYPASS | CLK_ISL_STAT | THM_COOL
  | THM_STAT | THM_LIM | THM_CNT | THM_TRIP | THM_TWR | THM_SENS | BOOT_STAT | BOOT_FAIL | BOOT_FW | BOOT_FW_CTL
  | BOOT_FW_DIGEST | BOOT_TICK | RST_CTL | RST_CFG | RST_CAUSE | RST_CNT | ID_DEVICE | ID_GRADE | ID_SERIAL0
  | ID_SERIAL1 | ID_VIEW | LCS_TENANT | LCS_GRADE | LCS_LEFT | LCS_LEDGER_W0 | LCS_LEDGER_W1 | LCS_LEDGER_W2
  | LCS_LEDGER_W3 | LCS_STAT | LCS_NONCE | LCS_AUTH_KEY | LCS_AUTH_SIG | LCS_AUTH_CTL
  deriving DecidableEq, Repr

/-- Access codes of R15 (OP is a flag of its own; no register of the manual carries RC). -/
inductive Acc where
  | ro | rw | wo | w1c | w1s | rwl
  deriving DecidableEq, Repr

/-- In which views a register appears (R446); `queue` is R260, `slot` is R146. -/
inductive RegView where
  | oper | both | queue | slot
  deriving DecidableEq, Repr

/-- Reset domain of a register (R423). -/
inductive RegDomain where
  | powerOn | cold | compute
  deriving DecidableEq, Repr

/-- A field [hi:lo] of a 64-bit register (R11). -/
structure Fld where
  hi : Nat
  lo : Nat
  deriving DecidableEq, Repr

/-- A field with its access code and its OP mark. -/
structure FieldDesc where
  fld : Fld
  acc : Acc
  op  : Bool
  deriving DecidableEq, Repr

/-- A register heading: the view offset of its first register, the (count, stride) of each index, its view, its
reset domain, the word of its Reset column, and its fields. Bits of no field are reserved: they read 0. -/
structure RegDesc where
  base   : Nat
  dims   : List (Nat × Nat)
  view   : RegView
  domain : RegDomain
  reset  : Nat
  fields : List FieldDesc
  deriving DecidableEq, Repr

end Sys2Proof.Machine
end

