-- ==== Sys2Proof/Machine/RegMap.lean ====
section
/-! DEFINITION. The register map: where every register lies (R443 and the register headings), its fields with their access
codes (R15), its view (R446), its reset domain (R423) and its reset word. A fuse or ledger field takes the value named in log
entry 3. -/

namespace Sys2Proof.Machine

namespace Fld

abbrev MEM_ILV_STAGE_STRIPED : Fld := ⟨63, 0⟩
abbrev MEM_ILV_ACTIVE_STRIPED : Fld := ⟨63, 0⟩
abbrev MEM_ILV_STAT_PENDING : Fld := ⟨16, 16⟩
abbrev MEM_ILV_STAT_FORCED_SETS : Fld := ⟨15, 0⟩
abbrev ECC_CE_COUNT_COUNT : Fld := ⟨63, 0⟩
abbrev ECC_STAT_TBL_OVF : Fld := ⟨63, 48⟩
abbrev ECC_STAT_MISMATCH : Fld := ⟨47, 32⟩
abbrev ECC_STAT_UE : Fld := ⟨31, 0⟩
abbrev ECC_CFG_LANE_THRESH : Fld := ⟨47, 32⟩
abbrev ECC_CFG_BANK_ROWS : Fld := ⟨19, 16⟩
abbrev ECC_CFG_ROW_THRESH : Fld := ⟨15, 0⟩
abbrev ECC_REPAIR_PEND_NO_SPARE : Fld := ⟨47, 32⟩
abbrev ECC_REPAIR_PEND_CTL_LANES : Fld := ⟨31, 24⟩
abbrev ECC_REPAIR_PEND_DATA_LANES : Fld := ⟨23, 16⟩
abbrev ECC_REPAIR_PEND_BANKS : Fld := ⟨15, 0⟩
abbrev ECC_TBL_VALID : Fld := ⟨63, 63⟩
abbrev ECC_TBL_KIND : Fld := ⟨62, 61⟩
abbrev ECC_TBL_LOCAL : Fld := ⟨60, 55⟩
abbrev ECC_TBL_DIE : Fld := ⟨54, 51⟩
abbrev ECC_TBL_P : Fld := ⟨50, 46⟩
abbrev ECC_TBL_ROW : Fld := ⟨45, 33⟩
abbrev ECC_TBL_SYMBOL : Fld := ⟨32, 28⟩
abbrev ECC_TBL_LANE : Fld := ⟨27, 19⟩
abbrev ECC_TBL_NOMINATED : Fld := ⟨16, 16⟩
abbrev ECC_TBL_COUNT : Fld := ⟨15, 0⟩
abbrev ECC_TBL_TICK_LAST_TICK : Fld := ⟨63, 0⟩
abbrev ECC_INJ_ARM : Fld := ⟨63, 63⟩
abbrev ECC_INJ_SYMBOL : Fld := ⟨62, 58⟩
abbrev ECC_INJ_MASK : Fld := ⟨57, 50⟩
abbrev ECC_INJ_ADDR : Fld := ⟨47, 4⟩
abbrev MEM_SCRUB_CTL_PASSES : Fld := ⟨63, 32⟩
abbrev MEM_SCRUB_CTL_BOOST : Fld := ⟨27, 16⟩
abbrev MEM_SCRUB_CTL_PASS_H : Fld := ⟨15, 8⟩
abbrev MEM_SCRUB_CTL_EN : Fld := ⟨0, 0⟩
abbrev MEM_REFR_STAT_HOT : Fld := ⟨51, 32⟩
abbrev MEM_REFR_STAT_ACTIVE : Fld := ⟨19, 0⟩
abbrev MX_STAT_LAST_REJ : Fld := ⟨63, 56⟩
abbrev MX_STAT_HALTED : Fld := ⟨11, 11⟩
abbrev MX_STAT_BALLAST : Fld := ⟨10, 10⟩
abbrev MX_STAT_BUSY : Fld := ⟨9, 9⟩
abbrev MX_STAT_QDEPTH : Fld := ⟨8, 0⟩
abbrev MX_CNT_STREAM_CYCLES : Fld := ⟨63, 0⟩
abbrev MX_CNT_STALL_FRONT : Fld := ⟨63, 32⟩
abbrev MX_CNT_STALL_SUPPLY : Fld := ⟨31, 0⟩
abbrev MX_CNT_FLAG_SAT : Fld := ⟨63, 32⟩
abbrev MX_CNT_FLAG_INX : Fld := ⟨31, 0⟩
abbrev CORE_STAT_EXIT : Fld := ⟨63, 48⟩
abbrev CORE_STAT_STOPPED : Fld := ⟨3, 3⟩
abbrev CORE_STAT_HALTED : Fld := ⟨2, 2⟩
abbrev CORE_STAT_INTRAP : Fld := ⟨1, 1⟩
abbrev CORE_STAT_RUN : Fld := ⟨0, 0⟩
abbrev CORE_TRAP_CODE : Fld := ⟨63, 56⟩
abbrev CORE_TRAP_STATUS : Fld := ⟨47, 32⟩
abbrev CORE_TRAP_COUNT : Fld := ⟨31, 0⟩
abbrev CORE_EPC_VALUE : Fld := ⟨47, 0⟩
abbrev CORE_TVAL_VALUE : Fld := ⟨47, 0⟩
abbrev CORE_QSTALL_CYCLES : Fld := ⟨63, 0⟩
abbrev VX_STAT_LAST_REJ : Fld := ⟨63, 56⟩
abbrev VX_STAT_HALTED : Fld := ⟨9, 9⟩
abbrev VX_STAT_BUSY : Fld := ⟨8, 8⟩
abbrev VX_STAT_QDEPTH : Fld := ⟨6, 0⟩
abbrev DMA_CH_CFG_RSZ : Fld := ⟨25, 22⟩
abbrev DMA_CH_CFG_BASE : Fld := ⟨21, 5⟩
abbrev DMA_CH_PTR_TAIL : Fld := ⟨31, 16⟩
abbrev DMA_CH_PTR_HEAD : Fld := ⟨15, 0⟩
abbrev DMA_CH_STAT_STATUS : Fld := ⟨63, 48⟩
abbrev DMA_CH_STAT_FAIL_IDX : Fld := ⟨47, 32⟩
abbrev DMA_CH_STAT_KICK_ERR : Fld := ⟨2, 2⟩
abbrev DMA_CH_STAT_HALTED : Fld := ⟨1, 1⟩
abbrev DMA_CH_STAT_BUSY : Fld := ⟨0, 0⟩
abbrev SP_CFG_FIXED : Fld := ⟨0, 0⟩
abbrev SP_CNT_WAITS : Fld := ⟨63, 0⟩
abbrev ROC_CNT_MISS : Fld := ⟨63, 32⟩
abbrev ROC_CNT_HIT : Fld := ⟨31, 0⟩
abbrev NB_S_TGT_MODE : Fld := ⟨63, 62⟩
abbrev NB_S_TGT_L : Fld := ⟨61, 52⟩
abbrev NB_S_TGT_DIE : Fld := ⟨51, 48⟩
abbrev NB_S_TGT_P : Fld := ⟨47, 43⟩
abbrev NB_S_TGT_GROUP : Fld := ⟨11, 0⟩
abbrev NB_S_MASK_BANKMASK : Fld := ⟨63, 32⟩
abbrev NB_S_MASK_DIEMASK : Fld := ⟨15, 0⟩
abbrev NB_S_CMD_KIND : Fld := ⟨63, 56⟩
abbrev NB_S_CMD_PC : Fld := ⟨55, 49⟩
abbrev NB_S_CMD_PRELEN : Fld := ⟨48, 45⟩
abbrev NB_S_CMD_DESC : Fld := ⟨44, 44⟩
abbrev NB_S_CMD_STORE : Fld := ⟨43, 43⟩
abbrev NB_S_CMD_RESERVED : Fld := ⟨42, 32⟩
abbrev NB_S_CMD_TAG : Fld := ⟨31, 0⟩
abbrev NB_S_RANGE_IN_LEN : Fld := ⟨63, 46⟩
abbrev NB_S_RANGE_IN_BASE : Fld := ⟨22, 6⟩
abbrev NB_S_RANGE_OUT_LEN : Fld := ⟨63, 46⟩
abbrev NB_S_RANGE_OUT_BASE : Fld := ⟨22, 6⟩
abbrev NB_S_STAT_BUSY : Fld := ⟨63, 63⟩
abbrev NB_S_STAT_FAIL : Fld := ⟨62, 62⟩
abbrev NB_S_STAT_OVR : Fld := ⟨61, 61⟩
abbrev NB_S_STAT_TARGETS : Fld := ⟨47, 32⟩
abbrev NB_S_STAT_DONE_CNT : Fld := ⟨31, 16⟩
abbrev NB_S_STAT_FAIL_CNT : Fld := ⟨15, 0⟩
abbrev NB_S_FAIL_STATUS : Fld := ⟨63, 48⟩
abbrev NB_S_FAIL_UPC : Fld := ⟨47, 41⟩
abbrev NB_S_FAIL_L : Fld := ⟨40, 31⟩
abbrev NB_S_FAIL_DIE : Fld := ⟨30, 27⟩
abbrev NB_S_FAIL_P : Fld := ⟨26, 22⟩
abbrev NB_S_P_VALUE : Fld := ⟨63, 0⟩
abbrev NB_S_DATA_DATA : Fld := ⟨63, 0⟩
abbrev NB_CAP_DEPTH : Fld := ⟨47, 32⟩
abbrev NB_CAP_RATE_EFF : Fld := ⟨23, 16⟩
abbrev NB_CAP_RATE_LIMIT : Fld := ⟨15, 8⟩
abbrev NB_CAP_RATE : Fld := ⟨7, 0⟩
abbrev NB_PSTAT_PENDING : Fld := ⟨25, 16⟩
abbrev NB_PSTAT_RUNNING : Fld := ⟨9, 0⟩
abbrev NB_PCNT_COL_COLUMNS : Fld := ⟨63, 0⟩
abbrev NB_PCNT_THR_SHORTENED : Fld := ⟨63, 32⟩
abbrev NB_PCNT_THR_WAIT8 : Fld := ⟨31, 0⟩
abbrev KV_CFG_SPILL_WAIT : Fld := ⟨63, 48⟩
abbrev KV_CFG_HL : Fld := ⟨11, 8⟩
abbrev KV_CFG_AUTO_PREEMPT : Fld := ⟨0, 0⟩
abbrev KV_POOL_STAT_BANKS : Fld := ⟨63, 32⟩
abbrev KV_POOL_STAT_PIDS_FREE : Fld := ⟨31, 0⟩
abbrev KV_CLS_FRAMES : Fld := ⟨63, 32⟩
abbrev KV_CLS_FREE : Fld := ⟨31, 0⟩
abbrev KV_WM_HIGH : Fld := ⟨63, 32⟩
abbrev KV_WM_LOW : Fld := ⟨31, 0⟩
abbrev KV_EPOCH_E : Fld := ⟨63, 0⟩
abbrev KV_PIN_OLDEST : Fld := ⟨63, 0⟩
abbrev KV_STEP_G : Fld := ⟨39, 0⟩
abbrev KV_RETIRED_FRAMES : Fld := ⟨63, 32⟩
abbrev KV_RETIRED_SLOTS : Fld := ⟨31, 0⟩
abbrev KV_POOL_CFG0_LFIRST : Fld := ⟨63, 54⟩
abbrev KV_POOL_CFG0_LLAST : Fld := ⟨53, 44⟩
abbrev KV_POOL_CFG0_DIEMASK : Fld := ⟨43, 28⟩
abbrev KV_POOL_CFG1_BANKMASK : Fld := ⟨63, 32⟩
abbrev KV_POOL_CFG2_N2 : Fld := ⟨63, 32⟩
abbrev KV_POOL_CFG2_N1 : Fld := ⟨31, 0⟩
abbrev KV_META_SIZE : Fld := ⟨63, 48⟩
abbrev KV_META_BASE : Fld := ⟨47, 30⟩
abbrev KV_SPILL_AREA_SIZE : Fld := ⟨63, 48⟩
abbrev KV_SPILL_AREA_BASE : Fld := ⟨47, 30⟩
abbrev KV_SWAP_AREA_SIZE : Fld := ⟨63, 48⟩
abbrev KV_SWAP_AREA_BASE : Fld := ⟨47, 30⟩
abbrev KV_CNT_COUNT : Fld := ⟨63, 0⟩
abbrev KV_SEQ_STATE : Fld := ⟨63, 61⟩
abbrev KV_SEQ_PROFILE : Fld := ⟨60, 57⟩
abbrev KV_SEQ_LEN : Fld := ⟨56, 32⟩
abbrev KV_SEQ_PRIO : Fld := ⟨31, 16⟩
abbrev MRG_STAT_OPEN : Fld := ⟨43, 32⟩
abbrev MRG_CNT_RECORDS : Fld := ⟨63, 32⟩
abbrev MRG_CNT_NOCREDIT : Fld := ⟨31, 0⟩
abbrev KV_ATT_CNT_COUNT : Fld := ⟨63, 0⟩
abbrev TC_CFG_CMODE : Fld := ⟨2, 2⟩
abbrev TC_CFG_PF_EN : Fld := ⟨1, 1⟩
abbrev TC_CFG_DET : Fld := ⟨0, 0⟩
abbrev TC_PIN_QUOTA_QUOTA : Fld := ⟨3, 0⟩
abbrev TC_THRASH_WIN : Fld := ⟨12, 8⟩
abbrev TC_THRASH_THRESH : Fld := ⟨7, 0⟩
abbrev TC_CTL_INV : Fld := ⟨3, 3⟩
abbrev TC_CTL_FLUSH : Fld := ⟨2, 2⟩
abbrev TC_CTL_RCLOSE : Fld := ⟨1, 1⟩
abbrev TC_CTL_UNPIN : Fld := ⟨0, 0⟩
abbrev TC_STAT_DIRTY : Fld := ⟨63, 48⟩
abbrev TC_STAT_KEEP : Fld := ⟨47, 32⟩
abbrev TC_STAT_PENDING : Fld := ⟨31, 16⟩
abbrev TC_STAT_INSVC : Fld := ⟨2, 2⟩
abbrev TC_STAT_FLUSHING : Fld := ⟨1, 1⟩
abbrev TC_STAT_THRASH : Fld := ⟨0, 0⟩
abbrev TC_WAY_EN_EN : Fld := ⟨15, 0⟩
abbrev TC_CNT_COUNT : Fld := ⟨63, 0⟩
abbrev QD_STAT_HELD : Fld := ⟨48, 48⟩
abbrev QD_STAT_INFLIGHT : Fld := ⟨42, 32⟩
abbrev QD_STAT_FENCE_LAST : Fld := ⟨31, 0⟩
abbrev QD_SQ_BASE_BASE : Fld := ⟨47, 6⟩
abbrev QD_CQ_BASE_BASE : Fld := ⟨47, 6⟩
abbrev QD_Q_CFG_JOB : Fld := ⟨47, 32⟩
abbrev QD_Q_CFG_VEC : Fld := ⟨18, 8⟩
abbrev QD_Q_CFG_PORT : Fld := ⟨5, 5⟩
abbrev QD_Q_CFG_OWNER : Fld := ⟨4, 4⟩
abbrev QD_Q_CFG_QSZ : Fld := ⟨3, 0⟩
abbrev QD_Q_CTL_FENCE_ACK : Fld := ⟨2, 2⟩
abbrev QD_Q_CTL_RESET : Fld := ⟨1, 1⟩
abbrev QD_Q_CTL_EN : Fld := ⟨0, 0⟩
abbrev QD_Q_STAT_FENCE : Fld := ⟨63, 32⟩
abbrev QD_Q_STAT_INFLIGHT : Fld := ⟨22, 16⟩
abbrev QD_Q_STAT_CQ_ERR : Fld := ⟨5, 5⟩
abbrev QD_Q_STAT_CFG_ERR : Fld := ⟨4, 4⟩
abbrev QD_Q_STAT_DB_ERR : Fld := ⟨3, 3⟩
abbrev QD_Q_STAT_ERROR : Fld := ⟨2, 2⟩
abbrev QD_Q_STAT_FENCED : Fld := ⟨1, 1⟩
abbrev QD_Q_STAT_ENABLED : Fld := ⟨0, 0⟩
abbrev QD_Q_PTR_CQ_TAIL : Fld := ⟨63, 48⟩
abbrev QD_Q_PTR_CQ_HEAD : Fld := ⟨47, 32⟩
abbrev QD_Q_PTR_SQ_TAIL : Fld := ⟨31, 16⟩
abbrev QD_Q_PTR_SQ_HEAD : Fld := ⟨15, 0⟩
abbrev QD_Q_COUNT_COUNT : Fld := ⟨63, 0⟩
abbrev QD_DB_SQ_VALUE : Fld := ⟨15, 0⟩
abbrev QD_DB_CQ_VALUE : Fld := ⟨15, 0⟩
abbrev SYN_ID_SET : Fld := ⟨16, 16⟩
abbrev SYN_ID_ID : Fld := ⟨15, 0⟩
abbrev SYN_CFG_LINK_HOLD : Fld := ⟨31, 16⟩
abbrev SYN_CFG_TIME_MASTER : Fld := ⟨3, 3⟩
abbrev SYN_CFG_RVIEW : Fld := ⟨2, 1⟩
abbrev SYN_CFG_EN : Fld := ⟨0, 0⟩
abbrev SYN_STAT_ID : Fld := ⟨63, 48⟩
abbrev SYN_STAT_MEMBERS : Fld := ⟨47, 32⟩
abbrev SYN_STAT_MSTATE : Fld := ⟨25, 24⟩
abbrev SYN_STAT_PORTS_UP : Fld := ⟨15, 0⟩
abbrev SYN_TIME_LOCKED : Fld := ⟨63, 63⟩
abbrev SYN_TIME_STRATUM : Fld := ⟨62, 58⟩
abbrev SYN_TIME_PARENT : Fld := ⟨57, 54⟩
abbrev SYN_TIME_OFFSET : Fld := ⟨31, 0⟩
abbrev SYN_PORT_STAT_NEIGH : Fld := ⟨63, 48⟩
abbrev SYN_PORT_STAT_LANES : Fld := ⟨47, 40⟩
abbrev SYN_PORT_STAT_SPARE_V : Fld := ⟨39, 39⟩
abbrev SYN_PORT_STAT_SPARE : Fld := ⟨38, 36⟩
abbrev SYN_PORT_STAT_STATE : Fld := ⟨32, 30⟩
abbrev SYN_PORT_CNT_REPLAYS : Fld := ⟨63, 32⟩
abbrev SYN_PORT_CNT_LANE_EVENTS : Fld := ⟨31, 16⟩
abbrev SYN_PORT_CNT_RETRAINS : Fld := ⟨15, 0⟩
abbrev SYN_CNT_NO_DJ : Fld := ⟨63, 48⟩
abbrev SYN_CNT_DISCARD : Fld := ⟨47, 24⟩
abbrev SYN_CNT_AGED : Fld := ⟨23, 0⟩
abbrev SYN_RT_ENTRY_ODD : Fld := ⟨63, 32⟩
abbrev SYN_RT_ENTRY_EVEN : Fld := ⟨31, 0⟩
abbrev WIN_OUT_V : Fld := ⟨63, 63⟩
abbrev WIN_OUT_INDEX : Fld := ⟨59, 48⟩
abbrev WIN_OUT_GEN : Fld := ⟨47, 36⟩
abbrev WIN_OUT_DEV : Fld := ⟨15, 0⟩
abbrev WIN_IN_A_STATE : Fld := ⟨63, 62⟩
abbrev WIN_IN_A_GEN : Fld := ⟨59, 48⟩
abbrev WIN_IN_A_JOB : Fld := ⟨47, 32⟩
abbrev WIN_IN_A_PEER : Fld := ⟨31, 16⟩
abbrev WIN_IN_A_ACCESS : Fld := ⟨2, 0⟩
abbrev WIN_IN_B_CLOSED_REJ : Fld := ⟨63, 32⟩
abbrev WIN_IN_B_STALE_REJ : Fld := ⟨31, 16⟩
abbrev WIN_IN_B_TORN : Fld := ⟨15, 0⟩
abbrev HP_ROLE_HP1_BIF : Fld := ⟨6, 6⟩
abbrev HP_ROLE_HP1_ROLE : Fld := ⟨5, 4⟩
abbrev HP_ROLE_HP0_BIF : Fld := ⟨2, 2⟩
abbrev HP_ROLE_HP0_ROLE : Fld := ⟨1, 0⟩
abbrev HP_CFG_BI_TIMEOUT : Fld := ⟨15, 0⟩
abbrev HP_LINK_STAT_ERRORS : Fld := ⟨63, 32⟩
abbrev HP_LINK_STAT_DEVICES : Fld := ⟨14, 12⟩
abbrev HP_LINK_STAT_IDE : Fld := ⟨11, 11⟩
abbrev HP_LINK_STAT_FLIT : Fld := ⟨10, 10⟩
abbrev HP_LINK_STAT_CXL : Fld := ⟨9, 9⟩
abbrev HP_LINK_STAT_WIDTH : Fld := ⟨8, 4⟩
abbrev HP_LINK_STAT_GEN : Fld := ⟨3, 1⟩
abbrev HP_LINK_STAT_UP : Fld := ⟨0, 0⟩
abbrev HP_SPILL_CFG_ILV : Fld := ⟨0, 0⟩
abbrev HP_SPILL_STAT_LOST : Fld := ⟨32, 32⟩
abbrev HP_SPILL_STAT_DEVICES : Fld := ⟨19, 16⟩
abbrev HP_SPILL_STAT_INTERLEAVED : Fld := ⟨15, 15⟩
abbrev HP_SPILL_STAT_CAP : Fld := ⟨14, 0⟩
abbrev HP_HDM_SHARE_SHARED : Fld := ⟨63, 0⟩
abbrev HP_HWIN_V : Fld := ⟨63, 63⟩
abbrev HP_HWIN_PORT : Fld := ⟨48, 48⟩
abbrev HP_HWIN_DEV : Fld := ⟨47, 12⟩
abbrev HP_HWIN_HOST_HOST : Fld := ⟨63, 12⟩
abbrev HP_HWIN_SIZE_SIZE : Fld := ⟨42, 12⟩
abbrev SYN_COLL_CFG_TIMEOUT : Fld := ⟨15, 0⟩
abbrev SYN_COLL_STAT_DROPPED : Fld := ⟨63, 32⟩
abbrev SYN_COLL_STAT_RUNNING : Fld := ⟨23, 16⟩
abbrev SYN_COLL_STAT_FAILED : Fld := ⟨15, 0⟩
abbrev LOG_CFG_CE_PERIOD : Fld := ⟨63, 48⟩
abbrev LOG_CFG_IRQ_MASK : Fld := ⟨47, 32⟩
abbrev LOG_CFG_ALERT_MASK : Fld := ⟨31, 16⟩
abbrev LOG_CFG_PORT : Fld := ⟨11, 11⟩
abbrev LOG_CFG_VEC : Fld := ⟨10, 0⟩
abbrev LOG_STAT_NEXT_SEQ : Fld := ⟨63, 32⟩
abbrev LOG_STAT_OLDEST_SEQ : Fld := ⟨31, 0⟩
abbrev LOG_LOST_COUNT : Fld := ⟨63, 0⟩
abbrev LOG_CTL_CLEAR : Fld := ⟨0, 0⟩
abbrev LOG_RCV_STAT_FENCE : Fld := ⟨63, 32⟩
abbrev LOG_RCV_STAT_STAGE : Fld := ⟨23, 20⟩
abbrev LOG_RCV_STAT_RESTARTS : Fld := ⟨19, 16⟩
abbrev LOG_RCV_STAT_JOBS : Fld := ⟨15, 8⟩
abbrev LOG_RCV_STAT_RESOURCES : Fld := ⟨7, 0⟩
abbrev LOG_RCV_CNT_RECOVERIES : Fld := ⟨63, 32⟩
abbrev LOG_RCV_CNT_RESTARTS : Fld := ⟨31, 16⟩
abbrev LOG_RCV_CNT_HELD : Fld := ⟨15, 0⟩
abbrev LOG_ENTRY_W0_WORD : Fld := ⟨63, 0⟩
abbrev LOG_ENTRY_W1_WORD : Fld := ⟨63, 0⟩
abbrev LOG_ENTRY_W2_WORD : Fld := ⟨63, 0⟩
abbrev LOG_ENTRY_W3_WORD : Fld := ⟨63, 0⟩
abbrev PWR_CEILING_WATTS : Fld := ⟨15, 0⟩
abbrev PWR_IN_VIN : Fld := ⟨63, 48⟩
abbrev PWR_IN_IIN : Fld := ⟨47, 32⟩
abbrev PWR_IN_PIN : Fld := ⟨31, 16⟩
abbrev PWR_REF_BALLAST_MAX : Fld := ⟨47, 32⟩
abbrev PWR_REF_IDLE : Fld := ⟨31, 16⟩
abbrev PWR_REF_IBC_GOOD : Fld := ⟨7, 0⟩
abbrev PWR_BUF_SHUNT_KJ : Fld := ⟨63, 32⟩
abbrev PWR_BUF_BOOST : Fld := ⟨25, 16⟩
abbrev PWR_BUF_SHUNT : Fld := ⟨15, 0⟩
abbrev PWR_DOM_STAT_DARK : Fld := ⟨63, 63⟩
abbrev PWR_DOM_STAT_GATED : Fld := ⟨62, 62⟩
abbrev PWR_DOM_STAT_PHASE_GOOD : Fld := ⟨53, 48⟩
abbrev PWR_DOM_STAT_CAP_PCT : Fld := ⟨47, 40⟩
abbrev PWR_DOM_STAT_VSET : Fld := ⟨39, 30⟩
abbrev PWR_DOM_STAT_ISEC : Fld := ⟨29, 15⟩
abbrev PWR_DOM_STAT_IMAIN : Fld := ⟨14, 0⟩
abbrev HRD_SLOPE_UP_RATE : Fld := ⟨31, 0⟩
abbrev HRD_SLOPE_DN_RATE : Fld := ⟨31, 0⟩
abbrev HRD_SLOPE_CEIL_DN_CEIL : Fld := ⟨63, 32⟩
abbrev HRD_SLOPE_CEIL_UP_CEIL : Fld := ⟨31, 0⟩
abbrev HRD_AVG_L60 : Fld := ⟨47, 32⟩
abbrev HRD_AVG_L10 : Fld := ⟨31, 16⟩
abbrev HRD_AVG_L1 : Fld := ⟨15, 0⟩
abbrev HRD_BALLAST_HOLD : Fld := ⟨47, 32⟩
abbrev HRD_BALLAST_FLOOR : Fld := ⟨15, 0⟩
abbrev HRD_COORD_V : Fld := ⟨63, 63⟩
abbrev HRD_COORD_SELF : Fld := ⟨62, 62⟩
abbrev HRD_COORD_PRIO : Fld := ⟨23, 16⟩
abbrev HRD_COORD_ID : Fld := ⟨15, 0⟩
abbrev HRD_FLEET_DN_W : Fld := ⟨63, 32⟩
abbrev HRD_FLEET_UP_W : Fld := ⟨31, 0⟩
abbrev HRD_STAT_ENV : Fld := ⟨63, 48⟩
abbrev HRD_STAT_TARGET : Fld := ⟨47, 32⟩
abbrev HRD_STAT_DEMAND : Fld := ⟨31, 16⟩
abbrev HRD_STAT_MEASURED : Fld := ⟨15, 0⟩
abbrev HRD_REASON_BIND_BAL : Fld := ⟨63, 56⟩
abbrev HRD_REASON_BIND_THR : Fld := ⟨55, 48⟩
abbrev HRD_REASON_ACTIVE : Fld := ⟨15, 0⟩
abbrev HRD_EPOCH_EPOCH : Fld := ⟨39, 0⟩
abbrev HRD_GRANT_MISSED : Fld := ⟨63, 32⟩
abbrev HRD_GRANT_UP : Fld := ⟨31, 16⟩
abbrev HRD_GRANT_DN : Fld := ⟨15, 0⟩
abbrev HRD_THR_TIME_US : Fld := ⟨63, 0⟩
abbrev CLK_CLASS_FMAX : Fld := ⟨63, 48⟩
abbrev CLK_CLASS_PENDING : Fld := ⟨47, 44⟩
abbrev CLK_CLASS_MHZ : Fld := ⟨15, 0⟩
abbrev CLK_MGMT_RBUS_MHZ : Fld := ⟨31, 16⟩
abbrev CLK_MGMT_CORE_MHZ : Fld := ⟨15, 0⟩
abbrev CLK_GATE_OBS : Fld := ⟨19, 19⟩
abbrev CLK_GATE_COLL : Fld := ⟨18, 18⟩
abbrev CLK_GATE_HP : Fld := ⟨17, 16⟩
abbrev CLK_GATE_SY : Fld := ⟨15, 0⟩
abbrev CLK_STAT_REF_OK : Fld := ⟨63, 63⟩
abbrev CLK_STAT_HOLDOVER : Fld := ⟨62, 62⟩
abbrev CLK_STAT_GATED_ACC : Fld := ⟨47, 32⟩
abbrev CLK_STAT_HUNG : Fld := ⟨31, 16⟩
abbrev CLK_STAT_GATE_REJ : Fld := ⟨0, 0⟩
abbrev CLK_OBS_EN : Fld := ⟨63, 63⟩
abbrev CLK_OBS_OVR : Fld := ⟨62, 62⟩
abbrev CLK_OBS_SEL : Fld := ⟨43, 32⟩
abbrev CLK_OBS_N : Fld := ⟨20, 16⟩
abbrev CLK_BYPASS_GO : Fld := ⟨63, 63⟩
abbrev CLK_BYPASS_ISLAND : Fld := ⟨11, 0⟩
abbrev CLK_ISL_STAT_HUNG : Fld := ⟨63, 63⟩
abbrev CLK_ISL_STAT_SRC : Fld := ⟨62, 62⟩
abbrev CLK_ISL_STAT_CAL : Fld := ⟨61, 61⟩
abbrev CLK_ISL_STAT_GATED : Fld := ⟨60, 60⟩
abbrev CLK_ISL_STAT_TRIM : Fld := ⟨55, 48⟩
abbrev CLK_ISL_STAT_MHZ : Fld := ⟨47, 32⟩
abbrev CLK_ISL_STAT_STRETCH : Fld := ⟨31, 0⟩
abbrev THM_COOL_VALID : Fld := ⟨63, 63⟩
abbrev THM_COOL_INLET : Fld := ⟨47, 32⟩
abbrev THM_COOL_FLOW : Fld := ⟨31, 16⟩
abbrev THM_COOL_RTH : Fld := ⟨15, 0⟩
abbrev THM_STAT_MODEL_READY : Fld := ⟨63, 63⟩
abbrev THM_STAT_COOL_ERR : Fld := ⟨62, 62⟩
abbrev THM_STAT_LIMIT : Fld := ⟨47, 32⟩
abbrev THM_STAT_CRIT : Fld := ⟨31, 16⟩
abbrev THM_STAT_THROTTLED : Fld := ⟨15, 0⟩
abbrev THM_LIM_SHUT : Fld := ⟨63, 48⟩
abbrev THM_LIM_CRIT : Fld := ⟨47, 32⟩
abbrev THM_LIM_MAX : Fld := ⟨31, 16⟩
abbrev THM_LIM_THR : Fld := ⟨15, 0⟩
abbrev THM_CNT_COUNT : Fld := ⟨63, 0⟩
abbrev THM_TRIP_V : Fld := ⟨63, 63⟩
abbrev THM_TRIP_TOWER : Fld := ⟨55, 52⟩
abbrev THM_TRIP_LAYER : Fld := ⟨51, 47⟩
abbrev THM_TRIP_REGION : Fld := ⟨46, 44⟩
abbrev THM_TRIP_VALUE : Fld := ⟨15, 0⟩
abbrev THM_TWR_THROTTLED : Fld := ⟨63, 63⟩
abbrev THM_TWR_CRIT : Fld := ⟨62, 62⟩
abbrev THM_TWR_OVERRIDE : Fld := ⟨61, 61⟩
abbrev THM_TWR_GMAX : Fld := ⟨47, 32⟩
abbrev THM_TWR_TMAX : Fld := ⟨31, 16⟩
abbrev THM_TWR_W : Fld := ⟨15, 0⟩
abbrev THM_SENS_STATUS : Fld := ⟨63, 62⟩
abbrev THM_SENS_MODEL : Fld := ⟨47, 32⟩
abbrev THM_SENS_CTRL : Fld := ⟨31, 16⟩
abbrev THM_SENS_READING : Fld := ⟨15, 0⟩
abbrev BOOT_STAT_HALTED : Fld := ⟨63, 63⟩
abbrev BOOT_STAT_READY : Fld := ⟨62, 62⟩
abbrev BOOT_STAT_SHORT : Fld := ⟨61, 61⟩
abbrev BOOT_STAT_FRR_FULL : Fld := ⟨60, 60⟩
abbrev BOOT_STAT_LINK_LATE : Fld := ⟨59, 59⟩
abbrev BOOT_STAT_FRR_USED : Fld := ⟨41, 32⟩
abbrev BOOT_STAT_OUT : Fld := ⟨26, 16⟩
abbrev BOOT_STAT_STAGE : Fld := ⟨3, 0⟩
abbrev BOOT_FAIL_CODE : Fld := ⟨63, 56⟩
abbrev BOOT_FAIL_STAGE : Fld := ⟨55, 52⟩
abbrev BOOT_FAIL_KIND : Fld := ⟨51, 48⟩
abbrev BOOT_FAIL_INDEX : Fld := ⟨47, 36⟩
abbrev BOOT_FAIL_DETAIL : Fld := ⟨35, 0⟩
abbrev BOOT_FW_VERSION : Fld := ⟨63, 32⟩
abbrev BOOT_FW_SVN : Fld := ⟨31, 24⟩
abbrev BOOT_FW_MIN_SVN : Fld := ⟨23, 16⟩
abbrev BOOT_FW_KEY : Fld := ⟨15, 12⟩
abbrev BOOT_FW_SLOT : Fld := ⟨11, 8⟩
abbrev BOOT_FW_REVOKED : Fld := ⟨7, 4⟩
abbrev BOOT_FW_CTL_RAISES_LEFT : Fld := ⟨6, 2⟩
abbrev BOOT_FW_CTL_COMMIT_ERR : Fld := ⟨1, 1⟩
abbrev BOOT_FW_CTL_COMMIT : Fld := ⟨0, 0⟩
abbrev BOOT_FW_DIGEST_DIGEST : Fld := ⟨63, 0⟩
abbrev BOOT_TICK_TICK : Fld := ⟨63, 0⟩
abbrev RST_CTL_COLD : Fld := ⟨0, 0⟩
abbrev RST_CFG_PERST_COLD : Fld := ⟨2, 1⟩
abbrev RST_CFG_WDOG_EN : Fld := ⟨0, 0⟩
abbrev RST_CAUSE_WDOG : Fld := ⟨6, 6⟩
abbrev RST_CAUSE_PERST : Fld := ⟨5, 4⟩
abbrev RST_CAUSE_SOFT : Fld := ⟨3, 3⟩
abbrev RST_CAUSE_PIN : Fld := ⟨2, 2⟩
abbrev RST_CAUSE_POWER : Fld := ⟨1, 1⟩
abbrev RST_CNT_WDOG : Fld := ⟨63, 32⟩
abbrev RST_CNT_COLD : Fld := ⟨31, 0⟩
abbrev ID_DEVICE_FAMILY : Fld := ⟨63, 48⟩
abbrev ID_DEVICE_PART : Fld := ⟨47, 32⟩
abbrev ID_DEVICE_STEP_MAJOR : Fld := ⟨31, 24⟩
abbrev ID_DEVICE_STEP_MINOR : Fld := ⟨23, 16⟩
abbrev ID_DEVICE_SETT_MAJOR : Fld := ⟨15, 8⟩
abbrev ID_GRADE_FUSED : Fld := ⟨47, 32⟩
abbrev ID_GRADE_STAGED : Fld := ⟨31, 16⟩
abbrev ID_GRADE_GRADE : Fld := ⟨15, 0⟩
abbrev ID_SERIAL0_SERIAL : Fld := ⟨63, 0⟩
abbrev ID_SERIAL1_SERIAL : Fld := ⟨63, 0⟩
abbrev ID_VIEW_DENIED : Fld := ⟨63, 32⟩
abbrev ID_VIEW_PARTIAL : Fld := ⟨31, 16⟩
abbrev ID_VIEW_VIEW : Fld := ⟨1, 0⟩
abbrev LCS_TENANT_TENANT_MAX : Fld := ⟨15, 8⟩
abbrev LCS_TENANT_SNAP : Fld := ⟨3, 3⟩
abbrev LCS_TENANT_LOG : Fld := ⟨2, 2⟩
abbrev LCS_TENANT_CE_TELEM : Fld := ⟨1, 1⟩
abbrev LCS_TENANT_DOM_TELEM : Fld := ⟨0, 0⟩
abbrev LCS_GRADE_GRADE : Fld := ⟨15, 0⟩
abbrev LCS_LEFT_GRADE : Fld := ⟨42, 40⟩
abbrev LCS_LEFT_SLOPES : Fld := ⟨36, 32⟩
abbrev LCS_LEFT_TENANT : Fld := ⟨27, 24⟩
abbrev LCS_LEFT_ID : Fld := ⟨19, 16⟩
abbrev LCS_LEFT_ROLES : Fld := ⟨11, 8⟩
abbrev LCS_LEFT_CEILING : Fld := ⟨4, 0⟩
abbrev LCS_LEDGER_W0_TICK : Fld := ⟨63, 0⟩
abbrev LCS_LEDGER_W1_VALUE : Fld := ⟨63, 0⟩
abbrev LCS_LEDGER_W2_SETTING : Fld := ⟨63, 56⟩
abbrev LCS_LEDGER_W2_SLOT : Fld := ⟨55, 48⟩
abbrev LCS_LEDGER_W2_CRED : Fld := ⟨47, 45⟩
abbrev LCS_LEDGER_W2_VALID : Fld := ⟨44, 44⟩
abbrev LCS_LEDGER_W2_TORN : Fld := ⟨43, 43⟩
abbrev LCS_LEDGER_W2_CRC : Fld := ⟨31, 0⟩
abbrev LCS_LEDGER_W3_PREV : Fld := ⟨63, 0⟩
abbrev LCS_STAT_COMMISSIONED : Fld := ⟨63, 63⟩
abbrev LCS_STAT_SESSION : Fld := ⟨62, 62⟩
abbrev LCS_STAT_SESS_CRED : Fld := ⟨61, 59⟩
abbrev LCS_STAT_BUSY : Fld := ⟨58, 58⟩
abbrev LCS_STAT_BOUND : Fld := ⟨47, 40⟩
abbrev LCS_STAT_REVOKED : Fld := ⟨39, 32⟩
abbrev LCS_STAT_AUTH_RES : Fld := ⟨26, 24⟩
abbrev LCS_STAT_LAST_REJ : Fld := ⟨18, 16⟩
abbrev LCS_STAT_SESS_LEFT : Fld := ⟨15, 0⟩
abbrev LCS_NONCE_DATA : Fld := ⟨63, 0⟩
abbrev LCS_AUTH_KEY_DATA : Fld := ⟨63, 0⟩
abbrev LCS_AUTH_SIG_DATA : Fld := ⟨63, 0⟩
abbrev LCS_AUTH_CTL_OPEN : Fld := ⟨63, 63⟩
abbrev LCS_AUTH_CTL_CLOSE : Fld := ⟨62, 62⟩
abbrev LCS_AUTH_CTL_BIND : Fld := ⟨61, 61⟩
abbrev LCS_AUTH_CTL_SEAL : Fld := ⟨60, 60⟩
abbrev LCS_AUTH_CTL_REVOKE : Fld := ⟨59, 59⟩
abbrev LCS_AUTH_CTL_INDEX : Fld := ⟨2, 0⟩

end Fld

/-- Shorthands for the field lists below: the access code, then whether the field is OP. -/
def fd (f : Fld) (a : Acc) (op : Bool := false) : FieldDesc := ⟨f, a, op⟩

/-- The register heading of each register. A Reset column of — is 0 here (log entry 166). -/
def RegId.desc : RegId → RegDesc
  | .MEM_ILV_STAGE => ⟨0x408000, [(64, 0x8)], .oper, .cold, 0x0,
      [fd Fld.MEM_ILV_STAGE_STRIPED .rw true]⟩
  | .MEM_ILV_ACTIVE => ⟨0x408200, [(64, 0x8)], .oper, .cold, 0x0,
      [fd Fld.MEM_ILV_ACTIVE_STRIPED .ro true]⟩
  | .MEM_ILV_STAT => ⟨0x408400, [], .oper, .cold, 0x0,
      [fd Fld.MEM_ILV_STAT_PENDING .ro true, fd Fld.MEM_ILV_STAT_FORCED_SETS .ro true]⟩
  | .ECC_CE_COUNT => ⟨0x410000, [(8, 0x8)], .both, .cold, 0x0,
      [fd Fld.ECC_CE_COUNT_COUNT .ro]⟩
  | .ECC_STAT => ⟨0x410040, [], .oper, .cold, 0x0,
      [fd Fld.ECC_STAT_TBL_OVF .ro true, fd Fld.ECC_STAT_MISMATCH .ro true, fd Fld.ECC_STAT_UE .ro true]⟩
  | .ECC_CFG => ⟨0x410048, [], .oper, .cold, 0x4000020010,
      [fd Fld.ECC_CFG_LANE_THRESH .rw true, fd Fld.ECC_CFG_BANK_ROWS .rw true, fd Fld.ECC_CFG_ROW_THRESH .rw true]⟩
  | .ECC_REPAIR_PEND => ⟨0x410050, [], .oper, .cold, 0x0,
      [fd Fld.ECC_REPAIR_PEND_NO_SPARE .ro true, fd Fld.ECC_REPAIR_PEND_CTL_LANES .ro true, fd Fld.ECC_REPAIR_PEND_DATA_LANES .ro true,
       fd Fld.ECC_REPAIR_PEND_BANKS .ro true]⟩
  | .ECC_TBL => ⟨0x420000, [(16, 0x200), (32, 0x10)], .oper, .cold, 0x0,
      [fd Fld.ECC_TBL_VALID .ro true, fd Fld.ECC_TBL_KIND .ro true, fd Fld.ECC_TBL_LOCAL .ro true, fd Fld.ECC_TBL_DIE .ro true,
       fd Fld.ECC_TBL_P .ro true, fd Fld.ECC_TBL_ROW .ro true, fd Fld.ECC_TBL_SYMBOL .ro true, fd Fld.ECC_TBL_LANE .ro true,
       fd Fld.ECC_TBL_NOMINATED .ro true, fd Fld.ECC_TBL_COUNT .ro true]⟩
  | .ECC_TBL_TICK => ⟨0x420008, [(16, 0x200), (32, 0x10)], .oper, .cold, 0x0,
      [fd Fld.ECC_TBL_TICK_LAST_TICK .ro true]⟩
  | .ECC_INJ => ⟨0x410058, [], .oper, .cold, 0x0,
      [fd Fld.ECC_INJ_ARM .rw true, fd Fld.ECC_INJ_SYMBOL .rw true, fd Fld.ECC_INJ_MASK .rw true, fd Fld.ECC_INJ_ADDR .rw true]⟩
  | .MEM_SCRUB_CTL => ⟨0x408800, [], .oper, .cold, 0x10C01,
      [fd Fld.MEM_SCRUB_CTL_PASSES .ro true, fd Fld.MEM_SCRUB_CTL_BOOST .ro true, fd Fld.MEM_SCRUB_CTL_PASS_H .rw true,
       fd Fld.MEM_SCRUB_CTL_EN .rw true]⟩
  | .MEM_REFR_STAT => ⟨0x408810, [], .oper, .cold, 0x0,
      [fd Fld.MEM_REFR_STAT_HOT .ro true, fd Fld.MEM_REFR_STAT_ACTIVE .ro true]⟩
  | .MX_STAT => ⟨0x1000400, [(16, 0x100000), (64, 0x2000)], .both, .compute, 0x0,
      [fd Fld.MX_STAT_LAST_REJ .ro, fd Fld.MX_STAT_HALTED .ro, fd Fld.MX_STAT_BALLAST .ro, fd Fld.MX_STAT_BUSY .ro,
       fd Fld.MX_STAT_QDEPTH .ro]⟩
  | .MX_CNT_STREAM => ⟨0x1000408, [(16, 0x100000), (64, 0x2000)], .both, .compute, 0x0,
      [fd Fld.MX_CNT_STREAM_CYCLES .ro]⟩
  | .MX_CNT_STALL => ⟨0x1000410, [(16, 0x100000), (64, 0x2000)], .both, .compute, 0x0,
      [fd Fld.MX_CNT_STALL_FRONT .ro, fd Fld.MX_CNT_STALL_SUPPLY .ro]⟩
  | .MX_CNT_FLAG => ⟨0x1000418, [(16, 0x100000), (64, 0x2000)], .both, .compute, 0x0,
      [fd Fld.MX_CNT_FLAG_SAT .ro, fd Fld.MX_CNT_FLAG_INX .ro]⟩
  | .CORE_STAT => ⟨0x1000000, [(16, 0x100000), (64, 0x2000)], .both, .compute, 0x0,
      [fd Fld.CORE_STAT_EXIT .ro, fd Fld.CORE_STAT_STOPPED .ro, fd Fld.CORE_STAT_HALTED .ro, fd Fld.CORE_STAT_INTRAP .ro,
       fd Fld.CORE_STAT_RUN .ro]⟩
  | .CORE_TRAP => ⟨0x1000008, [(16, 0x100000), (64, 0x2000)], .both, .compute, 0x0,
      [fd Fld.CORE_TRAP_CODE .ro, fd Fld.CORE_TRAP_STATUS .ro, fd Fld.CORE_TRAP_COUNT .ro]⟩
  | .CORE_EPC => ⟨0x1000010, [(16, 0x100000), (64, 0x2000)], .both, .compute, 0x0,
      [fd Fld.CORE_EPC_VALUE .ro]⟩
  | .CORE_TVAL => ⟨0x1000018, [(16, 0x100000), (64, 0x2000)], .both, .compute, 0x0,
      [fd Fld.CORE_TVAL_VALUE .ro]⟩
  | .CORE_QSTALL => ⟨0x1000020, [(16, 0x100000), (64, 0x2000)], .both, .compute, 0x0,
      [fd Fld.CORE_QSTALL_CYCLES .ro]⟩
  | .VX_STAT => ⟨0x1000500, [(16, 0x100000), (64, 0x2000), (4, 0x8)], .both, .compute, 0x0,
      [fd Fld.VX_STAT_LAST_REJ .ro, fd Fld.VX_STAT_HALTED .ro, fd Fld.VX_STAT_BUSY .ro, fd Fld.VX_STAT_QDEPTH .ro]⟩
  | .DMA_CH_CFG => ⟨0x1000600, [(16, 0x100000), (64, 0x2000), (16, 0x20)], .both, .compute, 0x400000,
      [fd Fld.DMA_CH_CFG_RSZ .rw, fd Fld.DMA_CH_CFG_BASE .rw]⟩
  | .DMA_CH_PTR => ⟨0x1000608, [(16, 0x100000), (64, 0x2000), (16, 0x20)], .both, .compute, 0x0,
      [fd Fld.DMA_CH_PTR_TAIL .ro, fd Fld.DMA_CH_PTR_HEAD .ro]⟩
  | .DMA_CH_STAT => ⟨0x1000610, [(16, 0x100000), (64, 0x2000), (16, 0x20)], .both, .compute, 0x0,
      [fd Fld.DMA_CH_STAT_STATUS .ro, fd Fld.DMA_CH_STAT_FAIL_IDX .ro, fd Fld.DMA_CH_STAT_KICK_ERR .w1c, fd Fld.DMA_CH_STAT_HALTED .ro,
       fd Fld.DMA_CH_STAT_BUSY .ro]⟩
  | .SP_CFG => ⟨0x1000800, [(16, 0x100000), (64, 0x2000)], .both, .compute, 0x0,
      [fd Fld.SP_CFG_FIXED .rw]⟩
  | .SP_CNT => ⟨0x1000808, [(16, 0x100000), (64, 0x2000)], .both, .compute, 0x0,
      [fd Fld.SP_CNT_WAITS .ro]⟩
  | .ROC_CNT => ⟨0x1000810, [(16, 0x100000), (64, 0x2000)], .both, .compute, 0x0,
      [fd Fld.ROC_CNT_MISS .ro, fd Fld.ROC_CNT_HIT .ro]⟩
  | .NB_S_TGT => ⟨0x1080000, [(16, 0x100000), (64, 0x400)], .slot, .compute, 0x0,
      [fd Fld.NB_S_TGT_MODE .rw, fd Fld.NB_S_TGT_L .rw, fd Fld.NB_S_TGT_DIE .rw, fd Fld.NB_S_TGT_P .rw, fd Fld.NB_S_TGT_GROUP .rw]⟩
  | .NB_S_MASK => ⟨0x1080008, [(16, 0x100000), (64, 0x400)], .slot, .compute, 0x0,
      [fd Fld.NB_S_MASK_BANKMASK .rw, fd Fld.NB_S_MASK_DIEMASK .rw]⟩
  | .NB_S_CMD => ⟨0x1080010, [(16, 0x100000), (64, 0x400)], .slot, .compute, 0x0,
      [fd Fld.NB_S_CMD_KIND .wo, fd Fld.NB_S_CMD_PC .wo, fd Fld.NB_S_CMD_PRELEN .wo, fd Fld.NB_S_CMD_DESC .wo,
       fd Fld.NB_S_CMD_STORE .wo, fd Fld.NB_S_CMD_RESERVED .wo, fd Fld.NB_S_CMD_TAG .wo]⟩
  | .NB_S_RANGE_IN => ⟨0x1080018, [(16, 0x100000), (64, 0x400)], .slot, .compute, 0x0,
      [fd Fld.NB_S_RANGE_IN_LEN .rw, fd Fld.NB_S_RANGE_IN_BASE .rw]⟩
  | .NB_S_RANGE_OUT => ⟨0x1080020, [(16, 0x100000), (64, 0x400)], .slot, .compute, 0x0,
      [fd Fld.NB_S_RANGE_OUT_LEN .rw, fd Fld.NB_S_RANGE_OUT_BASE .rw]⟩
  | .NB_S_STAT => ⟨0x1080028, [(16, 0x100000), (64, 0x400)], .slot, .compute, 0x0,
      [fd Fld.NB_S_STAT_BUSY .ro, fd Fld.NB_S_STAT_FAIL .ro, fd Fld.NB_S_STAT_OVR .w1c, fd Fld.NB_S_STAT_TARGETS .ro,
       fd Fld.NB_S_STAT_DONE_CNT .ro, fd Fld.NB_S_STAT_FAIL_CNT .ro]⟩
  | .NB_S_FAIL => ⟨0x1080030, [(16, 0x100000), (64, 0x400)], .slot, .compute, 0x0,
      [fd Fld.NB_S_FAIL_STATUS .ro, fd Fld.NB_S_FAIL_UPC .ro, fd Fld.NB_S_FAIL_L .ro, fd Fld.NB_S_FAIL_DIE .ro, fd Fld.NB_S_FAIL_P .ro]⟩
  | .NB_S_P => ⟨0x1080040, [(16, 0x100000), (64, 0x400), (16, 0x8)], .slot, .compute, 0x0,
      [fd Fld.NB_S_P_VALUE .rw]⟩
  | .NB_S_DATA => ⟨0x1080200, [(16, 0x100000), (64, 0x400), (64, 0x8)], .slot, .compute, 0x0,
      [fd Fld.NB_S_DATA_DATA .rw]⟩
  | .NB_CAP => ⟨0x1090000, [(16, 0x100000)], .oper, .compute, 0x400000808080,
      [fd Fld.NB_CAP_DEPTH .rw true, fd Fld.NB_CAP_RATE_EFF .ro true, fd Fld.NB_CAP_RATE_LIMIT .ro true, fd Fld.NB_CAP_RATE .rw true]⟩
  | .NB_PSTAT => ⟨0x1000900, [(16, 0x100000), (64, 0x2000)], .both, .compute, 0x0,
      [fd Fld.NB_PSTAT_PENDING .ro, fd Fld.NB_PSTAT_RUNNING .ro]⟩
  | .NB_PCNT_COL => ⟨0x1000908, [(16, 0x100000), (64, 0x2000)], .both, .compute, 0x0,
      [fd Fld.NB_PCNT_COL_COLUMNS .ro]⟩
  | .NB_PCNT_THR => ⟨0x1000910, [(16, 0x100000), (64, 0x2000)], .both, .compute, 0x0,
      [fd Fld.NB_PCNT_THR_SHORTENED .ro, fd Fld.NB_PCNT_THR_WAIT8 .ro]⟩
  | .KV_CFG => ⟨0x600000, [], .oper, .cold, 0x64000000000600,
      [fd Fld.KV_CFG_SPILL_WAIT .rw true, fd Fld.KV_CFG_HL .rw true, fd Fld.KV_CFG_AUTO_PREEMPT .rw true]⟩
  | .KV_POOL_STAT => ⟨0x600008, [], .both, .compute, 0x0,
      [fd Fld.KV_POOL_STAT_BANKS .ro, fd Fld.KV_POOL_STAT_PIDS_FREE .ro]⟩
  | .KV_CLS => ⟨0x600010, [(3, 0x8)], .both, .compute, 0x0,
      [fd Fld.KV_CLS_FRAMES .ro, fd Fld.KV_CLS_FREE .ro]⟩
  | .KV_WM => ⟨0x600028, [(3, 0x8)], .oper, .cold, 0x0,
      [fd Fld.KV_WM_HIGH .rw true, fd Fld.KV_WM_LOW .rw true]⟩
  | .KV_EPOCH => ⟨0x600040, [], .both, .compute, 0x0,
      [fd Fld.KV_EPOCH_E .ro]⟩
  | .KV_PIN => ⟨0x600048, [], .both, .compute, 0xFFFFFFFFFFFFFFFF,
      [fd Fld.KV_PIN_OLDEST .ro]⟩
  | .KV_STEP => ⟨0x600050, [], .both, .compute, 0x0,
      [fd Fld.KV_STEP_G .ro]⟩
  | .KV_RETIRED => ⟨0x600058, [], .both, .compute, 0x0,
      [fd Fld.KV_RETIRED_FRAMES .ro, fd Fld.KV_RETIRED_SLOTS .ro]⟩
  | .KV_POOL_CFG0 => ⟨0x600060, [], .oper, .cold, 0x0,
      [fd Fld.KV_POOL_CFG0_LFIRST .ro true, fd Fld.KV_POOL_CFG0_LLAST .ro true, fd Fld.KV_POOL_CFG0_DIEMASK .ro true]⟩
  | .KV_POOL_CFG1 => ⟨0x600068, [], .oper, .cold, 0x0,
      [fd Fld.KV_POOL_CFG1_BANKMASK .ro true]⟩
  | .KV_POOL_CFG2 => ⟨0x600070, [], .oper, .cold, 0x0,
      [fd Fld.KV_POOL_CFG2_N2 .ro true, fd Fld.KV_POOL_CFG2_N1 .ro true]⟩
  | .KV_META => ⟨0x600078, [], .oper, .cold, 0x0,
      [fd Fld.KV_META_SIZE .ro true, fd Fld.KV_META_BASE .ro true]⟩
  | .KV_SPILL_AREA => ⟨0x600080, [], .oper, .cold, 0x0,
      [fd Fld.KV_SPILL_AREA_SIZE .ro true, fd Fld.KV_SPILL_AREA_BASE .ro true]⟩
  | .KV_SWAP_AREA => ⟨0x600088, [], .oper, .cold, 0x0,
      [fd Fld.KV_SWAP_AREA_SIZE .ro true, fd Fld.KV_SWAP_AREA_BASE .ro true]⟩
  | .KV_CNT => ⟨0x600100, [(8, 0x8)], .both, .compute, 0x0,
      [fd Fld.KV_CNT_COUNT .ro]⟩
  | .KV_SEQ => ⟨0x602000, [(1024, 0x8)], .both, .compute, 0x0,
      [fd Fld.KV_SEQ_STATE .ro, fd Fld.KV_SEQ_PROFILE .ro, fd Fld.KV_SEQ_LEN .ro, fd Fld.KV_SEQ_PRIO .ro]⟩
  | .MRG_STAT => ⟨0x10A0000, [(16, 0x100000)], .both, .compute, 0x0,
      [fd Fld.MRG_STAT_OPEN .ro]⟩
  | .MRG_CNT => ⟨0x10A0008, [(16, 0x100000)], .both, .compute, 0x0,
      [fd Fld.MRG_CNT_RECORDS .ro, fd Fld.MRG_CNT_NOCREDIT .ro]⟩
  | .KV_ATT_CNT => ⟨0x600140, [(8, 0x8)], .both, .compute, 0x0,
      [fd Fld.KV_ATT_CNT_COUNT .ro]⟩
  | .TC_CFG => ⟨0x500000, [(16, 0x1000)], .both, .cold, 0x2,
      [fd Fld.TC_CFG_CMODE .rw true, fd Fld.TC_CFG_PF_EN .rw, fd Fld.TC_CFG_DET .rw]⟩
  | .TC_PIN_QUOTA => ⟨0x500008, [(16, 0x1000)], .oper, .cold, 0x8,
      [fd Fld.TC_PIN_QUOTA_QUOTA .rw true]⟩
  | .TC_THRASH => ⟨0x500010, [(16, 0x1000)], .oper, .cold, 0x1080,
      [fd Fld.TC_THRASH_WIN .rw true, fd Fld.TC_THRASH_THRESH .rw true]⟩
  | .TC_CTL => ⟨0x500018, [(16, 0x1000)], .both, .compute, 0x0,
      [fd Fld.TC_CTL_INV .rw true, fd Fld.TC_CTL_FLUSH .w1s true, fd Fld.TC_CTL_RCLOSE .w1s, fd Fld.TC_CTL_UNPIN .w1s]⟩
  | .TC_STAT => ⟨0x500020, [(16, 0x1000)], .both, .compute, 0x0,
      [fd Fld.TC_STAT_DIRTY .ro, fd Fld.TC_STAT_KEEP .ro, fd Fld.TC_STAT_PENDING .ro, fd Fld.TC_STAT_INSVC .ro,
       fd Fld.TC_STAT_FLUSHING .ro, fd Fld.TC_STAT_THRASH .w1c]⟩
  | .TC_WAY_EN => ⟨0x500028, [(16, 0x1000)], .oper, .cold, 0xFFFF,
      [fd Fld.TC_WAY_EN_EN .rw true]⟩
  | .TC_CNT => ⟨0x500040, [(16, 0x1000), (8, 0x8)], .both, .compute, 0x0,
      [fd Fld.TC_CNT_COUNT .ro]⟩
  | .QD_STAT => ⟨0x100000, [], .both, .cold, 0x0,
      [fd Fld.QD_STAT_HELD .ro, fd Fld.QD_STAT_INFLIGHT .ro, fd Fld.QD_STAT_FENCE_LAST .ro]⟩
  | .QD_SQ_BASE => ⟨0x110000, [(256, 0x40)], .oper, .cold, 0x0,
      [fd Fld.QD_SQ_BASE_BASE .rw true]⟩
  | .QD_CQ_BASE => ⟨0x110008, [(256, 0x40)], .oper, .cold, 0x0,
      [fd Fld.QD_CQ_BASE_BASE .rw true]⟩
  | .QD_Q_CFG => ⟨0x110010, [(256, 0x40)], .oper, .cold, 0x1,
      [fd Fld.QD_Q_CFG_JOB .rw true, fd Fld.QD_Q_CFG_VEC .rw true, fd Fld.QD_Q_CFG_PORT .rw true, fd Fld.QD_Q_CFG_OWNER .rw true,
       fd Fld.QD_Q_CFG_QSZ .rw true]⟩
  | .QD_Q_CTL => ⟨0x110018, [(256, 0x40)], .queue, .cold, 0x0,
      [fd Fld.QD_Q_CTL_FENCE_ACK .w1s, fd Fld.QD_Q_CTL_RESET .w1s, fd Fld.QD_Q_CTL_EN .rw true]⟩
  | .QD_Q_STAT => ⟨0x110020, [(256, 0x40)], .queue, .cold, 0x0,
      [fd Fld.QD_Q_STAT_FENCE .ro, fd Fld.QD_Q_STAT_INFLIGHT .ro, fd Fld.QD_Q_STAT_CQ_ERR .ro, fd Fld.QD_Q_STAT_CFG_ERR .ro,
       fd Fld.QD_Q_STAT_DB_ERR .w1c, fd Fld.QD_Q_STAT_ERROR .ro, fd Fld.QD_Q_STAT_FENCED .ro, fd Fld.QD_Q_STAT_ENABLED .ro]⟩
  | .QD_Q_PTR => ⟨0x110028, [(256, 0x40)], .queue, .cold, 0x0,
      [fd Fld.QD_Q_PTR_CQ_TAIL .ro, fd Fld.QD_Q_PTR_CQ_HEAD .ro, fd Fld.QD_Q_PTR_SQ_TAIL .ro, fd Fld.QD_Q_PTR_SQ_HEAD .ro]⟩
  | .QD_Q_COUNT => ⟨0x110030, [(256, 0x40)], .queue, .cold, 0x0,
      [fd Fld.QD_Q_COUNT_COUNT .ro]⟩
  | .QD_DB_SQ => ⟨0x120000, [(256, 0x10)], .queue, .cold, 0x0,
      [fd Fld.QD_DB_SQ_VALUE .wo]⟩
  | .QD_DB_CQ => ⟨0x120008, [(256, 0x10)], .queue, .cold, 0x0,
      [fd Fld.QD_DB_CQ_VALUE .wo]⟩
  | .SYN_ID => ⟨0x700000, [], .oper, .cold, 0x0,
      [fd Fld.SYN_ID_SET .ro true, fd Fld.SYN_ID_ID .rwl true]⟩
  | .SYN_CFG => ⟨0x700008, [], .oper, .cold, 0xC80002,
      [fd Fld.SYN_CFG_LINK_HOLD .rw true, fd Fld.SYN_CFG_TIME_MASTER .rw true, fd Fld.SYN_CFG_RVIEW .rw true, fd Fld.SYN_CFG_EN .rw true]⟩
  | .SYN_STAT => ⟨0x700010, [], .both, .cold, 0x0,
      [fd Fld.SYN_STAT_ID .ro, fd Fld.SYN_STAT_MEMBERS .ro, fd Fld.SYN_STAT_MSTATE .ro, fd Fld.SYN_STAT_PORTS_UP .ro]⟩
  | .SYN_TIME => ⟨0x700018, [], .both, .cold, 0x0,
      [fd Fld.SYN_TIME_LOCKED .ro, fd Fld.SYN_TIME_STRATUM .ro, fd Fld.SYN_TIME_PARENT .ro, fd Fld.SYN_TIME_OFFSET .ro]⟩
  | .SYN_PORT_STAT => ⟨0x700100, [(16, 0x8)], .oper, .cold, 0x0,
      [fd Fld.SYN_PORT_STAT_NEIGH .ro true, fd Fld.SYN_PORT_STAT_LANES .ro true, fd Fld.SYN_PORT_STAT_SPARE_V .ro true,
       fd Fld.SYN_PORT_STAT_SPARE .ro true, fd Fld.SYN_PORT_STAT_STATE .ro true]⟩
  | .SYN_PORT_CNT => ⟨0x700200, [(16, 0x8)], .oper, .cold, 0x0,
      [fd Fld.SYN_PORT_CNT_REPLAYS .ro true, fd Fld.SYN_PORT_CNT_LANE_EVENTS .ro true, fd Fld.SYN_PORT_CNT_RETRAINS .ro true]⟩
  | .SYN_CNT => ⟨0x700300, [], .oper, .cold, 0x0,
      [fd Fld.SYN_CNT_NO_DJ .ro true, fd Fld.SYN_CNT_DISCARD .ro true, fd Fld.SYN_CNT_AGED .ro true]⟩
  | .SYN_RT => ⟨0x720000, [(16384, 0x8)], .oper, .cold, 0x0,
      [fd Fld.SYN_RT_ENTRY_ODD .rw true, fd Fld.SYN_RT_ENTRY_EVEN .rw true]⟩
  | .WIN_OUT => ⟨0x740000, [(4096, 0x8)], .both, .compute, 0x0,
      [fd Fld.WIN_OUT_V .rw, fd Fld.WIN_OUT_INDEX .rw, fd Fld.WIN_OUT_GEN .rw, fd Fld.WIN_OUT_DEV .rw]⟩
  | .WIN_IN_A => ⟨0x750000, [(4096, 0x10)], .both, .cold, 0x0,
      [fd Fld.WIN_IN_A_STATE .ro, fd Fld.WIN_IN_A_GEN .ro, fd Fld.WIN_IN_A_JOB .ro, fd Fld.WIN_IN_A_PEER .ro, fd Fld.WIN_IN_A_ACCESS .ro]⟩
  | .WIN_IN_B => ⟨0x750008, [(4096, 0x10)], .both, .cold, 0x0,
      [fd Fld.WIN_IN_B_CLOSED_REJ .ro, fd Fld.WIN_IN_B_STALE_REJ .ro, fd Fld.WIN_IN_B_TORN .ro]⟩
  | .HP_ROLE => ⟨0x800000, [], .oper, .cold, 0x11,
      [fd Fld.HP_ROLE_HP1_BIF .rwl true, fd Fld.HP_ROLE_HP1_ROLE .rwl true, fd Fld.HP_ROLE_HP0_BIF .rwl true,
       fd Fld.HP_ROLE_HP0_ROLE .rwl true]⟩
  | .HP_CFG => ⟨0x800008, [], .oper, .cold, 0x3E8,
      [fd Fld.HP_CFG_BI_TIMEOUT .rw true]⟩
  | .HP_LINK_STAT => ⟨0x800010, [(4, 0x8)], .both, .cold, 0x0,
      [fd Fld.HP_LINK_STAT_ERRORS .ro, fd Fld.HP_LINK_STAT_DEVICES .ro, fd Fld.HP_LINK_STAT_IDE .ro, fd Fld.HP_LINK_STAT_FLIT .ro,
       fd Fld.HP_LINK_STAT_CXL .ro, fd Fld.HP_LINK_STAT_WIDTH .ro, fd Fld.HP_LINK_STAT_GEN .ro, fd Fld.HP_LINK_STAT_UP .ro]⟩
  | .HP_SPILL_CFG => ⟨0x800040, [], .oper, .cold, 0x0,
      [fd Fld.HP_SPILL_CFG_ILV .rw true]⟩
  | .HP_SPILL_STAT => ⟨0x800048, [], .both, .cold, 0x0,
      [fd Fld.HP_SPILL_STAT_LOST .ro, fd Fld.HP_SPILL_STAT_DEVICES .ro, fd Fld.HP_SPILL_STAT_INTERLEAVED .ro, fd Fld.HP_SPILL_STAT_CAP .ro]⟩
  | .HP_HDM_SHARE => ⟨0x801000, [(64, 0x8)], .oper, .cold, 0x0,
      [fd Fld.HP_HDM_SHARE_SHARED .rw true]⟩
  | .HP_HWIN => ⟨0x802000, [(256, 0x18)], .oper, .cold, 0x0,
      [fd Fld.HP_HWIN_V .ro true, fd Fld.HP_HWIN_PORT .ro true, fd Fld.HP_HWIN_DEV .ro true]⟩
  | .HP_HWIN_HOST => ⟨0x802008, [(256, 0x18)], .oper, .cold, 0x0,
      [fd Fld.HP_HWIN_HOST_HOST .ro true]⟩
  | .HP_HWIN_SIZE => ⟨0x802010, [(256, 0x18)], .oper, .cold, 0x0,
      [fd Fld.HP_HWIN_SIZE_SIZE .ro true]⟩
  | .SYN_COLL_CFG => ⟨0x701000, [], .oper, .cold, 0x3E8,
      [fd Fld.SYN_COLL_CFG_TIMEOUT .rw true]⟩
  | .SYN_COLL_STAT => ⟨0x701008, [], .both, .compute, 0x0,
      [fd Fld.SYN_COLL_STAT_DROPPED .ro, fd Fld.SYN_COLL_STAT_RUNNING .ro, fd Fld.SYN_COLL_STAT_FAILED .ro]⟩
  | .LOG_CFG => ⟨0x200000, [], .oper, .cold, 0x3C015801000000,
      [fd Fld.LOG_CFG_CE_PERIOD .rw true, fd Fld.LOG_CFG_IRQ_MASK .rw true, fd Fld.LOG_CFG_ALERT_MASK .rw true,
       fd Fld.LOG_CFG_PORT .rw true, fd Fld.LOG_CFG_VEC .rw true]⟩
  | .LOG_STAT => ⟨0x200008, [], .both, .cold, 0x0,
      [fd Fld.LOG_STAT_NEXT_SEQ .ro, fd Fld.LOG_STAT_OLDEST_SEQ .ro]⟩
  | .LOG_LOST => ⟨0x200010, [], .oper, .cold, 0x0,
      [fd Fld.LOG_LOST_COUNT .ro true]⟩
  | .LOG_CTL => ⟨0x200018, [], .oper, .cold, 0x0,
      [fd Fld.LOG_CTL_CLEAR .w1s true]⟩
  | .LOG_RCV_STAT => ⟨0x200020, [], .both, .cold, 0x0,
      [fd Fld.LOG_RCV_STAT_FENCE .ro, fd Fld.LOG_RCV_STAT_STAGE .ro, fd Fld.LOG_RCV_STAT_RESTARTS .ro, fd Fld.LOG_RCV_STAT_JOBS .ro,
       fd Fld.LOG_RCV_STAT_RESOURCES .ro]⟩
  | .LOG_RCV_CNT => ⟨0x200028, [], .oper, .cold, 0x0,
      [fd Fld.LOG_RCV_CNT_RECOVERIES .ro true, fd Fld.LOG_RCV_CNT_RESTARTS .ro true, fd Fld.LOG_RCV_CNT_HELD .ro true]⟩
  | .LOG_ENTRY_W0 => ⟨0x210000, [(8192, 0x20)], .both, .cold, 0x0,
      [fd Fld.LOG_ENTRY_W0_WORD .ro]⟩
  | .LOG_ENTRY_W1 => ⟨0x210008, [(8192, 0x20)], .both, .cold, 0x0,
      [fd Fld.LOG_ENTRY_W1_WORD .ro]⟩
  | .LOG_ENTRY_W2 => ⟨0x210010, [(8192, 0x20)], .both, .cold, 0x0,
      [fd Fld.LOG_ENTRY_W2_WORD .ro]⟩
  | .LOG_ENTRY_W3 => ⟨0x210018, [(8192, 0x20)], .both, .cold, 0x0,
      [fd Fld.LOG_ENTRY_W3_WORD .ro]⟩
  | .PWR_CEILING => ⟨0x300000, [], .oper, .cold, 0xBB8,
      [fd Fld.PWR_CEILING_WATTS .rwl true]⟩
  | .PWR_IN => ⟨0x300008, [], .both, .cold, 0x0,
      [fd Fld.PWR_IN_VIN .ro, fd Fld.PWR_IN_IIN .ro, fd Fld.PWR_IN_PIN .ro]⟩
  | .PWR_REF => ⟨0x300010, [], .both, .cold, 0x14000FF,
      [fd Fld.PWR_REF_BALLAST_MAX .ro, fd Fld.PWR_REF_IDLE .ro, fd Fld.PWR_REF_IBC_GOOD .ro]⟩
  | .PWR_BUF => ⟨0x300018, [], .both, .cold, 0x2580000,
      [fd Fld.PWR_BUF_SHUNT_KJ .ro, fd Fld.PWR_BUF_BOOST .ro, fd Fld.PWR_BUF_SHUNT .ro]⟩
  | .PWR_DOM_STAT => ⟨0x301000, [(1051, 0x8)], .both, .cold, 0x0,
      [fd Fld.PWR_DOM_STAT_DARK .ro, fd Fld.PWR_DOM_STAT_GATED .ro, fd Fld.PWR_DOM_STAT_PHASE_GOOD .ro,
       fd Fld.PWR_DOM_STAT_CAP_PCT .ro, fd Fld.PWR_DOM_STAT_VSET .ro, fd Fld.PWR_DOM_STAT_ISEC .ro, fd Fld.PWR_DOM_STAT_IMAIN .ro]⟩
  | .HRD_SLOPE_UP => ⟨0x320000, [], .oper, .cold, 0x7D0,
      [fd Fld.HRD_SLOPE_UP_RATE .rw true]⟩
  | .HRD_SLOPE_DN => ⟨0x320008, [], .oper, .cold, 0x3E8,
      [fd Fld.HRD_SLOPE_DN_RATE .rw true]⟩
  | .HRD_SLOPE_CEIL => ⟨0x320010, [], .oper, .cold, 0x186A0000186A0,
      [fd Fld.HRD_SLOPE_CEIL_DN_CEIL .rwl true, fd Fld.HRD_SLOPE_CEIL_UP_CEIL .rwl true]⟩
  | .HRD_AVG => ⟨0x320018, [], .oper, .cold, 0x0,
      [fd Fld.HRD_AVG_L60 .rw true, fd Fld.HRD_AVG_L10 .rw true, fd Fld.HRD_AVG_L1 .rw true]⟩
  | .HRD_BALLAST => ⟨0x320020, [], .oper, .cold, 0x0,
      [fd Fld.HRD_BALLAST_HOLD .rw true, fd Fld.HRD_BALLAST_FLOOR .rw true]⟩
  | .HRD_COORD => ⟨0x320028, [], .oper, .cold, 0x0,
      [fd Fld.HRD_COORD_V .rw true, fd Fld.HRD_COORD_SELF .rw true, fd Fld.HRD_COORD_PRIO .rw true, fd Fld.HRD_COORD_ID .rw true]⟩
  | .HRD_FLEET => ⟨0x320030, [], .oper, .cold, 0x0,
      [fd Fld.HRD_FLEET_DN_W .rw true, fd Fld.HRD_FLEET_UP_W .rw true]⟩
  | .HRD_STAT => ⟨0x320040, [], .both, .cold, 0x140000000000000,
      [fd Fld.HRD_STAT_ENV .ro, fd Fld.HRD_STAT_TARGET .ro, fd Fld.HRD_STAT_DEMAND .ro, fd Fld.HRD_STAT_MEASURED .ro]⟩
  | .HRD_REASON => ⟨0x320048, [], .both, .cold, 0x0,
      [fd Fld.HRD_REASON_BIND_BAL .ro, fd Fld.HRD_REASON_BIND_THR .ro, fd Fld.HRD_REASON_ACTIVE .ro]⟩
  | .HRD_EPOCH => ⟨0x320050, [], .both, .cold, 0x0,
      [fd Fld.HRD_EPOCH_EPOCH .ro]⟩
  | .HRD_GRANT => ⟨0x320058, [], .both, .cold, 0x0,
      [fd Fld.HRD_GRANT_MISSED .ro, fd Fld.HRD_GRANT_UP .ro, fd Fld.HRD_GRANT_DN .ro]⟩
  | .HRD_THR_TIME => ⟨0x320100, [(16, 0x8)], .both, .cold, 0x0,
      [fd Fld.HRD_THR_TIME_US .ro]⟩
  | .CLK_CLASS => ⟨0x380000, [(4, 0x8)], .both, .cold, 0x0,
      [fd Fld.CLK_CLASS_FMAX .ro, fd Fld.CLK_CLASS_PENDING .ro, fd Fld.CLK_CLASS_MHZ .ro]⟩
  | .CLK_MGMT => ⟨0x380040, [], .oper, .cold, 0x12C04B0,
      [fd Fld.CLK_MGMT_RBUS_MHZ .rw true, fd Fld.CLK_MGMT_CORE_MHZ .rw true]⟩
  | .CLK_GATE => ⟨0x380048, [], .oper, .cold, 0x0,
      [fd Fld.CLK_GATE_OBS .rw true, fd Fld.CLK_GATE_COLL .rw true, fd Fld.CLK_GATE_HP .rw true, fd Fld.CLK_GATE_SY .rw true]⟩
  | .CLK_STAT => ⟨0x380050, [], .both, .cold, 0x0,
      [fd Fld.CLK_STAT_REF_OK .ro, fd Fld.CLK_STAT_HOLDOVER .ro, fd Fld.CLK_STAT_GATED_ACC .ro, fd Fld.CLK_STAT_HUNG .ro,
       fd Fld.CLK_STAT_GATE_REJ .w1c]⟩
  | .CLK_OBS => ⟨0x380058, [], .oper, .cold, 0x10000,
      [fd Fld.CLK_OBS_EN .rw true, fd Fld.CLK_OBS_OVR .ro true, fd Fld.CLK_OBS_SEL .rw true, fd Fld.CLK_OBS_N .rw true]⟩
  | .CLK_BYPASS => ⟨0x380060, [], .oper, .cold, 0x0,
      [fd Fld.CLK_BYPASS_GO .w1s true, fd Fld.CLK_BYPASS_ISLAND .rw true]⟩
  | .CLK_ISL_STAT => ⟨0x390000, [(2107, 0x8)], .both, .cold, 0x0,
      [fd Fld.CLK_ISL_STAT_HUNG .ro, fd Fld.CLK_ISL_STAT_SRC .ro, fd Fld.CLK_ISL_STAT_CAL .ro, fd Fld.CLK_ISL_STAT_GATED .ro,
       fd Fld.CLK_ISL_STAT_TRIM .ro, fd Fld.CLK_ISL_STAT_MHZ .ro, fd Fld.CLK_ISL_STAT_STRETCH .ro]⟩
  | .THM_COOL => ⟨0x340000, [], .oper, .cold, 0x0,
      [fd Fld.THM_COOL_VALID .ro true, fd Fld.THM_COOL_INLET .rw true, fd Fld.THM_COOL_FLOW .rw true, fd Fld.THM_COOL_RTH .rw true]⟩
  | .THM_STAT => ⟨0x340008, [], .both, .cold, 0x7D000000000,
      [fd Fld.THM_STAT_MODEL_READY .ro, fd Fld.THM_STAT_COOL_ERR .w1c, fd Fld.THM_STAT_LIMIT .ro, fd Fld.THM_STAT_CRIT .ro,
       fd Fld.THM_STAT_THROTTLED .ro]⟩
  | .THM_LIM => ⟨0x340010, [(4, 0x8)], .oper, .cold, 0x0,
      [fd Fld.THM_LIM_SHUT .ro true, fd Fld.THM_LIM_CRIT .ro true, fd Fld.THM_LIM_MAX .ro true, fd Fld.THM_LIM_THR .rw true]⟩
  | .THM_CNT => ⟨0x340040, [(4, 0x8)], .both, .cold, 0x0,
      [fd Fld.THM_CNT_COUNT .ro]⟩
  | .THM_TRIP => ⟨0x340080, [], .oper, .powerOn, 0x0,
      [fd Fld.THM_TRIP_V .ro true, fd Fld.THM_TRIP_TOWER .ro true, fd Fld.THM_TRIP_LAYER .ro true, fd Fld.THM_TRIP_REGION .ro true,
       fd Fld.THM_TRIP_VALUE .ro true]⟩
  | .THM_TWR => ⟨0x340100, [(16, 0x8)], .both, .cold, 0xAAFFFF,
      [fd Fld.THM_TWR_THROTTLED .ro, fd Fld.THM_TWR_CRIT .ro, fd Fld.THM_TWR_OVERRIDE .ro, fd Fld.THM_TWR_GMAX .ro,
       fd Fld.THM_TWR_TMAX .ro, fd Fld.THM_TWR_W .ro]⟩
  | .THM_SENS => ⟨0x350000, [(3392, 0x8)], .both, .cold, 0x0,
      [fd Fld.THM_SENS_STATUS .ro, fd Fld.THM_SENS_MODEL .ro, fd Fld.THM_SENS_CTRL .ro, fd Fld.THM_SENS_READING .ro]⟩
  | .BOOT_STAT => ⟨0x900000, [], .both, .cold, 0x1,
      [fd Fld.BOOT_STAT_HALTED .ro, fd Fld.BOOT_STAT_READY .ro, fd Fld.BOOT_STAT_SHORT .ro, fd Fld.BOOT_STAT_FRR_FULL .ro,
       fd Fld.BOOT_STAT_LINK_LATE .ro, fd Fld.BOOT_STAT_FRR_USED .ro, fd Fld.BOOT_STAT_OUT .ro, fd Fld.BOOT_STAT_STAGE .ro]⟩
  | .BOOT_FAIL => ⟨0x900008, [], .oper, .cold, 0x0,
      [fd Fld.BOOT_FAIL_CODE .ro true, fd Fld.BOOT_FAIL_STAGE .ro true, fd Fld.BOOT_FAIL_KIND .ro true,
       fd Fld.BOOT_FAIL_INDEX .ro true, fd Fld.BOOT_FAIL_DETAIL .ro true]⟩
  | .BOOT_FW => ⟨0x900010, [], .both, .cold, 0x0,
      [fd Fld.BOOT_FW_VERSION .ro, fd Fld.BOOT_FW_SVN .ro, fd Fld.BOOT_FW_MIN_SVN .ro, fd Fld.BOOT_FW_KEY .ro, fd Fld.BOOT_FW_SLOT .ro,
       fd Fld.BOOT_FW_REVOKED .ro]⟩
  | .BOOT_FW_CTL => ⟨0x900018, [], .oper, .cold, 0x7C,
      [fd Fld.BOOT_FW_CTL_RAISES_LEFT .ro true, fd Fld.BOOT_FW_CTL_COMMIT_ERR .w1c true, fd Fld.BOOT_FW_CTL_COMMIT .w1s true]⟩
  | .BOOT_FW_DIGEST => ⟨0x900020, [(6, 0x8)], .both, .cold, 0x0,
      [fd Fld.BOOT_FW_DIGEST_DIGEST .ro]⟩
  | .BOOT_TICK => ⟨0x900100, [(16, 0x8)], .both, .cold, 0x0,
      [fd Fld.BOOT_TICK_TICK .ro]⟩
  | .RST_CTL => ⟨0x901000, [], .oper, .cold, 0x0,
      [fd Fld.RST_CTL_COLD .w1s true]⟩
  | .RST_CFG => ⟨0x901008, [], .oper, .cold, 0x1,
      [fd Fld.RST_CFG_PERST_COLD .rw true, fd Fld.RST_CFG_WDOG_EN .rw true]⟩
  | .RST_CAUSE => ⟨0x901010, [], .oper, .powerOn, 0x2,
      [fd Fld.RST_CAUSE_WDOG .ro true, fd Fld.RST_CAUSE_PERST .ro true, fd Fld.RST_CAUSE_SOFT .ro true, fd Fld.RST_CAUSE_PIN .ro true,
       fd Fld.RST_CAUSE_POWER .ro true]⟩
  | .RST_CNT => ⟨0x901018, [], .oper, .powerOn, 0x0,
      [fd Fld.RST_CNT_WDOG .ro true, fd Fld.RST_CNT_COLD .ro true]⟩
  | .ID_DEVICE => ⟨0x0, [], .both, .cold, 0xD5A000100000100,
      [fd Fld.ID_DEVICE_FAMILY .ro, fd Fld.ID_DEVICE_PART .ro, fd Fld.ID_DEVICE_STEP_MAJOR .ro, fd Fld.ID_DEVICE_STEP_MINOR .ro,
       fd Fld.ID_DEVICE_SETT_MAJOR .ro]⟩
  | .ID_GRADE => ⟨0x8, [], .both, .cold, 0x3E803E803E8,
      [fd Fld.ID_GRADE_FUSED .ro, fd Fld.ID_GRADE_STAGED .ro, fd Fld.ID_GRADE_GRADE .ro]⟩
  | .ID_SERIAL0 => ⟨0x10, [], .both, .cold, 0x0,
      [fd Fld.ID_SERIAL0_SERIAL .ro]⟩
  | .ID_SERIAL1 => ⟨0x18, [], .both, .cold, 0x0,
      [fd Fld.ID_SERIAL1_SERIAL .ro]⟩
  | .ID_VIEW => ⟨0x20, [], .both, .cold, 0x0,
      [fd Fld.ID_VIEW_DENIED .ro true, fd Fld.ID_VIEW_PARTIAL .ro true, fd Fld.ID_VIEW_VIEW .ro]⟩
  | .LCS_TENANT => ⟨0xA00010, [], .oper, .cold, 0xFF0F,
      [fd Fld.LCS_TENANT_TENANT_MAX .rwl true, fd Fld.LCS_TENANT_SNAP .rwl true, fd Fld.LCS_TENANT_LOG .rwl true,
       fd Fld.LCS_TENANT_CE_TELEM .rwl true, fd Fld.LCS_TENANT_DOM_TELEM .rwl true]⟩
  | .LCS_GRADE => ⟨0xA00018, [], .oper, .cold, 0x3E8,
      [fd Fld.LCS_GRADE_GRADE .rwl true]⟩
  | .LCS_LEFT => ⟨0xA00008, [], .oper, .cold, 0x41008080810,
      [fd Fld.LCS_LEFT_GRADE .ro true, fd Fld.LCS_LEFT_SLOPES .ro true, fd Fld.LCS_LEFT_TENANT .ro true, fd Fld.LCS_LEFT_ID .ro true,
       fd Fld.LCS_LEFT_ROLES .ro true, fd Fld.LCS_LEFT_CEILING .ro true]⟩
  | .LCS_LEDGER_W0 => ⟨0xA10000, [(60, 0x20)], .oper, .cold, 0x0,
      [fd Fld.LCS_LEDGER_W0_TICK .ro true]⟩
  | .LCS_LEDGER_W1 => ⟨0xA10008, [(60, 0x20)], .oper, .cold, 0x0,
      [fd Fld.LCS_LEDGER_W1_VALUE .ro true]⟩
  | .LCS_LEDGER_W2 => ⟨0xA10010, [(60, 0x20)], .oper, .cold, 0x0,
      [fd Fld.LCS_LEDGER_W2_SETTING .ro true, fd Fld.LCS_LEDGER_W2_SLOT .ro true, fd Fld.LCS_LEDGER_W2_CRED .ro true,
       fd Fld.LCS_LEDGER_W2_VALID .ro true, fd Fld.LCS_LEDGER_W2_TORN .ro true, fd Fld.LCS_LEDGER_W2_CRC .ro true]⟩
  | .LCS_LEDGER_W3 => ⟨0xA10018, [(60, 0x20)], .oper, .cold, 0x0,
      [fd Fld.LCS_LEDGER_W3_PREV .ro true]⟩
  | .LCS_STAT => ⟨0xA00000, [], .oper, .cold, 0x0,
      [fd Fld.LCS_STAT_COMMISSIONED .ro true, fd Fld.LCS_STAT_SESSION .ro true, fd Fld.LCS_STAT_SESS_CRED .ro true,
       fd Fld.LCS_STAT_BUSY .ro true, fd Fld.LCS_STAT_BOUND .ro true, fd Fld.LCS_STAT_REVOKED .ro true,
       fd Fld.LCS_STAT_AUTH_RES .ro true, fd Fld.LCS_STAT_LAST_REJ .ro true, fd Fld.LCS_STAT_SESS_LEFT .ro true]⟩
  | .LCS_NONCE => ⟨0xA00100, [(6, 0x8)], .oper, .cold, 0x0,
      [fd Fld.LCS_NONCE_DATA .ro true]⟩
  | .LCS_AUTH_KEY => ⟨0xA00200, [(12, 0x8)], .oper, .cold, 0x0,
      [fd Fld.LCS_AUTH_KEY_DATA .rw true]⟩
  | .LCS_AUTH_SIG => ⟨0xA00300, [(12, 0x8)], .oper, .cold, 0x0,
      [fd Fld.LCS_AUTH_SIG_DATA .rw true]⟩
  | .LCS_AUTH_CTL => ⟨0xA00400, [], .oper, .cold, 0x0,
      [fd Fld.LCS_AUTH_CTL_OPEN .w1s true, fd Fld.LCS_AUTH_CTL_CLOSE .w1s true, fd Fld.LCS_AUTH_CTL_BIND .w1s true,
       fd Fld.LCS_AUTH_CTL_SEAL .w1s true, fd Fld.LCS_AUTH_CTL_REVOKE .w1s true, fd Fld.LCS_AUTH_CTL_INDEX .rw true]⟩

/-- The registers, part 1. -/
def RegId.list1 : List RegId :=
  [.MEM_ILV_STAGE, .MEM_ILV_ACTIVE, .MEM_ILV_STAT, .ECC_CE_COUNT, .ECC_STAT, .ECC_CFG, .ECC_REPAIR_PEND, .ECC_TBL, .ECC_TBL_TICK,
       .ECC_INJ, .MEM_SCRUB_CTL, .MEM_REFR_STAT, .MX_STAT, .MX_CNT_STREAM, .MX_CNT_STALL, .MX_CNT_FLAG, .CORE_STAT, .CORE_TRAP,
       .CORE_EPC, .CORE_TVAL, .CORE_QSTALL, .VX_STAT, .DMA_CH_CFG, .DMA_CH_PTR, .DMA_CH_STAT, .SP_CFG, .SP_CNT, .ROC_CNT, .NB_S_TGT,
       .NB_S_MASK, .NB_S_CMD, .NB_S_RANGE_IN, .NB_S_RANGE_OUT, .NB_S_STAT, .NB_S_FAIL, .NB_S_P, .NB_S_DATA, .NB_CAP, .NB_PSTAT,
       .NB_PCNT_COL]
/-- The registers, part 2. -/
def RegId.list2 : List RegId :=
  [.NB_PCNT_THR, .KV_CFG, .KV_POOL_STAT, .KV_CLS, .KV_WM, .KV_EPOCH, .KV_PIN, .KV_STEP, .KV_RETIRED, .KV_POOL_CFG0, .KV_POOL_CFG1,
       .KV_POOL_CFG2, .KV_META, .KV_SPILL_AREA, .KV_SWAP_AREA, .KV_CNT, .KV_SEQ, .MRG_STAT, .MRG_CNT, .KV_ATT_CNT, .TC_CFG,
       .TC_PIN_QUOTA, .TC_THRASH, .TC_CTL, .TC_STAT, .TC_WAY_EN, .TC_CNT, .QD_STAT, .QD_SQ_BASE, .QD_CQ_BASE, .QD_Q_CFG, .QD_Q_CTL,
       .QD_Q_STAT, .QD_Q_PTR, .QD_Q_COUNT, .QD_DB_SQ, .QD_DB_CQ, .SYN_ID, .SYN_CFG, .SYN_STAT]
/-- The registers, part 3. -/
def RegId.list3 : List RegId :=
  [.SYN_TIME, .SYN_PORT_STAT, .SYN_PORT_CNT, .SYN_CNT, .SYN_RT, .WIN_OUT, .WIN_IN_A, .WIN_IN_B, .HP_ROLE, .HP_CFG, .HP_LINK_STAT,
       .HP_SPILL_CFG, .HP_SPILL_STAT, .HP_HDM_SHARE, .HP_HWIN, .HP_HWIN_HOST, .HP_HWIN_SIZE, .SYN_COLL_CFG, .SYN_COLL_STAT, .LOG_CFG,
       .LOG_STAT, .LOG_LOST, .LOG_CTL, .LOG_RCV_STAT, .LOG_RCV_CNT, .LOG_ENTRY_W0, .LOG_ENTRY_W1, .LOG_ENTRY_W2, .LOG_ENTRY_W3,
       .PWR_CEILING, .PWR_IN, .PWR_REF, .PWR_BUF, .PWR_DOM_STAT, .HRD_SLOPE_UP, .HRD_SLOPE_DN, .HRD_SLOPE_CEIL, .HRD_AVG, .HRD_BALLAST,
       .HRD_COORD]
/-- The registers, part 4. -/
def RegId.list4 : List RegId :=
  [.HRD_FLEET, .HRD_STAT, .HRD_REASON, .HRD_EPOCH, .HRD_GRANT, .HRD_THR_TIME, .CLK_CLASS, .CLK_MGMT, .CLK_GATE, .CLK_STAT, .CLK_OBS,
       .CLK_BYPASS, .CLK_ISL_STAT, .THM_COOL, .THM_STAT, .THM_LIM, .THM_CNT, .THM_TRIP, .THM_TWR, .THM_SENS, .BOOT_STAT, .BOOT_FAIL,
       .BOOT_FW, .BOOT_FW_CTL, .BOOT_FW_DIGEST, .BOOT_TICK, .RST_CTL, .RST_CFG, .RST_CAUSE, .RST_CNT, .ID_DEVICE, .ID_GRADE,
       .ID_SERIAL0, .ID_SERIAL1, .ID_VIEW, .LCS_TENANT, .LCS_GRADE, .LCS_LEFT, .LCS_LEDGER_W0, .LCS_LEDGER_W1]
/-- The registers, part 5. -/
def RegId.list5 : List RegId :=
  [.LCS_LEDGER_W2, .LCS_LEDGER_W3, .LCS_STAT, .LCS_NONCE, .LCS_AUTH_KEY, .LCS_AUTH_SIG, .LCS_AUTH_CTL]
/-- Every register name. -/
def RegId.all : List RegId := RegId.list1 ++ RegId.list2 ++ RegId.list3 ++ RegId.list4 ++ RegId.list5

end Sys2Proof.Machine
end

