-- ==== Sys2Proof/Machine/State.lean ====
section
/-! DEFINITION. The state of the block, its reset value, and the reasons a step can stop. -/

namespace Sys2Proof.Machine

/-- Reasons a step ends in a fault. -/
inductive Fault where
  /-- A register access or a command fetch while CLK_MGMT holds a ratio outside 2 to 8: R397 leaves the behaviour
  undefined. Raised by the register rows and COMMAND_FETCH. Safe. -/
  | mgmtClockRatio
  deriving DecidableEq, Repr

/-- Reasons a step is refused. -/
inductive Refusal where
  /-- No meaning is written for the command of this mnemonic. Raised by exec's arms only. Safe. -/
  | notModelled (mnemonic : String)
  deriving DecidableEq, Repr

/-- The block. -/
structure State where
  /-- Commands waiting, first in, first out. -/
  pending : List Instr
  /-- The device tick (R16). -/
  tick : Nat
  /-- Free values taken so far (the model's own; log entry 1). -/
  freeCtr : Nat
  /-- Register words by view offset, where they differ from the reset word (R14, R443). -/
  regs : Tbl Word
  /-- Stack DRAM, scratchpads and spill tier by issued device physical address (R38). -/
  mem : List Host.Cell
  /-- Stored check symbols by word number, as their deviation from the correct ones (R64, R70). -/
  chk : Tbl (BitVec 16)
  /-- Bytes the tower cache lines hold, by issued address; an unlisted byte of a line is 0 (R238, R239). -/
  tcBytes : List Host.Cell
  /-- Stored check symbols of the words in lines, as their deviation from the correct ones, by word number (R239, R245). -/
  tcDev : Tbl (BitVec 16)
  topo : Topo
  ecc : Ecc
  /-- Refresh state by bank (R62). -/
  refr : Tbl Refr
  tc : Tbl Tc
  nb : Tbl NbUnit
  /-- Near-bank commands on their way to units: (bank, command), oldest first (R149). -/
  nbFlight : List (Nat × NbCmd)
  /-- Near-bank commands of each slot not yet reported, by 64 t + s: banks (R151). -/
  nbOut : Tbl (List Nat)
  bucket : Tbl Bucket
  /-- Accesses held at a bank for its running unit (R155), oldest first: (bank, access). -/
  nbHeld : List (Nat × MemReq)
  /-- Accesses of commands' steps that wait for a bank (R155, R165; log entry 21). -/
  nbBlock : List NbBlock
  clu : Tbl Clu
  /-- Current job of each logical cluster (R335). -/
  jobOf : Tbl Nat
  log : LogSt
  rcv : Rcv
  cmds : List Cmd
  qd : Tbl QSt
  nextCmd : Nat
  /-- The queue served last (R262). -/
  turn : Nat
  launches : List Launch
  graphs : List Graph
  chans : List (Option Chan)
  kv : Kv
  mrg : Tbl Mrg
  floor : List FloorCtx
  attends : List Attend
  /-- Runs of attention passes at their units (R226). -/
  pageRuns : List PageRun
  syn : Syn
  host : HostSt
  groups : Tbl Group
  readies : List Ready
  colls : List Coll
  pwr : Pwr
  clk : Clk
  thm : Thm
  lcs : Lcs
  boot : Boot
  tenant : Nat
  /-- The device reports ready (R338). -/
  ready : Bool
  out : List Output
  deriving DecidableEq, Repr

/-- The block right after a cold reset from power-on has begun: no stage of bring-up is complete (R423, R425). -/
def State.reset : State :=
  { pending := [], tick := 0, freeCtr := 0, regs := [], mem := [], chk := [], tcBytes := [], tcDev := [],
    topo := { loaded := false, lmap := [], out := [], bankSpare := [], badSpare := [], dataSpare := [], ctlSpare := [], half := [],
              badData := [], deadLanes := [], badCtl := [], readLat := [], lat := [], dark := [], closed := [], bonds := [] },
    ecc := { noms := [], hits := [], perTower := [], cmdTries := [], scrub := [], scrubbed := [], skipped := [] },
    refr := [], tc := [], nb := [], nbFlight := [], nbOut := [], bucket := [], nbHeld := [], nbBlock := [], clu := [], jobOf := [],
    log := ⟨[], [], []⟩, rcv := Rcv.init, cmds := [], qd := [], nextCmd := 0, turn := 255, launches := [], graphs := [],
    chans := List.replicate 8 none, kv := Kv.init, mrg := [], floor := [], attends := [], pageRuns := [], syn := Syn.init,
    host := HostSt.init, groups := [], readies := [], colls := [],
    pwr := Pwr.init 320, clk := Clk.init, thm := Thm.init, lcs := Lcs.init, boot := Boot.init, tenant := 0, ready := false, out := [] }

end Sys2Proof.Machine
end

