-- ==== Sys2Proof/Machine/Ops.lean ====
section
/-! DEFINITION. The named operations over the state: registers and their fields, free values, the log, the logical map and
the address map. -/

namespace Sys2Proof.Machine

/-- The outcome of a command. -/
abbrev Res3 := Host.Outcome State Fault Refusal

/-- Whether the always-on domain runs, with its tick, log and fuse controller: also when the rest of the device is halted, held
in reset or shut down (R362, R396, R419, R427). -/
def State.counts (s : State) : Bool :=
  (s.boot.life == .run || s.boot.life == .halted || s.boot.life == .held || s.boot.life == .shut) && !s.boot.resetN
/-- Whether the device runs: its converters are on, no reset holds it, and bring-up has not halted. -/
def State.alive (s : State) : Bool := s.boot.life == .run && !s.boot.resetN

/-- Whether ALERT_N is asserted (R466). -/
def alertOn (s : State) : Bool :=
  s.boot.alert || s.boot.life == .halted || s.boot.life == .dark || s.boot.life == .shut || s.clk.lossTold

/-! ### Registers -/

/-- The offset of a register of an array: base plus index times stride, index by index (R443). -/
def offsetOf : List (Nat × Nat) → List Nat → Nat
  | d :: ds, i :: is => d.2 * i + offsetOf ds is
  | _, _ => 0

/-- The view offset of a register. -/
def RegId.off (r : RegId) (ix : List Nat) : Nat := r.desc.base + offsetOf r.desc.dims ix

/-- The word a register holds at reset where the heading gives a rule for it: the phases of R362, the clock classes of
R388 and the temperature limits of R414; elsewhere the Reset column (log entry 3 for fuse and ledger fields). DESIGN CHOICE (log
entry 166): LCS_NONCE, LCS_AUTH_KEY and LCS_AUTH_SIG, whose column is —, hold 0. -/
def resetWord (r : RegId) (ix : List Nat) : Nat :=
  match r, ix with
  | .PWR_DOM_STAT, d :: _ => setBits (setBits r.desc.reset Fld.PWR_DOM_STAT_PHASE_GOOD.hi Fld.PWR_DOM_STAT_PHASE_GOOD.lo
      (if d < 1024 then 0xF else 0x3F)) Fld.PWR_DOM_STAT_CAP_PCT.hi Fld.PWR_DOM_STAT_CAP_PCT.lo 100
  | .CLK_CLASS, k :: _ => let f := if k = 0 ∨ k = 2 then 2000 else 1500; f * 2 ^ 48 + f
  | .THM_LIM, k :: _ =>
    (match k with
     | 0 => 120 * 2 ^ 48 + 115 * 2 ^ 32 + 110 * 2 ^ 16 + 100
     | 1 => 115 * 2 ^ 48 + 110 * 2 ^ 32 + 105 * 2 ^ 16 + 95
     | 2 => 110 * 2 ^ 48 + 105 * 2 ^ 32 + 100 * 2 ^ 16 + 90
     | _ => 105 * 2 ^ 48 + 100 * 2 ^ 32 + 95 * 2 ^ 16 + 88)
  | _, _ => r.desc.reset

/-- The word a register holds. -/
def rget (s : State) (r : RegId) (ix : List Nat) : Nat :=
  match tfind s.regs (r.off ix) with
  | some w => w.toNat
  | none => resetWord r ix

/-- Write a register's word. -/
def rput (s : State) (r : RegId) (ix : List Nat) (v : Nat) : State :=
  { s with regs := tput (r.off ix) (BitVec.ofNat 64 v) s.regs }

/-- Read a field (R11). -/
def fget (s : State) (r : RegId) (ix : List Nat) (f : Fld) : Nat := bits (rget s r ix) f.hi f.lo

/-- Write a field; bits beyond its width are cut off. -/
def fset (s : State) (r : RegId) (ix : List Nat) (f : Fld) (v : Nat) : State :=
  rput s r ix (setBits (rget s r ix) f.hi f.lo v)

/-- Add to a counter field that saturates at its width. -/
def finc (s : State) (r : RegId) (ix : List Nat) (f : Fld) (n : Nat) : State :=
  fset s r ix f (min (2 ^ (f.hi + 1 - f.lo) - 1) (fget s r ix f + n))

/-- Add to a counter field that wraps. -/
def fincWrap (s : State) (r : RegId) (ix : List Nat) (f : Fld) (n : Nat) : State := fset s r ix f (fget s r ix f + n)

/-- A field as a flag. -/
def fbit (s : State) (r : RegId) (ix : List Nat) (f : Fld) : Bool := fget s r ix f == 1

/-- Whether the first ready after a cold reset has been reached (R426, R428). -/
def booted (s : State) : Bool := fget s .BOOT_STAT [] Fld.BOOT_STAT_STAGE == 14

/-- Indices (tower, tower-local cluster) of the per-tower registers of physical cluster C (R21). -/
def tk (c : Nat) : List Nat := [c / 64, c % 64]

/-- Put the registers of the ids that satisfy `p` back to their reset words. -/
def regsReset (p : RegId → Bool) (s : State) : State :=
  let inReg : RegId → Nat → Bool := fun r o =>
    let d := r.desc
    match d.dims with
    | [] => o == d.base
    | [(n, st)] => (List.range n).any (fun i => o == d.base + st * i)
    | [(n, st), (m, su)] => decide (d.base ≤ o) && (List.range n).any (fun i =>
        decide (d.base + st * i ≤ o) && (o - d.base - st * i) % su == 0 && decide ((o - d.base - st * i) / su < m))
    | (n, st) :: (m, su) :: (k, sv) :: _ => (List.range n).any (fun i => (List.range m).any (fun j =>
        decide (d.base + st * i + su * j ≤ o) && (o - d.base - st * i - su * j) % sv == 0
        && decide ((o - d.base - st * i - su * j) / sv < k)))
  { s with regs := s.regs.filter (fun e => !(RegId.all.any (fun r => p r && inReg r e.1))) }

/-! ### A command's effect enters the state -/

/-- What a step must wait for is asked for, each once: back-invalidates go out (R316), and a near-bank step in progress is
shortened (R165). -/
def State.snoop (s : State) (hits : List Need) : State :=
  hits.foldl (fun (s : State) (x : Need) => match x with
    | .snoop x =>
      if s.host.snoops.any (fun y => y.line == x.line && y.port == x.port) then s
      else { s with host := { s.host with snoops := s.host.snoops ++ [x] },
                    out := s.out ++ [Output.cxl x.port (if x.inv then "BISnpInv" else "BISnpData") (64 * x.line)] }
    | .bank b a n out =>
      if s.nbBlock.any (fun y => y.bank == b && y.addr == a && y.len == n && y.out == out) then s
      else
        let s := { s with nbBlock := s.nbBlock ++ [⟨b, a, n, out, false, false⟩] }
        let u := tget NbUnit.init s.nb b
        match u.run with
        | some r =>
          if out || r.step.isNone || r.cut then s
          else finc { s with nb := tput b { u with run := some { r with cut := true } } s.nb } .NB_PCNT_THR (tk (b / 512))
            Fld.NB_PCNT_THR_SHORTENED 1
        | none => s
    | .clock => s) s

/-- An effect enters the state here: the queue keeps the commands that wait, and memory its canonical form. When the
effect meets a line a host holds, a bank that a unit or a refresh holds, or an island without a clock, the step only asks for
them, and the work is done when its row comes again after the answers (R155, R165, R316, R393; log entries 21, 178). -/
def State.runAny (s : State) (f : State → State) : Res3 :=
  let t := f { s with pending := [] }
  if t.host.hit.isEmpty then .next { t with pending := s.pending, mem := Memory.norm t.mem }
  else
    let u := { s with pending := [] }.snoop t.host.hit
    .next { u with pending := s.pending, mem := Memory.norm s.mem }

/-- An effect in the always-on domain; none while it does not run. -/
def State.runOn (s : State) (f : State → State) : Res3 := s.runAny (fun s => if s.counts then f s else s)

/-- A command's effect; none while the device does not run. -/
def State.run (s : State) (f : State → State) : Res3 := s.runAny (fun s => if s.alive then f s else s)

/-- As `run`, for a command that may fault. -/
def State.runF (s : State) (bad : Option Fault) (f : State → State) : Res3 :=
  match bad with
  | some r => .fault r
  | none => s.run f

/-! ### Free values -/

/-- Take a free value (log entry 1). -/
def free (s : State) : Nat × State := (Config.freeNat s.freeCtr, { s with freeCtr := s.freeCtr + 1 })

/-- Take `n` free bytes. -/
def freeBytes (s : State) (n : Nat) : List Byte × State :=
  ((List.range n).map (fun i => BitVec.ofNat 8 (Config.freeNat (s.freeCtr + i))), { s with freeCtr := s.freeCtr + n })

/-! ### Clocks of islands -/

/-- Whether an island has no clock: its loop lost lock, or its switch does not complete (R393, R395). A pillar takes its
cluster's. -/
def noClock (s : State) (i : Nat) : Bool :=
  let i := if 1024 ≤ i ∧ i < 2048 then i - 1024 else i
  s.clk.unlocked.contains i || (tfind s.clk.stuck i).isSome

/-- Floor quadrant of a tower's router (R19). -/
def towerQuad (t : Nat) : Nat := t / 8 * 2 + t % 4 / 2

/-- The routers of a packet from one tower's to another's: along its row, then along the column (R27). -/
def meshPath (a b : Nat) : List Nat :=
  let run := fun (x y : Nat) => (List.range (y - x + (x - y) + 1)).map (fun i => if x ≤ y then x + i else x - i)
  (run (a % 4) (b % 4)).map (fun x => a / 4 * 4 + x) ++ ((run (a / 4) (b / 4)).drop 1).map (fun y => 4 * y + b % 4)

/-- Whether a router, or a link of the quadrant it leaves, on the way from one tower's router to another's has no clock (R32; log
entry 178). -/
def pathStops (s : State) (a b : Nat) : Bool :=
  let l := meshPath a b
  l.any (fun t => noClock s (2064 + t)) || (l.dropLast).any (fun t => noClock s (2080 + towerQuad t))

/-- Whether a cluster runs nothing: its domain is dark, or its island has no clock (R365, R393). -/
def coreOff (s : State) (c : Nat) : Bool := s.topo.dark.contains c || noClock s c

/-! ### The log -/

/-- A report with no fence. -/
def mkRep (s : State) (ev cls kind idx status job detail : Nat) : Report :=
  { tick := s.tick, ev := ev, cls := cls, kind := kind, idx := idx, status := status, job := job, tenant := s.tenant,
    merged := false, restart := false, fence := false, fno := 0, detail := detail, more := [], steps := 0, shift := 0 }

/-- Send a report to the log (R353). -/
def sendRep (s : State) (r : Report) : State := { s with log := { s.log with waiting := s.log.waiting ++ [r] } }

/-- Step the tick in one go: reports that wait have been held as long as before (R299, R353). -/
def stepTick (t : Nat) (s : State) : State :=
  { s with tick := t,
           log := { s.log with waiting := s.log.waiting.map (fun (r : Report) =>
             { r with steps := r.steps + 1, shift := r.shift + ((t : Int) - s.tick) }) } }

/-- Report an event without a fence. -/
def logEv (s : State) (ev cls kind idx status job detail : Nat) : State :=
  sendRep s (mkRep s ev cls kind idx status job detail)

/-- Emit something to the surroundings. -/
def emit (s : State) (o : Output) : State := { s with out := s.out ++ [o] }

/-! ### Logical and physical -/

/-- The grade count n (R6). -/
def grade (s : State) : Nat := fget s .ID_GRADE [] Fld.ID_GRADE_GRADE

/-- Physical cluster of a logical number, if present (R34). -/
def physOf (s : State) (l : Nat) : Option Nat := lget none s.topo.lmap l

/-- Logical number of a physical cluster, if it holds one. -/
def logOf (s : State) (c : Nat) : Option Nat :=
  (List.range s.topo.lmap.length).find? (fun l => lget none s.topo.lmap l == some c)

/-- Whether a logical number is below n and present. -/
def present (s : State) (l : Nat) : Bool := decide (l < grade s) && (physOf s l).isSome

/-- Whether a physical cluster is an in-service spare (R8, R35). -/
def isSpare (s : State) (c : Nat) : Bool :=
  s.topo.loaded && decide (c < 1024) && (tfind s.topo.out c).isNone && !(s.topo.lmap.contains (some c))

/-- The in-service spares in ascending order. -/
def spares (s : State) : List Nat := (List.range 1024).filter (isSpare s)

/-- Whether the pillar of a logical number serves no access: its cluster is dark (R37) or its shaft closed (R350). -/
def offline (s : State) (l : Nat) : Bool :=
  match physOf s l with
  | none => false
  | some c => s.topo.dark.contains c || s.topo.closed.contains c

/-- Current job of a physical cluster (R335); 0 for a spare. -/
def jobOfC (s : State) (c : Nat) : Nat :=
  match logOf s c with
  | none => 0
  | some l => tget 0 s.jobOf l

/-! ### Address map (R38–R44) -/

/-- Where a device physical address lies (R38). -/
inductive Space where
  | stack (l off : Nat)
  | scratch (l off : Nat)
  | aperture (t off : Nat)
  | spill (off : Nat)
  | hostWin
  | remote
  | reserved
  deriving DecidableEq, Repr

def spBase : Nat := 0x040000000000
def apBase : Nat := 0x040100000000
def spillBase : Nat := 0x100000000000

/-- Decode the ranges of R38. -/
def spaceOf (a : Nat) : Space :=
  if a < spBase then .stack (a / 2 ^ 32) (a % 2 ^ 32)
  else if a < apBase then .scratch ((a - spBase) / 2 ^ 22) ((a - spBase) % 2 ^ 22)
  else if a < 0x040140000000 then .aperture ((a - apBase) / 2 ^ 26) ((a - apBase) % 2 ^ 26)
  else if a < spillBase then .reserved
  else if a < 0x200000000000 then .spill (a - spillBase)
  else if a < 0x400000000000 then .hostWin
  else if a < 0x800000000000 then .remote
  else .reserved

/-- The stripe block (base, log2 of its size) of a logical number: the blocks are cut from the binary form of n, largest
first (R42). -/
def stripeBlock (n l : Nat) : Option (Nat × Nat) :=
  let rec go : Nat → Nat → Option (Nat × Nat)
    | 0, base => if n % 2 = 1 && l == base then some (base, 0) else none
    | k + 1, base =>
      if tbit n (k + 1) then (if base ≤ l ∧ l < base + 2 ^ (k + 1) then some (base, k + 1) else go k (base + 2 ^ (k + 1)))
      else go k base
  go 10 0

/-- Whether region r (1 GiB) is striped (R44). -/
def striped (s : State) (r : Nat) : Bool := tbit (rget s .MEM_ILV_ACTIVE [r / 64]) (r % 64)

/-- The logical cluster that stores a stack address (R41, R43). -/
def storeL (s : State) (a : Nat) : Nat :=
  let l := bits a 41 32
  if striped s (a / 2 ^ 30) then
    match stripeBlock (grade s) l with
    | none => l
    | some (b, k) =>
      let h := bits a 19 10 ^^^ bits a 29 20 ^^^ bits a 31 30
      b + ((l - b) ^^^ (h % 2 ^ k))
  else l

/-- The issued address of a location of logical cluster `l` and pillar offset `off`: the decode of R43 inverted (the
scrubber's use of it is R75). -/
def issuedOf (s : State) (l off : Nat) : Nat :=
  let a0 := l * 2 ^ 32 + off
  if striped s (4 * l + bits off 31 30) then
    match stripeBlock (grade s) l with
    | none => a0
    | some (b, k) =>
      let h := bits off 19 10 ^^^ bits off 29 20 ^^^ bits off 31 30
      (b + ((l - b) ^^^ (h % 2 ^ k))) * 2 ^ 32 + off
  else a0

/-- The bank (16 × 32 × C + 32 × die + p) that holds a stack address, if its storing cluster is present. -/
def bankOf (s : State) (a : Nat) : Option Nat :=
  (physOf s (storeL s a)).map (fun c => c * 512 + bits a 31 28 * 32 + bits a 27 23)

/-- The spill capacity attached, in bytes, in GiB in its register (R321). -/
def spillBytes (s : State) : Nat :=
  fget s .HP_SPILL_STAT [] Fld.HP_SPILL_STAT_CAP * 2 ^ 30

/-- Whether every byte of [a, a + n) is mapped (R39): stack and scratchpad bytes belong to a present logical number, spill
bytes lie within the capacity attached, no byte is reserved. Windows are checked by their own chapters. -/
def mapped (s : State) (a n : Nat) : Bool :=
  let okAt := fun x => match spaceOf x with
    | .stack l _ => present s l
    | .scratch l _ => present s l
    | .aperture _ _ => true
    | .spill off => decide (off < spillBytes s)
    | .hostWin => true
    | .remote => true
    | .reserved => false
  -- the map is uniform within 4 MiB blocks, so the block starts and the two ends decide
  n == 0 || (okAt a && okAt (a + n - 1)
    && (List.range (n / 2 ^ 22 + 1)).all (fun i => let x := (a / 2 ^ 22 + i + 1) * 2 ^ 22; decide (a + n ≤ x) || okAt x))

/-- Whether [a, a + n) touches the pillar or scratchpad of an offline cluster (R37, R350). A scratchpad stays reachable
while only its shaft is closed. DESIGN CHOICE (log entry 167): an access to a striped region is to the cluster that stores the
granule, not to the one of its address bits [41:32]. -/
def touchesOffline (s : State) (a n : Nat) : Bool :=
  let at_ := fun x => match spaceOf x with
    | .stack _ _ => offline s (storeL s x)
    | .scratch l _ => (match physOf s l with | some c => s.topo.dark.contains c | none => false)
    | _ => false
  n != 0 && (at_ a || at_ (a + n - 1)
    || (List.range (n / 1024 + 1)).any (fun i => let x := (a / 1024 + i + 1) * 1024; decide (x < a + n) && at_ x))

end Sys2Proof.Machine
end

