-- ==== Sys2Proof/Machine/SynCore.lean ====
section
/-! DEFINITION. Sending on the Synur fabric: ports, credits, paths and broadcasts (R283–R298), and the tick it slews (R299). -/

namespace Sys2Proof.Machine

def modSyn (s : State) (f : Syn → Syn) : State := { s with syn := f s.syn }

def synPort (s : State) (p : Nat) : SynPort := tget SynPort.init s.syn.ports p

def setPort (s : State) (p : Nat) (x : SynPort) : State := { s with syn := { s.syn with ports := tput p x s.syn.ports } }

/-- Port states of SYN_PORT_STAT.STATE. -/
def portState (s : State) (p : Nat) : Nat := fget s .SYN_PORT_STAT [p] Fld.SYN_PORT_STAT_STATE

/-- The lanes a port runs (R284). -/
def portLanes (s : State) (p : Nat) : Nat := fget s .SYN_PORT_STAT [p] Fld.SYN_PORT_STAT_LANES

/-- The device's own ID (R293). -/
def ownId (s : State) : Nat := fget s .SYN_ID [] Fld.SYN_ID_ID

/-- Whether an ID is set (R293). -/
def hasId (s : State) : Bool := fbit s .SYN_ID [] Fld.SYN_ID_SET

/-- Whether a destination is this device. -/
def isOwn (s : State) (dst : Nat) : Bool := hasId s && dst == ownId s

/-- Whether this device is a member of a fabric. -/
def isMember (s : State) : Bool := fget s .SYN_STAT [] Fld.SYN_STAT_MSTATE == 2

/-- The link control word of the next flit (R286), and the port after it: the credits it returns are no longer owed (R291). -/
def linkCtl (q : SynPort) (sq : Nat) (full idle nak : Bool) (laneOp lane : Nat) : Nat × SynPort :=
  let due := (List.range 8).filter (fun i => lget 0 q.owed i != 0)
  let cvc := fun i => lget 0 due i
  let cn := fun i => if i < due.length then lget 0 q.owed (cvc i) else 0
  (lane % 8 * 2 ^ 56 + laneOp % 8 * 2 ^ 53 + cn 1 % 1024 * 2 ^ 43 + cvc 1 * 2 ^ 40 + cn 0 % 1024 * 2 ^ 30 + cvc 0 * 2 ^ 27
     + b2n idle * 2 ^ 26 + b2n full * 2 ^ 25 + b2n nak * 2 ^ 24 + q.rxSeq % 4096 * 2 ^ 12 + sq % 4096,
   { q with owed := (due.take 2).foldl (fun o i => lset o i 0) q.owed })

/-- A flit leaves on the active lanes of a port (R283). -/
def emitFlit (s : State) (p ctl : Nat) (x : Pkt) : State :=
  emit s (.flit p (stripe (popCount 8 (portLanes s p)) (flitSymbols ctl x)))

/-- Emit a sequenced flit. -/
def wire (s : State) (p sq : Nat) (x : Pkt) : State :=
  let c := linkCtl (synPort s p) sq x.full false false 0 0
  emitFlit (setPort s p c.2) p c.1 x

/-- Send an IDLE flit, a short one: ACK or NAK, credits and a lane operation (R286, R290). -/
def sendIdle (s : State) (p : Nat) (nak : Bool) (laneOp lane : Nat) : State :=
  let c := linkCtl (synPort s p) 0 false true nak laneOp lane
  emitFlit (setPort s p c.2) p c.1 ⟨0, 0, []⟩

/-- A flit leaves the receive buffer: the credits it held are owed to its sender (R291). -/
def giveCredit (s : State) (w : Waiting) : State :=
  match w.src with
  | none => s
  | some (p, l) => let q := synPort s p; setPort s p { q with owed := lset q.owed l (lget 0 q.owed l + w.pkt.units) }

/-- The tick in 0.25 ns (R299). The tick counts whole ns, and which quarter of one it is is open (log entry 163). -/
def quarterTick (s : State) : Nat × State := let f := free s; (4 * s.tick + f.1 % 4, f.2)

/-- SYNC_REQ and SYNC_RSP carry the sender's tick at their first symbol on the port: t1, and t3 after t2 (R299). -/
def stampSync (s : State) (x : Pkt) : Pkt × State :=
  if x.typ = 0x18 then
    let t := quarterTick s
    ({ x with data := leBytes 8 t.1 ++ x.data.drop 8 }, modSyn t.2 (fun y => { y with syncT1 := t.1 }))
  else if x.typ = 0x19 then
    let t := quarterTick s
    ({ x with data := x.data.take 8 ++ leBytes 8 t.1 ++ x.data.drop 16 }, t.2)
  else (x, s)

/-- Put a flit on the wire: it takes the next sequence number and a retry slot (R290), and credits of its layer (R291). -/
def putOnWire (s : State) (p : Nat) (w : Waiting) : State :=
  let z := stampSync (giveCredit s w) w.pkt
  let s := z.2
  let q := synPort s p
  let x := z.1
  let q' := { q with txSeq := (q.txSeq + 1) % 4096, retry := q.retry ++ [(q.txSeq, x)],
                     credit := lset q.credit x.vcl (lget 0 q.credit x.vcl - x.units) }
  wire (setPort s p q') p q.txSeq x

/-- Whether a waiting flit may leave: its layer holds credits and the retry buffer has room. -/
def canSend (q : SynPort) (x : Pkt) : Bool :=
  decide (x.units ≤ lget 0 q.credit x.vcl) && decide (q.retry.length < 1024)

/-- The first waiting flit of each layer: flits of one layer leave in arrival order (R295). -/
def layerHeads : List Waiting → List Nat → List Waiting
  | [], _ => []
  | w :: r, seen => if seen.contains w.pkt.vcl then layerHeads r seen else w :: layerHeads r (w.pkt.vcl :: seen)

/-- The flit that leaves next: CTL flits first, then the oldest whose layer holds credits (R291). -/
def nextFlit (q : SynPort) : Option Waiting :=
  let hs := (layerHeads q.wait []).filter (fun w => canSend q w.pkt)
  match hs.find? (fun w => w.pkt.vc == 2) with
  | some w => some w
  | none => hs.head?

/-- Send the waiting flits of an UP port that may leave; none while its island has no clock (R32, R395). -/
def pump (p : Nat) : Nat → State → State
  | 0, s => s
  | n + 1, s =>
    if portState s p != 2 || noClock s (2084 + p) then s
    else
      let q := synPort s p
      match nextFlit q with
      | none => s
      | some w => pump p n (putOnWire (setPort s p { q with wait := q.wait.erase w }) p w)

/-- Queue a flit at a port and send what may leave. -/
def portPut (s : State) (p : Nat) (w : Waiting) : State :=
  let q := synPort s p
  pump p (q.wait.length + 1) (setPort s p { q with wait := q.wait ++ [w] })

/-- Queue a packet of the device's own, filled to its flit's size. -/
def portSend (s : State) (p : Nat) (x : Pkt) : State := portPut s p ⟨x.sized, none⟩

/-- Whether flits that would newly use a port wait for its hold of 100 µs to end (R296). -/
def portHeld (s : State) (p : Nat) : Bool := portState s p == 4 && (synPort s p).holding

/-- Queue a flit at a port, or hold it there (R296). -/
def toPort (s : State) (p : Nat) (w : Waiting) : State :=
  if portHeld s p then setPort s p { synPort s p with hold := (synPort s p).hold ++ [w] } else portPut s p w

/-- The route entry of a destination (R294): the table ends at ID 32,767, and the entry of the device's own ID is ignored. -/
def routeEntry (s : State) (dst : Nat) : Nat :=
  if isOwn s dst || decide (32767 < dst) then 0
  else if dst % 2 = 0 then fget s .SYN_RT [dst / 2] Fld.SYN_RT_ENTRY_EVEN else fget s .SYN_RT [dst / 2] Fld.SYN_RT_ENTRY_ODD

/-- Byte j of a route entry. -/
def routePath (e j : Nat) : Nat := bits e (8 * j + 7) (8 * j)

/-- Whether path j of an entry is valid and its port not FAILED or disabled (R296). During the hold after a port failed its
flits still count on it. -/
def pathUsable (s : State) (e j : Nat) : Bool :=
  let b := routePath e j
  tbit b 7 && (let st := portState s (b % 16); st == 2 || st == 3 || portHeld s (b % 16))

/-- The usable paths of a destination; path 1 is held in reserve in a large fabric while path 0 is up (R295). -/
def usablePaths (s : State) (dst : Nat) : List Nat :=
  let e := routeEntry s dst
  let all := (List.range 4).filter (pathUsable s e)
  if decide (4096 < s.syn.members.length) && tbit (routePath e 0) 5 && all.contains 0 then all.filter (fun j => j != 1) else all

/-- A header that leaves through path j, whose byte is b: PATH, and layer 1 past a dateline (R294). -/
def onPath (h j b : Nat) : Nat := setBits (setBits h 89 88 j) 93 93 (b2n (tbit h 93 || tbit b 6))

/-- Send a packet of this device toward its destination on the path its flow hashes to (R295); false when the destination
is not a member or no path is usable. -/
def synSend (s : State) (engine : Nat) (x : Pkt) : Bool × State :=
  let ps := usablePaths s x.dst
  if ps.isEmpty || !(s.syn.members.contains x.dst) then (false, s)
  else
    let j := lget 0 ps (Config.flowHash x.src engine x.dst x.win % ps.length)
    let b := routePath (routeEntry s x.dst) j
    (true, toPort s (b % 16) ⟨{ x.sized with hdr := onPath x.hdr j b }, none⟩)

/-- Counts in which a child asks its parent again: it is a child no longer after two periods of R299 without a SYNC_REQ
(log entry 145). -/
def childSpan : Nat := 2000000

/-- The ports of the time tree: the parent and the children (R298, R299). -/
def treePorts (s : State) : List Nat :=
  (List.range 16).filter (fun p => portState s p == 2 &&
    ((match (synPort s p).child with | some t => decide (s.tick ≤ t + childSpan) | none => false)
      || (s.syn.parented && decide (fget s .SYN_TIME [] Fld.SYN_TIME_PARENT = p))))

/-- Send a broadcast over the time tree, except on one port (R298). -/
def synFlood (s : State) (except : Option Nat) (x : Pkt) : State :=
  ((treePorts s).filter (fun p => some p != except)).foldl (fun s p => portSend s p x) s

/-- Originate a broadcast (R298); a device outside a fabric sends none. -/
def synBroadcast (s : State) (typ job : Nat) (data : List Byte) : State :=
  if fget s .SYN_CFG [] Fld.SYN_CFG_EN == 0 then s
  else synFlood s none ⟨mkHdr 0xFFFF (ownId s) 2 0 7 0 typ true true job 0 0 0 0, 0, data⟩

/-- One count of the tick (R299): while an offset is left, one count in 10,000 advances it by 2 or by 0. -/
def tickCount (s : State) : State :=
  let y := s.syn
  if decide (4 ≤ y.slew.natAbs) && decide (y.slewAt + 9999 ≤ s.tick) then
    if 0 < y.slew then { s with tick := s.tick + 2, syn := { y with slew := y.slew - 4, slewAt := s.tick + 2 } }
    else { s with syn := { y with slew := y.slew + 4, slewAt := s.tick } }
  else { s with tick := s.tick + 1 }

end Sys2Proof.Machine
end

