-- ==== Sys2Proof/Machine/Fault.lean ====
section
/-! DEFINITION. The fault fence and the start, merge, restart and holding of a recovery (R334–R347). -/

namespace Sys2Proof.Machine

/-- Strength of an action (R340). -/
def Action.rank : Action → Nat
  | .none => 0
  | .reverify => 1
  | .repair => 2
  | .mapOut => 3

/-- Whether the action for a resource covers that of another fault on it (R344): a stronger action does; one of equal strength
when it is the same action, of the same test or the same bank or lane. -/
def FaultRes.covers (x r : FaultRes) : Bool :=
  x.res == r.res && (decide (r.act.rank < x.act.rank) || r.act == .none || x.act == .mapOut
    || (x.act == r.act && x.cause == r.cause && x.part == r.part))

/-- Add a resource to a set (R340): its action never becomes weaker, a stronger one replaces it, and two of equal strength, such as
a march test and a self-test of one cluster, are both due. -/
def addRes (l : List FaultRes) (r : FaultRes) : List FaultRes :=
  if l.any (fun x => x.covers r) then l
  else l.filter (fun x => x.res != r.res || x.act == r.act) ++ [r]

/-- The resources of a set, each once (R343). -/
def resNames (l : List FaultRes) : List Res := (l.map FaultRes.res).eraseDups

/-- Add a job to a set. -/
def addJob (l : List Nat) (j : Nat) : List Nat := if l.contains j then l else l ++ [j]

/-- Whether a recovery is running (stages 1 to 5). -/
def rcvRunning (s : State) : Bool := decide (1 ≤ s.rcv.stage ∧ s.rcv.stage ≤ 5)

/-- Whether the device is Held (R345). -/
def isHeld (s : State) : Bool := s.rcv.stage == 7

/-- Whether a job's work is stopped: it is in the fault set of a recovery that runs or is Held. -/
def jobStopped (s : State) (j : Nat) : Bool := (rcvRunning s || isHeld s) && s.rcv.jobs.contains j

/-- Number of queues. -/
def nQueues : Nat := 256

def queueJob (s : State) (q : Nat) : Nat := fget s .QD_Q_CFG [q] Fld.QD_Q_CFG_JOB

def qdOf (s : State) (q : Nat) : QSt := tget ⟨0, 0⟩ s.qd q

/-- Apply a fence number to every queue of a job (R271). -/
def fenceQueues (f j : Nat) (s : State) : State :=
  if j = 0 then s
  else foldUp nQueues (fun s q =>
    if queueJob s q = j then
      fset (fset { s with qd := tput q { qdOf s q with fence := f } s.qd } .QD_Q_STAT [q] Fld.QD_Q_STAT_FENCED 1)
        .QD_Q_STAT [q] Fld.QD_Q_STAT_FENCE f
    else s) s

/-- The next fence number becomes FENCE_LAST (R336). -/
def nextFence (s : State) : Nat × State :=
  let f := (fget s .QD_STAT [] Fld.QD_STAT_FENCE_LAST + 1) % 2 ^ 32
  (f, fset s .QD_STAT [] Fld.QD_STAT_FENCE_LAST f)

/-- Write the STAGE entry of the current stage, with the recovery's fence number (R338, R352, R354; log entry 134). -/
def logStage (s : State) : State :=
  sendRep s { mkRep s 0x15 5 0 0 0 0 (s.rcv.stage * 2 ^ 48 + s.rcv.restarts * 2 ^ 44 + min 255 s.rcv.jobs.length * 2 ^ 8
    + min 255 (resNames s.rcv.res).length) with fno := s.rcv.fence }

/-- Enter the fence stage and then the drain stage: both entries are written (R338). -/
def beginStages (s : State) : State :=
  let s := logStage { s with rcv := { s.rcv with stage := 1 } }
  logStage { s with rcv := { s.rcv with stage := 2 } }

/-- Broadcast a job's fence over the fabric (R337). -/
def bcastFence (s : State) (j f : Nat) : State :=
  synBroadcast s 0x1E j (leBytes 2 j ++ leBytes 2 (ownId s) ++ leBytes 4 f)

/-- Whether a status raises the fence of R71. -/
def isWordFault (st : Nat) : Bool := st == 0x0303 || st == 0x0304 || st == 0x0305

/-- The status a command of a fenced queue reports although it is not 0x0601: that of the fault detected in it (R271). -/
def ownFault (s : State) (c : Cmd) : Option Nat :=
  match tfind s.kv.faults c.id with
  | some st => some st
  | none => c.status.filter (fun st => isWordFault st || st == 0x0306 || (st == 0x0401 && decide (0x70 ≤ c.opc ∧ c.opc ≤ 0x77)))

/-- What a command in flight reports while the device is Held, `none` while its reply must wait (R271, R345): the status of the
fault detected in it; 0x0602 when it has no outcome, or when its job is in the fault set; a COMPUTE_RESET or HELD_RELEASE that
has not begun is executed instead. -/
def heldStatus (s : State) (c : Cmd) : Option Nat :=
  match ownFault s c with
  | some st => some st
  | none =>
    if c.status.isNone && !c.begun && (c.opc == 0xA0 || c.opc == 0xA1) then none
    else if c.status.isNone || s.rcv.jobs.contains (queueJob s c.q) then some 0x0602 else c.status

/-- The outcomes that `heldStatus` gives, fixed as the command `id` takes the device out of Held. -/
def heldMark (id : Nat) (s : State) : State :=
  { s with cmds := s.cmds.map (fun (c : Cmd) =>
      if c.id == id then c
      else match heldStatus s c with
        | some st => if c.status == some st then c else { c with begun := true, status := some st, detail := 0 }
        | none => c) }

/-- Restart the recovery, or enter Held when it has restarted four times, with the recovery's current fence number (R343–R345).
`j` is 0 only for a failing re-verify test. -/
def restartRcv (s : State) (j : Nat) (rs : List FaultRes) (rep : Report) (bcast : Bool) : State :=
  let newJob := j != 0 && !(s.rcv.jobs.contains j)
  let jobs := if j = 0 then s.rcv.jobs else addJob s.rcv.jobs j
  let r0 : Rcv :=
    { s.rcv with jobs := jobs, res := rs.foldl addRes s.rcv.res, faults := s.rcv.faults + 1,
                 culprits := s.rcv.culprits ++ rs.map FaultRes.res }
  if 4 ≤ r0.restarts then
    let s := fenceQueues s.rcv.fence j s
    let s := if newJob && bcast then bcastFence s j s.rcv.fence else s
    let s := sendRep s { rep with fno := s.rcv.fence }
    let s := { s with rcv := { r0 with stage := 7, waiters := [] }, ready := false,
                      launches := [], graphs := [], chans := List.replicate 8 none, attends := [], pageRuns := [], colls := [] }
    let s := fset s .QD_STAT [] Fld.QD_STAT_HELD 1
    let s := finc s .LOG_RCV_CNT [] Fld.LOG_RCV_CNT_HELD 1
    sendRep s { mkRep s 0x18 8 0 0 0 0 (min 0xFFFF r0.faults) with fno := s.rcv.fence }
  else
    let nf := nextFence s
    let s := nf.2
    let s := jobs.foldl (fun s j => fenceQueues nf.1 j s) s
    let s := if newJob && bcast then bcastFence s j nf.1 else s
    let s := sendRep s { rep with fence := true, restart := true, fno := nf.1 }
    let s := finc s .LOG_RCV_CNT [] Fld.LOG_RCV_CNT_RESTARTS 1
    beginStages { s with rcv := { r0 with restarts := r0.restarts + 1, fence := nf.1,
                                          res := r0.res.map (fun (x : FaultRes) => { x with fixed := false }) } }

/-- A fault of class 3, 4 or 6 at its detection (R336, R344, R345): `j` its job, `rs` the resources it names with the
actions of R340, `rep` its report, `bcast` whether a new job is broadcast (R337), `verify` a failing re-verify test. -/
def raiseFault (s : State) (j : Nat) (rs : List FaultRes) (rep : Report) (bcast : Bool := true) (verify : Bool := false) :
    State :=
  if j = 0 && !verify then
    let nf := nextFence s
    let s := nf.2
    let names := rs.filterMap (fun r => match r.res with | .cluster c => some c | .pillar c => some c | .domain d => some d | _ => none)
    let s := { s with rcv := { s.rcv with later := rs.foldl addRes s.rcv.later,
                                          noSpare := s.rcv.noSpare ++ names } }
    sendRep s { rep with fence := true, fno := nf.1 }
  else if isHeld s then
    let newJob := j != 0 && !(s.rcv.jobs.contains j)
    let s := { s with rcv := { s.rcv with jobs := if j = 0 then s.rcv.jobs else addJob s.rcv.jobs j,
                                          res := rs.foldl addRes s.rcv.res, faults := s.rcv.faults + 1 } }
    let s := fenceQueues s.rcv.fence j s
    let s := if newJob && bcast then bcastFence s j s.rcv.fence else s
    sendRep s { rep with fno := s.rcv.fence }
  else if !rcvRunning s then
    let nf := nextFence s
    let s := nf.2
    let s := sendRep s { rep with fence := true, fno := nf.1 }
    let s := { s with rcv := { s.rcv with stage := 1, jobs := if j = 0 then [] else [j], res := rs.foldl addRes [],
                                          restarts := 0, fence := nf.1, faults := 1, culprits := [], undrained := [],
                                          byCommand := false, tests := [] } }
    let s := fenceQueues nf.1 j s
    let s := if bcast then bcastFence s j nf.1 else s
    beginStages s
  else
    let inSet := fun (r : FaultRes) => s.rcv.res.any (fun x => x.res == r.res)
    let early := decide (s.rcv.stage ≤ 3)
    let merged := if early then (j != 0 && s.rcv.jobs.contains j) || rs.any inSet
      else if rep.ev = 0x0A then s.rcv.jobs.contains j
      else !rs.isEmpty && rs.all (fun r => s.rcv.res.any (fun x => x.fixed && x.covers r))
    if merged && (early || !verify) then
      let s := { s with rcv := { s.rcv with
        res := if early then rs.foldl addRes s.rcv.res else s.rcv.res, faults := s.rcv.faults + 1 } }
      sendRep s { rep with merged := true, fno := s.rcv.fence }
    else restartRcv s j rs rep bcast

/-- The fence of a word fault (R71, R336): the report of R354 with its reader code, the failing word, and the action of
R340 for where the word lies. `more` are the continuation entries of a core trap (R116). The source is the cluster `src` whose
unit read, the tower for its cache, else the cluster the word lies in (log entry 137). -/
def wordFault (s : State) (status reader addr job : Nat) (more : List (Nat × Nat) := []) (src : Option Nat := none) : State :=
  let w := addr / 16 % 2 ^ 44
  let rs : List FaultRes := match spaceOf addr with
    | .stack _ _ =>
      (match physOf s (storeL s addr) with
       | none => []
       | some c =>
         if status = 0x0303 then [⟨.pillar c, .repair, false, 5, 1 + ((bankOf s addr).getD 0) % 512⟩]
         else if status = 0x0304 then [⟨.pillar c, .reverify, false, 5, 0⟩] else [⟨.pillar c, .none, false, 5, 0⟩])
    | .scratch l _ => (match physOf s l with | none => [] | some c => [⟨.cluster c, .reverify, false, 4, 0⟩])
    | _ => []
  let idx := match spaceOf addr with
    | .stack _ _ => (physOf s (storeL s addr)).getD 0
    | .scratch l _ => (physOf s l).getD 0
    | _ => 0
  let at_ : Nat × Nat := match src with
    | some c => (1, c)
    | none => if reader = 8 then (3, idx / 64) else (1, idx)
  raiseFault s job rs { mkRep s 0x01 3 at_.1 at_.2 status job (reader * 2 ^ 44 + w) with more := more }


end Sys2Proof.Machine
end

