-- ==== Sys2Proof/Machine/Mem.lean ====
section
/-! DEFINITION. Words of memory: stored codewords, their decoding, the counting of corrections and the address tables
(R56–R74, R126, R128). -/

namespace Sys2Proof.Machine

/-! ### What a tower cache holds (R238, R239, R242) -/

def tcOf (s : State) (t : Nat) : Tc := tget Tc.init s.tc t
def setTc (s : State) (t : Nat) (x : Tc) : State := { s with tc := tput t x s.tc }

/-- Tower of a stack granule, when its storing cluster is present. -/
def granTower (s : State) (g : Nat) : Option Nat := (bankOf s (1024 * g)).map (fun b => b / 512 / 64)

/-- The 12-bit slice and set index of a granule (R238). -/
def granIdx (s : State) (g : Nat) : Nat :=
  let a := 1024 * g
  match bankOf s a with
  | none => 0
  | some b => (bits a 22 10 % 4096) ^^^ (b / 512 % 64 * 64) ^^^ (b % 32 * 2) ^^^ (b / 32 % 16)

def tcLine (x : Tc) (g : Nat) : Option TcLine := x.lines.find? (fun l => l.gran == g)

/-- The line of a granule anywhere in the device. -/
def lineOf (s : State) (g : Nat) : Option (Nat × TcLine) :=
  match granTower s g with
  | none => none
  | some t => (tcLine (tcOf s t) g).map (fun l => (t, l))

/-- Whether a tower cache holds the line of a granule. -/
def cached (s : State) (g : Nat) : Bool := s.tc.any (fun e => e.2.lines.any (fun l => l.gran == g))

/-- Whether no tower cache holds a line. -/
def noLines (s : State) : Bool := s.tc.all (fun e => e.2.lines.isEmpty)

/-- The granules of a stack range. -/
def granules (a n : Nat) : List Nat :=
  if n = 0 then [] else (List.range ((a + n - 1) / 1024 + 1 - a / 1024)).map (fun i => a / 1024 + i)

/-- The parts of a range by granule: (address, length). -/
def granParts (a n : Nat) : List (Nat × Nat) :=
  (granules a n).map (fun g => (max a (1024 * g), min (a + n) (1024 * g + 1024) - max a (1024 * g)))

/-- Bytes from `a` on as every reader of the memory system sees them: a tower cache line stands over the bank (R242). -/
def cohBytes (s : State) (a n : Nat) : List Byte :=
  if decide (spBase ≤ a) || noLines s then mread s.mem a n
  else (granParts a n).flatMap (fun p => mread (if cached s (p.1 / 1024) then s.tcBytes else s.mem) p.1 p.2)

/-- Whether a word lies in a line. -/
def inOver (s : State) (w : Nat) : Bool := decide (16 * w < spBase) && cached s (w / 64)

/-- Deviation of the stored check symbols of a word. -/
def devOf (s : State) (w : Nat) : Nat := match tfind s.chk w with | some d => d.toNat | none => 0

def setDev (s : State) (w d : Nat) : State :=
  { s with chk := if d % 65536 = 0 then tdel w s.chk else tput w (BitVec.ofNat 16 d) s.chk }

/-- Both check symbols of a pair as one deviation. -/
def devPair (c : Nat × Nat) : Nat := c.1 + 256 * c.2

/-- The deviation an error of the sixteen data symbols leaves in the check symbols: the code is linear (R65). -/
def devOfData (e : List Byte) : Nat := devPair (encodeWord 0 e)

/-- Data and error pattern bytes of a 144-bit pattern. -/
def flipData (f : BitVec 144) : List Byte := leBytes 16 f.toNat
def flipChk (f : BitVec 144) : Nat := f.toNat / 2 ^ 128

/-- XOR of byte lists. -/
def xorBytes (a b : List Byte) : List Byte := List.zipWith (fun x y => x ^^^ y) a b

/-- Lay an error pattern over a stored word (its cells change, R59). -/
def hitCell (s : State) (w : Nat) (f : BitVec 144) : State :=
  let e := flipData f
  let s := { s with mem := mwrite s.mem (16 * w) (xorBytes (mread s.mem (16 * w) 16) e) }
  setDev s w (devOf s w ^^^ devOfData e ^^^ flipChk f)

/-- Write a whole word with correct check symbols into the bank or array. -/
def putWord (s : State) (w : Nat) (d : List Byte) : State :=
  setDev { s with mem := mwrite s.mem (16 * w) d } w 0

/-- Write poison (R70). -/
def putPoison (s : State) (w : Nat) : State :=
  setDev { s with mem := mclear s.mem (16 * w) 16 } w 0xFFFF

/-- The data of a stored word and the deviation of its check symbols: in the line that holds it, else in the bank or array. -/
def rawWord (s : State) (w : Nat) : List Byte × Nat :=
  if inOver s w then (mread s.tcBytes (16 * w) 16, match tfind s.tcDev w with | some d => d.toNat | none => 0)
  else (mread s.mem (16 * w) 16, devOf s w)

/-- Decode a word's data and its check symbols' deviation. -/
def decodeRaw (w : Nat) (x : List Byte × Nat) : WordOutcome × List Byte :=
  if x.2 = 0 then (.clean, x.1)
  else
    let c := encodeWord (16 * w) x.1
    let o := decodeWord (16 * w) x.1 (c.1 ^^^ x.2 % 256) (c.2 ^^^ x.2 / 256)
    (o, o.fix x.1)

/-- Decode a stored word with its issued address (R66, R239). -/
def readWord (s : State) (w : Nat) : WordOutcome × List Byte :=
  decodeRaw w (rawWord s w)

/-! ### Failed lanes (R59, R349) -/

/-- The bits of the word at `a` that a lane of its pillar carries, as a 144-bit pattern (R58, R61). -/
def laneBits (s : State) (c a lane : Nat) : Nat :=
  let cw := bits a 5 4
  if 512 ≤ lane then (if (lane - 512) / 8 = cw then 3 * 2 ^ (128 + 2 * (lane % 8)) else 0)
  else
    let mine := match tfind s.topo.half c with
      | none => lane / 128 == cw
      | some h => lane / 256 == h && lane % 256 / 128 == cw % 2
    if mine then 2 ^ (lane % 128) else 0

/-- The bits of a word that failed lanes of its pillar corrupt. -/
def deadBits (s : State) (w : Nat) : Nat :=
  if s.topo.deadLanes.isEmpty || decide (spBase ≤ 16 * w) then 0
  else match physOf s (storeL s (16 * w)) with
    | none => 0
    | some c => (s.topo.deadLanes.filter (fun x => x / 1024 == c)).foldl (fun n x => n ||| laneBits s c (16 * w) (x % 1024)) 0

/-- Lay a pattern over the data of a word and the deviation of its check symbols. -/
def flipWord (x : List Byte × Nat) (f : BitVec 144) : List Byte × Nat :=
  (xorBytes x.1 (flipData f), x.2 ^^^ devOfData (flipData f) ^^^ flipChk f)

/-- The bits of a decoded word that are already in error. -/
def WordOutcome.errBits : WordOutcome → Nat
  | .corrected j e => e * 2 ^ (8 * j)
  | _ => 0

/-- Decode a word as it arrives at a reader on the shaft: each failed lane leaves its bits wrong, whatever is stored (R59, R349). -/
def shaftWord (s : State) (w : Nat) : WordOutcome × List Byte :=
  let x := rawWord s w
  let o := decodeRaw w x
  let d := deadBits s w
  if d = 0 || inOver s w || o.1.status != 0 then o
  else decodeRaw w (flipWord x (BitVec.ofNat 144 (d &&& (d ^^^ o.1.errBits))))

/-- What a write across failed lanes leaves stored. -/
def stain (s : State) (w : Nat) : State :=
  let d := deadBits s w
  if d = 0 then s else hitCell s w (BitVec.ofNat 144 d)

/-- Work on the banks alone, with no cache line over them: how the scrubber and bank copies reach a word (R75, R78, R241). -/
def belowCaches (f : State → State) (s : State) : State :=
  { f { s with tc := [], tcBytes := [], tcDev := [] } with tc := s.tc, tcBytes := s.tcBytes, tcDev := s.tcDev }

/-- Deviation of the check symbols of a word of a line. -/
def lineDev (s : State) (w : Nat) : Nat := match tfind s.tcDev w with | some d => d.toNat | none => 0

def setLineDev (s : State) (w d : Nat) : State :=
  { s with tcDev := if d % 65536 = 0 then tdel w s.tcDev else tput w (BitVec.ofNat 16 d) s.tcDev }

/-- Lay an error pattern over a word where it is stored: in its line, or in the bank (R59, R245). -/
def hitWord (s : State) (w : Nat) (f : BitVec 144) : State :=
  if inOver s w then
    let e := flipData f
    let s := { s with tcBytes := mwrite s.tcBytes (16 * w) (xorBytes (mread s.tcBytes (16 * w) 16) e) }
    setLineDev s w (lineDev s w ^^^ devOfData e ^^^ flipChk f)
  else hitCell s w f

/-- A command of the pillar of `a` passed the shaft: the one in flight is over (R60). -/
def cmdPassed (s : State) (a : Nat) : State :=
  if s.ecc.cmdTries.isEmpty then s
  else match physOf s (storeL s a) with
    | none => s
    | some c => { s with ecc := { s.ecc with cmdTries := tdel c s.ecc.cmdTries } }

/-! ### Counting and nominating (R72–R74) -/

def tblIx (t e : Nat) : List Nat := [t, e]

/-- The key of an address-table entry. -/
structure CeKey where
  kind : Nat
  c    : Nat
  die  : Nat
  p    : Nat
  row  : Nat
  lane : Nat
  deriving DecidableEq, Repr

/-- Whether entry e of tower t holds a key. -/
def tblMatch (s : State) (t e : Nat) (k : CeKey) : Bool :=
  let w := rget s .ECC_TBL (tblIx t e)
  bits w 63 63 == 1 && bits w 62 61 == k.kind && bits w 60 55 == k.c % 64 && bits w 54 51 == k.die && bits w 50 46 == k.p
    && bits w 45 33 == k.row && bits w 27 19 == k.lane

def tblCount (s : State) (t e : Nat) : Nat := fget s .ECC_TBL (tblIx t e) Fld.ECC_TBL_COUNT

def rowThresh (s : State) : Nat := min 16383 (max 1 (fget s .ECC_CFG [] Fld.ECC_CFG_ROW_THRESH))
def bankRows (s : State) : Nat := max 1 (fget s .ECC_CFG [] Fld.ECC_CFG_BANK_ROWS)
def laneThresh (s : State) : Nat := max 1 (fget s .ECC_CFG [] Fld.ECC_CFG_LANE_THRESH)

/-- Log a nomination and remember it for the next compute reset (R74). -/
def nominate (s : State) (n : Nom) : State :=
  if s.ecc.noms.any (fun x => x.kind == n.kind && x.c == n.c && x.die == n.die && x.p == n.p && x.lane == n.lane) then s
  else
    let kind := match n.kind with | .bank => 0 | .dataLane => 1 | .checkLane => 2 | .way => 3
    let src := if n.kind == .way then 3 else 1
    let det := kind * 2 ^ 50 + n.die * 2 ^ 44 + n.p * 2 ^ 39
      + (if n.kind == .way then n.lane else n.lane * 2 ^ 30)
    logEv { s with ecc := { s.ecc with noms := s.ecc.noms ++ [{ n with told := true }] } } 0x10 2 src n.c 0 0 det

/-- Judge the thresholds of R74 for an entry just changed. DESIGN CHOICE (log entry 149): once a bank has reached its threshold,
every further entry of it is NOMINATED at its next correction, also below ROW_THRESH. -/
def judge (s : State) (t e : Nat) (k : CeKey) : State :=
  if k.kind = 0 then
    let mine := (List.range 32).filter (fun x =>
      let w := rget s .ECC_TBL (tblIx t x)
      bits w 63 63 == 1 && bits w 62 61 == 0 && bits w 60 55 == k.c % 64 && bits w 54 51 == k.die && bits w 50 46 == k.p
        && decide (rowThresh s ≤ bits w 15 0))
    if bankRows s ≤ mine.length || 4 * rowThresh s ≤ tblCount s t e then
      let s := (e :: mine).foldl (fun s x => fset s .ECC_TBL (tblIx t x) Fld.ECC_TBL_NOMINATED 1) s
      nominate s ⟨.bank, k.c, k.die, k.p, 0, false, false⟩
    else s
  else if laneThresh s ≤ tblCount s t e then
    nominate (fset s .ECC_TBL (tblIx t e) Fld.ECC_TBL_NOMINATED 1)
      ⟨if k.kind = 1 then .dataLane else .checkLane, k.c, 0, 0, k.lane, false, false⟩
  else s

/-- The entry a new key replaces: a free one, else the lowest COUNT not nominated, the oldest LAST_TICK winning (R73). -/
def tblVictim (s : State) (t : Nat) : Option Nat :=
  match (List.range 32).find? (fun e => fget s .ECC_TBL (tblIx t e) Fld.ECC_TBL_VALID == 0) with
  | some e => some e
  | none =>
    ((List.range 32).filter (fun e => fget s .ECC_TBL (tblIx t e) Fld.ECC_TBL_NOMINATED == 0)).foldl (fun best e =>
      match best with
      | none => some e
      | some b =>
        let cb := tblCount s t b; let ce := tblCount s t e
        let tb := rget s .ECC_TBL_TICK (tblIx t b); let te := rget s .ECC_TBL_TICK (tblIx t e)
        if ce < cb || (ce == cb && decide (te < tb)) then some e else some b) none

/-- Enter a correction in its tower's address table (R73) and judge it (R74). -/
def tblEnter (s : State) (k : CeKey) (sym : Nat) : State :=
  let t := k.c / 64
  match (List.range 32).find? (fun e => tblMatch s t e k) with
  | some e =>
    let s := finc s .ECC_TBL (tblIx t e) Fld.ECC_TBL_COUNT 1
    let s := fset s .ECC_TBL (tblIx t e) Fld.ECC_TBL_SYMBOL sym
    judge (rput s .ECC_TBL_TICK (tblIx t e) s.tick) t e k
  | none =>
    let full := (List.range 32).all (fun e => fget s .ECC_TBL (tblIx t e) Fld.ECC_TBL_VALID == 1)
    let s := if full then finc s .ECC_STAT [] Fld.ECC_STAT_TBL_OVF 1 else s
    match tblVictim s t with
    | none => s
    | some e =>
      let w := 2 ^ 63 + k.kind * 2 ^ 61 + k.c % 64 * 2 ^ 55 + k.die * 2 ^ 51 + k.p * 2 ^ 46 + k.row * 2 ^ 33
        + sym * 2 ^ 28 + k.lane * 2 ^ 19 + 1
      judge (rput (rput s .ECC_TBL (tblIx t e) w) .ECC_TBL_TICK (tblIx t e) s.tick) t e k

/-- The lane that carries every corrected bit, if one does: (check lane?, lane) (R58, R61, R72). -/
def laneOf (s : State) (c a sym err : Nat) : Option (Bool × Nat) :=
  let cw := bits a 5 4
  let ones := (List.range 8).filter (fun i => tbit err i)
  if sym < 16 then
    match ones with
    | [b] =>
      let bit := 8 * sym + b
      some (false, match tfind s.topo.half c with
        | none => cw * 128 + bit
        | some h => h * 256 + cw % 2 * 128 + bit)
    | _ => none
  else
    let base := (sym - 16) * 8
    match ones with
    | [] => none
    | b :: _ => if ones.all (fun x => x / 2 == b / 2) then some (true, cw * 8 + (base + b) / 2) else none

/-- Count a correction (R72): `cnt` is the counter, `shaft` whether the word crossed the shaft lanes on this read: a word
corrected in a cache did not, and is a cell error. Words outside stack DRAM enter no address table. -/
def countCe (s : State) (cnt a sym err : Nat) (shaft : Bool) : State :=
  let s := finc s .ECC_CE_COUNT [cnt] Fld.ECC_CE_COUNT_COUNT 1
  match spaceOf a with
  | .stack _ _ =>
    match physOf s (storeL s a) with
    | none => s
    | some c =>
      let s := { s with ecc := { s.ecc with perTower := tmod 0 (c / 64) (· + 1) s.ecc.perTower } }
      let die := bits a 31 28
      let cell : CeKey := ⟨0, c, die, bits a 27 23, bits a 22 10, 0⟩
      match (if shaft then laneOf s c a sym err else none) with
        | none => tblEnter s cell sym
        | some (ck, lane) =>
          let live := s.ecc.hits.filter (fun h => decide (s.tick ≤ h.tick + 10000000))
          let hits : List LaneHit := live ++ [⟨c, ck, lane, die, s.tick⟩]
          let s := { s with ecc := { s.ecc with hits := hits } }
          let dies := ((hits.filter (fun h => h.c == c && h.check == ck && h.lane == lane)).map (fun h => h.die)).eraseDups
          if 3 ≤ dies.length then tblEnter s ⟨if ck then 2 else 1, c, 0, 0, 0, lane⟩ sym
          else tblEnter s cell sym
  | .scratch l _ =>
    match physOf s l with
    | none => s
    | some c => { s with ecc := { s.ecc with perTower := tmod 0 (c / 64) (· + 1) s.ecc.perTower } }
  | _ => s

/-- Count a read that failed (ECC_STAT). -/
def countUe (s : State) (st : Nat) : State :=
  if st = 0x0304 then finc s .ECC_STAT [] Fld.ECC_STAT_MISMATCH 1
  else if st = 0x0303 || st = 0x0305 then finc s .ECC_STAT [] Fld.ECC_STAT_UE 1 else s

/-- Count a correction of a way; the sixteenth within one hour nominates it (R245). -/
def wayCount (s : State) (t w : Nat) : State :=
  let x := tcOf s t
  let ts := (tget [] x.wayCe w).filter (fun k => decide (s.tick < k + 3600000000000)) ++ [s.tick]
  let s := setTc s t { x with wayCe := tput w ts x.wayCe }
  if 16 ≤ ts.length then nominate s ⟨.way, t, 0, 0, w, false, false⟩ else s

/-- Count a correction of a word held in a line: counter 4 and its way (R239, R245). -/
def countLine (s : State) (w sym err : Nat) : State :=
  let s := countCe s 4 (16 * w) sym err false
  match lineOf s (w / 64) with
  | some (t, l) => wayCount s t l.way
  | none => s

/-! ### Ranges -/

/-- The numbers of a list in ascending order. -/
def ascending (l : List Nat) : List Nat :=
  let rec ins (x : Nat) : List Nat → List Nat
    | [] => [x]
    | y :: r => if x ≤ y then x :: y :: r else y :: ins x r
  l.foldl (fun acc x => ins x acc) []

/-- The words of [a, a + n) whose stored check symbols deviate, in ascending order. -/
def badWords (s : State) (a n : Nat) : List Nat :=
  if n = 0 then []
  else
    let inR := fun (w : Nat) => decide (a / 16 ≤ w) && decide (w ≤ (a + n - 1) / 16)
    let bank := (s.chk.map (fun p => p.1)).filter (fun w => inR w && !(inOver s w))
    match (s.tcDev.map (fun p => p.1)).filter inR with
    | [] => bank
    | l => ascending (bank ++ l)

/-- The words of [a, a + n) that a read finds deviating, in ascending order: across the shaft also those that failed lanes carry
(R349). -/
def readWords (s : State) (a n : Nat) (shaft : Bool) : List Nat :=
  let bad := badWords s a n
  if s.topo.deadLanes.isEmpty || !shaft || n = 0 then bad
  else ((List.range ((a + n - 1) / 16 + 1 - a / 16)).map (fun i => a / 16 + i)).filter (fun w =>
    bad.contains w || (deadBits s w != 0 && !(inOver s w)))

/-- Bytes of [a, a + n) with the corrected words `fixes` put over `raw`. -/
def laidOver (a n : Nat) (fixes : List (Nat × List Byte)) (raw : List Byte) : List Byte :=
  fixes.foldl (fun (b : List Byte) (p : Nat × List Byte) =>
    (List.range 16).foldl (fun b i =>
      let x := 16 * p.1 + i
      if a ≤ x ∧ x < a + n then lset b (x - a) (lget 0 p.2 i) else b) b) raw

/-- The bytes of [a, a + n) as a decoder delivers them: words with a correctable error corrected (R66). -/
def fixedBytes (s : State) (a n : Nat) : List Byte :=
  laidOver a n ((badWords s a n).filterMap (fun w => let o := readWord s w
    match o.1 with
    | .corrected _ _ => some (w, o.2)
    | _ => none)) (cohBytes s a n)

/-- Whether the near-bank unit of a word's bank runs: a corrected word is then not written back (R68). -/
def unitOnWord (s : State) (w : Nat) : Bool :=
  decide (16 * w < spBase) && s.nb.any (fun e => e.2.run.isSome && bankOf s (16 * w) == some e.1)

/-- What a read of a range gave: the first failing status (0 for none) and its word, and the state with corrections counted
and written back (R68, R472). -/
structure RangeRead where
  st    : Nat
  word  : Nat
  bytes : List Byte
  s     : State

/-- Read [a, a + n): every word is decoded (R66). A word of a line counts as the tower cache's and stays as it is in the array;
another corrected word is counted under `cnt` and written back, unless `keep` says not or its bank's unit runs (R68). -/
def readRange (s : State) (a n cnt : Nat) (shaft : Bool := true) (keep : Bool := false) : RangeRead :=
  let r := (readWords s a n shaft).foldl (fun (acc : Nat × Nat × State × List (Nat × List Byte)) w =>
      if acc.1 != 0 then acc
      else
        let s0 := acc.2.2.1
        let o := if shaft then shaftWord s0 w else readWord s0 w
        match o.1 with
        | .clean => acc
        | .corrected j e =>
          let s1 := if inOver s0 w then countLine s0 w j e
            else
              let s1 := countCe s0 cnt (16 * w) j e shaft
              if keep || unitOnWord s1 w then s1 else stain (putWord s1 w o.2) w
          (0, 0, s1, acc.2.2.2 ++ [(w, o.2)])
        | x => (x.status, w, countUe s0 x.status, acc.2.2.2)) (0, 0, s, [])
  ⟨r.1, r.2.1, laidOver a n r.2.2.2 (cohBytes s a n), r.2.2.1⟩

/-- A near-bank unit reads words of its bank: without the shaft and without the tower cache, and what it corrects is not written
back (R68, R170, R241). -/
def bankRange (s : State) (a n : Nat) : RangeRead :=
  let r := readRange { s with tc := [], tcBytes := [], tcDev := [] } a n 1 false true
  { r with s := { r.s with tc := s.tc, tcBytes := s.tcBytes, tcDev := s.tcDev } }

/-- The word number ECC_INJ is armed for (R65's register). -/
def injArmed (s : State) (w : Nat) : Bool :=
  fbit s .ECC_INJ [] Fld.ECC_INJ_ARM && fget s .ECC_INJ [] Fld.ECC_INJ_ADDR == w

/-- The stored effect of an armed injection on a word just written in full; it disarms. -/
def injectWord (s : State) (w : Nat) : State :=
  let j := fget s .ECC_INJ [] Fld.ECC_INJ_SYMBOL
  let m := fget s .ECC_INJ [] Fld.ECC_INJ_MASK
  let s := fset s .ECC_INJ [] Fld.ECC_INJ_ARM 0
  if j < 18 then hitCell s w (BitVec.ofNat 144 (m * 2 ^ (8 * j))) else s

/-- Store a whole word into the bank or array: a write of the whole codeword with what R69's merge gives it. -/
def storeMerged (s : State) (w : Nat) (d : List Byte) : State := putWord s w d

/-- Store a word written in full, with an armed injection (ECC_INJ.ARM; a merged write leaves it armed: log entry 39). -/
def storeWord (s : State) (w : Nat) (d : List Byte) : State :=
  let s := storeMerged s w d
  if injArmed s w then injectWord s w else s

/-- The words [a, a + n) covers only in part: the read, merge and write of R69 and R128. -/
def edgeWords (a n : Nat) : List Nat :=
  if n = 0 then []
  else
    let f := if a % 16 = 0 && 16 ≤ n then [] else [a / 16]
    let l := if (a + n) % 16 = 0 then [] else [(a + n - 1) / 16]
    (f ++ l).eraseDups

/-- Decode the partly covered words of a write: the first failing status and word, and the state with corrections counted
and applied. -/
def mergeReads (s : State) (a n cnt : Nat) (shaft : Bool) : Nat × Nat × State :=
  (edgeWords a n).foldl (fun (acc : Nat × Nat × State) w =>
    if acc.1 != 0 then acc
    else
      let r := readRange acc.2.2 (16 * w) 16 cnt shaft
      (r.st, r.word, r.s)) (0, 0, s)

/-- The whole words a write of `d` at `a` leaves, with the bytes it does not cover as its merge read delivers them (R69). -/
def mergedWords (s : State) (a : Nat) (d : List Byte) : List (Nat × List Byte) :=
  if d.isEmpty then []
  else
    let lo := a / 16
    let hi := (a + d.length - 1) / 16
    let pre := fixedBytes s (16 * lo) (a - 16 * lo)
    let post := fixedBytes s (a + d.length) (16 * (hi + 1) - (a + d.length))
    let all := pre ++ d ++ post
    (List.range (hi + 1 - lo)).map (fun i => (lo + i, (all.drop (16 * i)).take 16))

/-- Write into the bank or array, word by word (the caller has made the merge reads). -/
def storeBytes (s : State) (a : Nat) (d : List Byte) : State :=
  let edge := edgeWords a d.length
  (mergedWords s a d).foldl (fun s p =>
    if edge.contains p.1 then storeMerged s p.1 p.2 else storeWord s p.1 p.2) s

/-- Fill [a, a + n), whole words, with zeros carrying valid codewords (R44, R76, R79, R130); lines over the range read as
filled. -/
def zeroFill (s : State) (a n : Nat) : State :=
  { s with mem := mclear s.mem a n,
           chk := s.chk.filter (fun p => decide (p.1 < a / 16) || decide ((a + n) / 16 ≤ p.1)),
           tcBytes := s.tcBytes.filter (fun p => decide (p.1 < a) || decide (a + n ≤ p.1)),
           tcDev := s.tcDev.filter (fun p => decide (p.1 < a / 16) || decide ((a + n) / 16 ≤ p.1)) }

end Sys2Proof.Machine
end

