-- ==== Sys2Proof/Machine/Num.lean ====
section
/-! DEFINITION. The numbers of the arithmetic units: exact values, the float formats of R87, R93 and R120, and the one rounding
to nearest even of R122. Every result is computed exactly on integers and narrowed once. -/

namespace Sys2Proof.Machine

/-- A float value: NaN, an infinity, or ±m × 2^e exactly (a zero keeps its sign). -/
inductive FVal where
  | nan
  | inf (neg : Bool)
  | fin (neg : Bool) (m : Nat) (e : Int)
  deriving DecidableEq, Repr

/-- A float format: exponent bits, fraction bits, bias; `ieee` is false for E4M3, which has no infinity and saturates (R123). -/
structure Fmt where
  eb   : Nat
  fb   : Nat
  bias : Nat
  ieee : Bool
  deriving DecidableEq, Repr

def Fmt.bf16 : Fmt := ⟨8, 7, 127, true⟩
def Fmt.fp32 : Fmt := ⟨8, 23, 127, true⟩
def Fmt.e4m3 : Fmt := ⟨4, 3, 7, false⟩
def Fmt.e5m2 : Fmt := ⟨5, 2, 15, true⟩

/-- Width of a pattern in bits. -/
def Fmt.width (f : Fmt) : Nat := 1 + f.eb + f.fb

/-- The pattern of +infinity, one above the largest finite pattern; for E4M3 the pattern 0x7F of NaN. -/
def Fmt.top (f : Fmt) : Nat := if f.ieee then (2 ^ f.eb - 1) * 2 ^ f.fb else 2 ^ (f.eb + f.fb) - 1

/-- The canonical NaN (R122; 0x7F for E4M3, R123). Which of the six NaN patterns E5M2 takes is open (log entry 8). -/
def Fmt.qnan (f : Fmt) : Nat :=
  if !f.ieee then f.top
  else if f.fb = 2 then f.top + 1 + Config.e5m2Nan % 3 + 2 ^ (f.eb + f.fb) * (Config.e5m2Nan / 3 % 2)
  else f.top + 2 ^ (f.fb - 1)

/-- 2^e as an integer power, 1 for a negative exponent. -/
def pow2 (e : Int) : Nat := 2 ^ e.toNat

/-- The value of a pattern. -/
def fdec (f : Fmt) (p : Nat) : FVal :=
  let neg := tbit p (f.eb + f.fb)
  let ex := bits p (f.eb + f.fb - 1) f.fb
  let fr := p % 2 ^ f.fb
  let mag := p % 2 ^ (f.eb + f.fb)
  if f.ieee && ex == 2 ^ f.eb - 1 then (if fr = 0 then .inf neg else .nan)
  else if !f.ieee && mag == f.top then .nan
  else if ex = 0 then .fin neg fr (1 - (f.bias : Int) - f.fb)
  else .fin neg (2 ^ f.fb + fr) ((ex : Int) - f.bias - f.fb)

/-- n ÷ d rounded to nearest, ties to even. -/
def divRne (n d : Nat) : Nat :=
  let q := n / d
  let r := n % d
  if 2 * r < d then q else if d < 2 * r then q + 1 else q + q % 2

/-- m × 2^k rounded to nearest even. -/
def shiftRne (m : Nat) (k : Int) : Nat := if 0 ≤ k then m * pow2 k else divRne m (pow2 (-k))

/-- x × 2^k rounded to nearest even, on signed integers. -/
def ishiftRne (x : Int) (k : Int) : Int :=
  if x < 0 then - (shiftRne x.natAbs k : Int) else (shiftRne x.natAbs k : Int)

/-- floor(log2 (n ÷ d)) for positive n and d. -/
def ilog2 (n d : Nat) : Int :=
  let g : Int := (Nat.log2 n : Int) - Nat.log2 d
  if n * pow2 (-g) < d * pow2 g then g - 1 else g

/-- The pattern of magnitude `q units` where the unit of the last place is 2^q: overflow goes to the format's top value. -/
def packMag (f : Fmt) (neg : Bool) (q : Int) (r : Nat) : Nat :=
  let qmin : Int := 1 - (f.bias : Int) - f.fb
  let mag := (q - qmin).toNat * 2 ^ f.fb + r
  let mag' := if mag < f.top then mag else if f.ieee then f.top else f.top - 1
  b2n neg * 2 ^ (f.eb + f.fb) + mag'

/-- The exponent of the last place of a value whose leading bit has weight 2^lead. -/
def ulpExp (f : Fmt) (lead : Int) : Int := max (lead - f.fb) (1 - (f.bias : Int) - f.fb)

/-- ±n ÷ d rounded once to nearest even (R122). -/
def froundRat (f : Fmt) (neg : Bool) (n d : Nat) : Nat :=
  if n = 0 then b2n neg * 2 ^ (f.eb + f.fb)
  else
    let q := ulpExp f (ilog2 n d)
    packMag f neg q (divRne (n * pow2 (-q)) (d * pow2 q))

/-- The pattern of a value, rounded once to nearest even; NaN is the canonical NaN. -/
def fenc (f : Fmt) : FVal → Nat
  | .nan => f.qnan
  | .inf neg => b2n neg * 2 ^ (f.eb + f.fb) + (if f.ieee then f.top else f.top - 1)
  | .fin neg m e => froundRat f neg (m * pow2 e) (pow2 (-e))

/-- A signed integer times 2^e as a value; `zneg` is the sign of an exact zero. -/
def FVal.ofInt (x : Int) (e : Int) (zneg : Bool := false) : FVal :=
  if x = 0 then .fin zneg 0 e else .fin (decide (x < 0)) x.natAbs e

/-- Signed significand of a finite value. -/
def sgn (neg : Bool) (m : Nat) : Int := if neg then - (m : Int) else (m : Int)

/-- Exact sum (infinities of opposite sign give NaN; an exact zero sum is +0 unless both operands are −0). -/
def fadd : FVal → FVal → FVal
  | .nan, _ => .nan
  | _, .nan => .nan
  | .inf a, .inf b => if a = b then .inf a else .nan
  | .inf a, _ => .inf a
  | _, .inf b => .inf b
  | .fin na ma ea, .fin nb mb eb =>
    let e := min ea eb
    .ofInt (sgn na ma * (pow2 (ea - e) : Int) + sgn nb mb * (pow2 (eb - e) : Int)) e (na && nb)

/-- Negation. -/
def fneg : FVal → FVal
  | .nan => .nan
  | .inf a => .inf (!a)
  | .fin n m e => .fin (!n) m e

/-- Absolute value. -/
def fabs : FVal → FVal
  | .nan => .nan
  | .inf _ => .inf false
  | .fin _ m e => .fin false m e

/-- Exact product (infinity times zero gives NaN). -/
def fmul : FVal → FVal → FVal
  | .nan, _ => .nan
  | _, .nan => .nan
  | .inf a, .inf b => .inf (a != b)
  | .inf a, .fin b m _ => if m = 0 then .nan else .inf (a != b)
  | .fin a m _, .inf b => if m = 0 then .nan else .inf (a != b)
  | .fin a m e, .fin b n g => .fin (a != b) (m * n) (e + g)

/-- x × 2^k exactly. -/
def fscale (k : Int) : FVal → FVal
  | .nan => .nan
  | .inf a => .inf a
  | .fin n m e => .fin n m (e + k)

/-- Numeric comparison: −1, 0 or 1; none with a NaN. −0 equals +0. -/
def fcmp : FVal → FVal → Option Int
  | .nan, _ => none
  | _, .nan => none
  | .inf a, .inf b => some (if a = b then 0 else if a then -1 else 1)
  | .inf a, _ => some (if a then -1 else 1)
  | _, .inf b => some (if b then 1 else -1)
  | .fin na ma ea, .fin nb mb eb =>
    let e := min ea eb
    let x := sgn na ma * (pow2 (ea - e) : Int)
    let y := sgn nb mb * (pow2 (eb - e) : Int)
    some (if x < y then -1 else if x = y then 0 else 1)

/-- Sign bit of a value. -/
def FVal.isNeg : FVal → Bool
  | .nan => false
  | .inf n => n
  | .fin n _ _ => n

/-- Whether a value is a zero of either sign. -/
def FVal.isZero : FVal → Bool
  | .fin _ m _ => m == 0
  | _ => false

/-- Whether a value is a NaN. -/
def FVal.isNan : FVal → Bool
  | .nan => true
  | _ => false

/-- The pattern of a result: where the exact operation has no result although no operand is NaN, the open value of log entry 9;
otherwise the result rounded once. -/
def fencOr (f : Fmt) (place : Nat) (ops : List Nat) (anyNan : Bool) (v : FVal) : Nat :=
  if v.isNan && !anyNan then Config.openFloat place (ops.getD 0 0) (ops.getD 1 0) (ops.getD 2 0) % 2 ^ f.width else fenc f v

/-- Larger of two values: NaN when either is NaN, −0 below +0 (R122). -/
def fmax (a b : FVal) : FVal :=
  match fcmp a b with
  | none => .nan
  | some c => if c < 0 then b else if c = 0 then (if a.isNeg then b else a) else a

/-- Smaller of two values: NaN when either is NaN, −0 below +0 (R122). -/
def fmin (a b : FVal) : FVal :=
  match fcmp a b with
  | none => .nan
  | some c => if c < 0 then a else if c = 0 then (if a.isNeg then a else b) else b

/-- Integer nearest to a value, ties to even, clamped to [lo, hi]; NaN gives `nanv` (R123). -/
def ftoInt (lo hi nanv : Int) : FVal → Int
  | .nan => nanv
  | .inf n => if n then lo else hi
  | .fin n m e =>
    let x := ishiftRne (sgn n m) e
    if x < lo then lo else if hi < x then hi else x

/-- The greatest c below 2^n that satisfies the monotone predicate, found bit by bit (0 when none does). -/
def searchBits (p : Nat → Bool) : Nat → Nat → Nat
  | 0, acc => acc
  | n + 1, acc => if p (acc + 2 ^ n) then searchBits p n (acc + 2 ^ n) else searchBits p n acc

/-- Round a positive real to `f`, given the weight 2^lead of its leading bit and the test c × 2^h ≤ x of its
half-place multiples. `exact` says whether c × 2^h = x. -/
def froundBy (f : Fmt) (neg : Bool) (lead : Int) (le : Int → Nat → Bool) (exact : Int → Nat → Bool) : Nat :=
  let q := ulpExp f lead
  let h := searchBits (le (q - 1)) (f.fb + 3) 0
  let r := if h % 2 = 0 then h / 2 else if exact (q - 1) h then h / 2 + h / 2 % 2 else h / 2 + 1
  packMag f neg q r

/-- 1 ÷ x, correctly rounded (R121, R122); `openv` where x is a zero (log entry 9). -/
def frcp (f : Fmt) (openv : Nat) : FVal → Nat
  | .nan => f.qnan
  | .inf n => fenc f (.fin n 0 0)
  | .fin n m e => if m = 0 then openv else froundRat f n (pow2 (-e)) (m * pow2 e)

/-- 1 ÷ √x, correctly rounded; `openv` where x is a zero or negative (log entry 9). -/
def frsqrt (f : Fmt) (openv : Nat) : FVal → Nat
  | .nan => f.qnan
  | .inf n => if n then openv else 0
  | .fin n m e =>
    if m = 0 ∨ n then openv
    else
      -- c × 2^h ≤ 1/√x  iff  c² × m × 2^(2h + e) ≤ 1
      let lhs := fun (h : Int) (c : Nat) => c * c * m * pow2 (2 * h + e)
      let rhs := fun (h : Int) (_ : Nat) => pow2 (-(2 * h + e))
      let l2 := ilog2 (pow2 (-e)) (m * pow2 e)
      froundBy f false (if l2 % 2 = 0 then l2 / 2 else (l2 - 1) / 2)
        (fun h c => decide (lhs h c ≤ rhs h c)) (fun h c => lhs h c == rhs h c)

/-- ln 2 in units of 2^−224. -/
def ln2Fix : Nat := 18687211020381960287278961438292188228571477255688502128730264377179

/-- 2^(num ÷ 2^s) in units of 2^−224, for num below 2^s: the series of e^(y ln 2) on integers (log entry 14). -/
def exp2Frac (num s : Nat) : Nat :=
  let y := num * ln2Fix / 2 ^ s
  ((List.range 64).foldl (fun (acc : Nat × Nat) n =>
    let t := acc.2 * y / 2 ^ 224 / (n + 1)
    (acc.1 + t, t)) (2 ^ 224, 2 ^ 224)).1

/-- 2^(a ÷ 2^s) as a value: exact for an integer exponent, else to 215 bits with the last bit standing for the rest. -/
def exp2Val (a : Int) (s : Nat) : FVal :=
  let k := a / (2 ^ s : Int)
  let r := (a % (2 ^ s : Int)).toNat
  if r = 0 then .fin false 1 k else .fin false (2 * exp2Frac r s + 1) (k - 225)

/-- 2^x, rounded once (R121, R160; log entry 14). -/
def fexp2 (f : Fmt) : FVal → Nat
  | .nan => f.qnan
  | .inf n => if n then 0 else fenc f (.inf false)
  | .fin n m e =>
    let s := (-e).toNat
    let a : Int := sgn n m * (pow2 e : Int)
    let lead := a / (2 ^ s : Int)
    if lead > f.bias + 1 then fenc f (.inf false)
    else if lead < - ((f.bias + f.fb + 2 : Nat) : Int) then 0
    else fenc f (exp2Val a s)

/-- Fraction bits of log2 z, z in units of 2^−320 from 1 to 2, most significant first, by squaring. -/
def log2Bits : Nat → Nat → Nat → Nat
  | 0, _, acc => acc
  | n + 1, z, acc =>
    let q := z * z / 2 ^ 320
    if 2 ^ 321 ≤ q then log2Bits n (q / 2) (2 * acc + 1) else log2Bits n q (2 * acc)

/-- log2 (n ÷ d) as a value: exact for a power of two, else to 160 fraction bits with a last bit standing for the rest. -/
def log2Val (n d : Nat) : FVal :=
  let l := ilog2 n d
  let num := n * pow2 (-l)
  let den := d * pow2 l
  if num = den then .ofInt l 0
  else .ofInt ((l * 2 ^ 160 + (log2Bits 160 (num * 2 ^ 320 / den) 0 : Int)) * 2 + 1) (-161)

/-- log2 x, rounded once (R121; log entry 14); `openv` where x is a zero or negative (log entry 9). -/
def flog2 (f : Fmt) (openv : Nat) : FVal → Nat
  | .nan => f.qnan
  | .inf n => if n then openv else fenc f (.inf false)
  | .fin n m e =>
    if m = 0 ∨ n then openv
    else fenc f (log2Val (m * pow2 e) (pow2 (-e)))

/-- floor(log2 |x|) of a finite non-zero value (R121, VGETE). -/
def fgete : FVal → Option Int
  | .fin _ m e => if m = 0 then none else some ((Nat.log2 m : Int) + e)
  | _ => none

end Sys2Proof.Machine
end

