-- ==== Sys2Proof/Machine/TcOps.lean ====
section
/-! DEFINITION. The tower caches: placement, allocation, write-back, and reductions into cached lines (R238–R256), and the
ranges of running near-bank units (R155, R244). -/

namespace Sys2Proof.Machine

/-! ### Near-bank ranges -/

def nbUnit (s : State) (b : Nat) : NbUnit := tget NbUnit.init s.nb b
def setUnit (s : State) (b : Nat) (u : NbUnit) : State := { s with nb := tput b u s.nb }

/-- First issued address of a bank, from its cluster's logical number (R41, R152). -/
def bankBase (s : State) (b : Nat) : Option Nat :=
  (logOf s (b / 512)).map (fun l => l * 2 ^ 32 + b / 32 % 16 * 2 ^ 28 + b % 32 * 2 ^ 23)

/-- Whether two byte ranges share a byte. -/
def overlaps (a n b m : Nat) : Bool := decide (0 < n) && decide (0 < m) && decide (a < b + m) && decide (b < a + n)

/-- Whether [a, a + n) touches the OUT (or, with `inToo`, the IN) range of a running unit (R155). -/
def nbTouch (s : State) (a n : Nat) (inToo : Bool) : Bool :=
  s.nb.any (fun e => match e.2.run with
    | none => false
    | some r => match bankBase s e.1 with
      | none => false
      | some base => overlaps a n (base + 64 * r.outB) (64 * r.outL)
          || (inToo && overlaps a n (base + 64 * r.inB) (64 * r.inL)))

/-! ### What an access waits for at a bank (R63, R155, R165) -/

def refrOf (s : State) (b : Nat) : Refr := tget Refr.init s.refr b
def setRefr (s : State) (b : Nat) (r : Refr) : State := { s with refr := tput b r s.refr }

/-- Whether an access of [a, a + n) reaches a bank itself: some granule of it there is in no line. -/
def reachesBank (s : State) (a n b : Nat) : Bool :=
  match bankBase s b with
  | none => false
  | some base => overlaps a n base (2 ^ 23) && (granParts a n).any (fun p => overlaps p.1 p.2 base (2 ^ 23) && !(cached s (p.1 / 1024)))

/-- Whether a read has waited more than 20 µs for the operation whose OUT range it reads (R155). -/
def readLate (s : State) (a n : Nat) : Bool := s.nbBlock.any (fun y => y.addr == a && y.len == n && y.out && y.late && !y.ready)

/-- Whether an access is the one a bank is kept for (R155, R165). -/
def readyAt (s : State) (b a n : Nat) : Bool := s.nbBlock.any (fun y => y.bank == b && y.addr == a && y.len == n && y.ready)

/-- Whether a bank is kept for an access that its boundary let through. -/
def keptFree (s : State) (b : Nat) : Bool := s.nbBlock.any (fun y => y.bank == b && y.ready)

/-- What an access of [a, a + n) waits for (R63, R155, R165): the end of an operation whose OUT range it reads, the boundary of a
step in progress, the end of a row refresh. -/
def bankNeeds (s : State) (a n : Nat) (write : Bool) : List Need :=
  if decide (spBase ≤ a) then []
  else
    let units := s.nb.filterMap (fun e => match e.2.run, bankBase s e.1 with
      | some r, some base =>
        if readyAt s e.1 a n then none
        else if !write && overlaps a n (base + 64 * r.outB) (64 * r.outL) then some (Need.bank e.1 a n true)
        else if r.step.isSome && reachesBank s a n e.1 then some (Need.bank e.1 a n false)
        else none
      | _, _ => none)
    let busy := s.refr.filterMap (fun e => if e.2.busy && reachesBank s a n e.1 then some (Need.bank e.1 a n false) else none)
    units ++ busy

/-- A boundary of a bank lets the accesses through that wait for it: those of its OUT range once the operation is over (R155,
R165). -/
def unblock (s : State) (b : Nat) (ended : Bool) : State :=
  { s with nbBlock := s.nbBlock.map (fun y => if y.bank == b && (ended || !y.out) then { y with ready := true } else y) }

/-- Give up what a bank is kept for: the accesses did not come again (log entry 162). -/
def handBack (s : State) (b : Nat) : State := { s with nbBlock := s.nbBlock.filter (fun y => !(y.bank == b && y.ready)) }

/-- The step waits for banks first (R155, R165). -/
def needs (s : State) (l : List Need) : State := { s with host := { s.host with hit := s.host.hit ++ l } }

/-- An access of [a, a + n) comes to its banks: it waits for them first, or takes its turn (R155, R165). -/
def atBanks (s : State) (a n : Nat) (write : Bool) : State :=
  needs { s with nbBlock := s.nbBlock.filter (fun y => !(y.addr == a && y.len == n)) } (bankNeeds s a n write)

/-! ### What an access waits for on its way (R20, R27, R32, R393, R395) -/

/-- Tower over the router of a network interface: a cluster's own, and those of the floor's engines and host ports (R20; log
entry 77). -/
def niTower (ni : Nat) : Option Nat :=
  if ni < 1024 then some (ni / 64)
  else match ni with | 1024 => some 5 | 1025 => some 9 | 1026 => some 6 | 1028 => some 1 | 1029 => some 2 | _ => none

/-- The clusters whose pillars or scratchpads an access reaches. -/
def reached (s : State) (a n : Nat) : List Nat :=
  match spaceOf a with
  | .stack _ _ => (granParts a n).filterMap (fun p => physOf s (storeL s p.1))
  | .scratch l _ => (physOf s l).toList
  | _ => []

/-- Whether an access of network interface `ni` meets an island without a clock: the cluster it reaches, the S layer of its tower,
the routers and links between, on the way there or back. -/
def clockStops (s : State) (ni a n : Nat) : Bool :=
  (reached s a n).any (fun c =>
    noClock s c || (decide (a < spBase) && noClock s (2048 + c / 64)) ||
    (match niTower ni with
     | none => noClock s (2064 + c / 64)
     | some t => if ni < 1024 ∧ t = c / 64 then false else pathStops s t (c / 64) || pathStops s (c / 64) t))

/-- An access passes islands on its way: where one has no clock it waits. -/
def atClocks (s : State) (ni a n : Nat) : State :=
  if s.clk.unlocked.isEmpty && s.clk.stuck.isEmpty then s
  else needs s (if clockStops s ni a n then [Need.clock] else [])

/-- Work that must end does not wait for a clock (R339). -/
def anyClock (s : State) : State := { s with host := { s.host with hit := s.host.hit.filter (fun x => x != Need.clock) } }

/-! ### Lines -/

def setLine (s : State) (t : Nat) (l : TcLine) : State :=
  let x := tcOf s t
  setTc s t { x with lines := l :: x.lines.filter (fun y => y.gran != l.gran) }

/-- Drop a line with its bytes. -/
def dropLine (s : State) (t g : Nat) : State :=
  let x := tcOf s t
  let s := setTc s t { x with lines := x.lines.filter (fun y => y.gran != g) }
  { s with tcBytes := s.tcBytes.filter (fun p => p.1 / 1024 != g), tcDev := s.tcDev.filter (fun p => p.1 / 64 != g) }

/-- The data of a line. -/
def lineData (s : State) (g : Nat) : List Byte := mread s.tcBytes (1024 * g) 1024

/-- Put bytes, whole words with correct check symbols, into a line. -/
def linePut (s : State) (a : Nat) (d : List Byte) : State :=
  { s with tcBytes := mwrite s.tcBytes a d,
           tcDev := s.tcDev.filter (fun p => decide (p.1 < a / 16) || decide ((a + d.length) / 16 ≤ p.1)) }

/-- DETAIL of TC_LOSS (R354). -/
def tcLossDetail (s : State) (g : Nat) : Nat :=
  match bankOf s (1024 * g) with
  | none => 0
  | some b => b / 512 % 64 * 2 ^ 22 + b / 32 % 16 * 2 ^ 18 + b % 32 * 2 ^ 13 + bits (1024 * g) 22 10

/-- The fence of a lost word of a dirty line, whose entry names the line: its way is cleared at the compute reset (R245, R340). -/
def tcLoss (s : State) (t : Nat) (l : TcLine) (st job : Nat) : State :=
  raiseFault s job [⟨.way t l.way, .repair, false, 0, 0⟩] (mkRep s 0x0E 3 3 t st job (tcLossDetail s l.gran))

/-- Current job of the logical cluster whose pillar a granule lies in (R335). -/
def granJob (s : State) (g : Nat) : Nat := jobOfC s ((bankOf s (1024 * g)).getD 0 / 512)

/-- A word of a written-back line whose check symbols deviate: corrected, or written as stored with the fence of R245. -/
def backWord (t : Nat) (l : TcLine) (s : State) (w : Nat) : State :=
  let o := readWord s w
  match o.1 with
  | .clean => s
  | .corrected j x => stain (putWord (countLine s w j x) w o.2) w
  | f => tcLoss (setDev (countUe s f.status) w (lineDev s w)) t l f.status (granJob s l.gran)

/-- Write a line back to the bank with its issued addresses' codewords; it becomes clean (R242, R245, R254). -/
def writeBack (s : State) (t : Nat) (l : TcLine) : State :=
  if !l.dirty then s
  else
    let a := 1024 * l.gran
    let s := cmdPassed { s with mem := mwrite s.mem a (lineData s l.gran), chk := s.chk.filter (fun p => p.1 / 64 != l.gran) } a
    let s := if s.topo.deadLanes.isEmpty then s else foldUp 64 (fun s i => stain s (64 * l.gran + i)) s
    let iw := fget s .ECC_INJ [] Fld.ECC_INJ_ADDR
    let s := if fbit s .ECC_INJ [] Fld.ECC_INJ_ARM && iw / 64 == l.gran then injectWord s iw else s
    let s := (((s.tcDev.map (fun p => p.1)).filter (fun w => w / 64 == l.gran)).foldl (backWord t l) s)
    setLine s t { l with dirty := false }

/-! ### Reductions (R250–R252) -/

/-- Element size of a RED code: BF16 for multiples of 3. -/
def redSize (op : Nat) : Nat := if op % 3 = 0 then 2 else 4
def redIsFloat (op : Nat) : Bool := op % 3 != 1

/-- One element of a reduction (R250): op 1–3 add, 4–6 max, 7–9 min; INT32, FP32, BF16 in turn. -/
def redElem (op d x : Nat) : Nat :=
  let f := if op % 3 = 0 then Fmt.bf16 else Fmt.fp32
  match op with
  | 1 => (d + x) % 2 ^ 32
  | 4 => if sext 32 d < sext 32 x then x else d
  | 7 => if sext 32 x < sext 32 d then x else d
  | 2 => fenc .fp32 (fadd (fdec .fp32 d) (fdec .fp32 x))
  | 3 => fenc .bf16 (fadd (fdec .bf16 d) (fdec .bf16 x))
  | 5 => fenc f (fmax (fdec f d) (fdec f x))
  | 6 => fenc f (fmax (fdec f d) (fdec f x))
  | 8 => fenc f (fmin (fdec f d) (fdec f x))
  | 9 => fenc f (fmin (fdec f d) (fdec f x))
  | _ => d

/-- Reduce source bytes into destination bytes, element by element; `mask` says which source bytes take part. -/
def redBytes (op : Nat) (d x : List Byte) (mask : List Bool) : List Byte :=
  let z := redSize op
  (List.range (d.length / z)).flatMap (fun i =>
    let de := (d.drop (z * i)).take z
    let xe := (x.drop (z * i)).take z
    if (mask.drop (z * i)).take z |>.all id then leBytes z (redElem op (leNat de) (leNat xe)) else de)

/-- Ways of a set in use: data ways, companions and staging entries, those of lines in the victim buffer too. -/
def waysUsed (s : State) (x : Tc) (idx : Nat) : List Nat :=
  (x.lines.filter (fun l => granIdx s l.gran == idx)).flatMap (fun l =>
    (if l.victim then [] else [l.way]) ++ (match l.wide with | some w => [w.1] | none => []) ++ l.stWays)

/-- The line a new way is taken from (R247): none pending, widened, staged or keep, nor the line `own` the way is for;
evict-first before normal, oldest first. -/
def tcVictim (s : State) (x : Tc) (idx cls : Nat) (own : Option Nat := none) : Option TcLine :=
  (x.lines.filter (fun l => !l.victim && granIdx s l.gran == idx && l.cls == cls && l.queue.isEmpty && l.staged.isEmpty
    && l.wide.isNone && own != some l.gran)).foldl (fun best l => match best with
      | none => some l
      | some b => if l.stamp < b.stamp then some l else some b) none

/-- Lines of a slice in the victim buffer, oldest last. -/
def victims (s : State) (x : Tc) (slice : Nat) : List TcLine :=
  x.lines.filter (fun l => l.victim && granIdx s l.gran % 64 == slice)

/-- The FP32 values of a line's BF16 elements, and their rounding once to BF16 (R251). -/
def widen (d : List Byte) : List Nat :=
  (List.range 512).map (fun i => fenc .fp32 (fdec .bf16 (leNat ((d.drop (2 * i)).take 2))))
def narrowed (vs : List Nat) : List Byte := vs.flatMap (fun v => leBytes 2 (fenc .bf16 (fdec .fp32 v)))

/-- Apply a BF16 add to FP32 values of a widened line. -/
def wideAdd (vs : List Nat) (off : Nat) (x : List Byte) : List Nat :=
  foldUp (x.length / 2) (fun vs i =>
    let j := off / 2 + i
    let e := leNat ((x.drop (2 * i)).take 2)
    lset vs j (fenc .fp32 (fadd (fdec .fp32 (lget 0 vs j)) (fdec .bf16 e)))) vs

/-- Insert a contribution in ascending source-ID order, arrival order within one source (R252). -/
def insertBySrc (c : Contrib) : List Contrib → List Contrib
  | [] => [c]
  | x :: r => if c.src < x.src then c :: x :: r else x :: insertBySrc c r

/-- The contributions of a batch in the order they are applied (R252). -/
def batchOrder (cs : List Contrib) : List Contrib := cs.foldl (fun acc c => insertBySrc c acc) []

/-- One contribution over a line's bytes and, once widened, its FP32 values (R250, R251). -/
def drainStep (base : Nat) (x : List Byte × Option (List Nat)) (c : Contrib) : List Byte × Option (List Nat) :=
  let off := c.addr - base
  let n := c.data.length
  if c.op = 3 then (x.1, some (wideAdd (x.2.getD (widen x.1)) off c.data))
  else
    let d := match x.2 with | none => x.1 | some vs => narrowed vs
    (d.take off ++ redBytes c.op ((d.drop off).take n) c.data (List.replicate n true) ++ d.drop (off + n), none)

/-- Whether a line's bytes repeat one 16-byte value (R254). -/
def uniformLine (d : List Byte) : Bool := (List.range 64).all (fun i => (d.drop (16 * i)).take 16 == d.take 16)

/-- The words of a line are read: corrections are counted (R239); the first word that does not decode. -/
def lineRead (s : State) (g : Nat) : Option Nat × State :=
  (badWords s (1024 * g) 1024).foldl (fun (acc : Option Nat × State) w =>
    match acc.1, (readWord acc.2 w).1 with
    | some _, _ => acc
    | none, .clean => acc
    | none, .corrected j x => (none, countLine acc.2 w j x)
    | none, f => (some f.status, countUe acc.2 f.status)) (none, s)

/-- Close the batch and narrow a line before any other access (R251, R252). A compressed line that a contribution leaves not
uniform expands, or leaves a disabled way by its write-back (R254). A line whose words do not decode is lost with its
contributions (R245); the values of a widened line stand beside them. -/
def settle (s : State) (t g : Nat) : State :=
  match tcLine (tcOf s t) g with
  | none => s
  | some l =>
    if l.staged.isEmpty && l.wide.isNone then s
    else
      let q := if l.wide.isSome then (none, s) else lineRead s g
      let s := q.2
      match q.1 with
      | some st => dropLine (tcLoss s t l st (granJob s g)) t g
      | none =>
      let x := (batchOrder l.staged).foldl (drainStep (1024 * g)) (fixedBytes s (1024 * g) 1024, l.wide.map (fun w => w.2))
      let d := match x.2 with | none => x.1 | some vs => narrowed vs
      let s := finc s .TC_CNT [t, 2] Fld.TC_CNT_COUNT l.staged.length
      let comp := l.comp && uniformLine d
      let l := { l with staged := [], stWays := [], wide := none, dirty := true, comp := comp }
      let s := setLine (linePut s (1024 * g) d) t l
      if comp || tbit (tcOf s t).wayEn l.way then s else dropLine (writeBack s t l) t g

/-- A dirty victim goes to its slice's buffer of 8 lines; a full buffer issues its oldest write-back once its reductions are
applied (R243). -/
def toVictim (s : State) (t : Nat) (l : TcLine) : State :=
  if !l.dirty then dropLine s t l.gran
  else
    let slice := granIdx s l.gran % 64
    let vs := victims s (tcOf s t) slice
    let s := if 8 ≤ vs.length then
        (match vs.getLast? with
         | some o =>
           let s := settle s t o.gran
           (match tcLine (tcOf s t) o.gran with
            | some o => dropLine (writeBack s t o) t o.gran
            | none => s)
         | none => s) else s
    setLine s t { l with victim := true }

/-- Free a way of a set (R247): an enabled way not in use, else an evict-first line, else a normal line; `own` is the line the
way is for, which is never chosen. A compressed line may take a disabled way (R254). -/
def takeWay (s : State) (t idx : Nat) (comp : Bool := false) (own : Option Nat := none) : Option (Nat × State) :=
  let x := tcOf s t
  let used := waysUsed s x idx
  let ok := fun (l : TcLine) => comp || tbit x.wayEn l.way
  match (List.range 16).find? (fun w => (comp || tbit x.wayEn w) && !(used.contains w)) with
  | some w => some (w, s)
  | none =>
    let x' := { x with lines := x.lines.filter ok }
    match tcVictim s x' idx 2 own with
    | some l => some (l.way, toVictim s t l)
    | none =>
      match tcVictim s x' idx 0 own with
      | some l => some (l.way, toVictim s t l)
      | none => none

/-- Store bytes into a present line: it becomes dirty. A compressed line that is no longer uniform expands into its way's data
array, or, in a disabled way, is written back and moved to an enabled way (R254). -/
def lineBytes (s : State) (t : Nat) (l : TcLine) (a : Nat) (d : List Byte) : State :=
  let s := (mergedWords s a d).foldl (fun s p => linePut s (16 * p.1) p.2) s
  if !l.comp then setLine s t { l with dirty := true }
  else
    let l' := { l with dirty := true, comp := uniformLine (lineData s l.gran) }
    if l'.comp || tbit (tcOf s t).wayEn l.way then setLine s t l'
    else
      let s := writeBack (setLine s t l') t l'
      match takeWay s t (granIdx s l.gran) false (some l.gran) with
      | some (w, s) => setLine s t { l' with way := w, dirty := false }
      | none => if l.staged.isEmpty then dropLine s t l.gran else setLine s t l'

/-- A widened line is narrowed, its batch left as it is: a reduction of another operation or format reaches it (R251, R252). -/
def narrowLine (s : State) (t : Nat) (l : TcLine) : State :=
  match l.wide with
  | none => s
  | some (_, vs) => lineBytes s t { l with wide := none } (1024 * l.gran) (narrowed vs)

/-- Keep lines of a set. -/
def keepCount (s : State) (x : Tc) (idx : Nat) : Nat :=
  (x.lines.filter (fun l => !l.victim && granIdx s l.gran == idx && l.cls == 1)).length

def quota (s : State) (t : Nat) : Nat := min 12 (fget s .TC_PIN_QUOTA [t] Fld.TC_PIN_QUOTA_QUOTA)

/-- The class an access gives a line (R246): `old` is its class, none at an allocation. The flag says a keep hint was
demoted. -/
def classOf (s : State) (t idx : Nat) (old : Option Nat) (hint : Nat) : Nat × Bool :=
  match hint, old with
  | 1, some 1 => (1, false)
  | 1, _ => if keepCount s (tcOf s t) idx < quota s t then (1, false) else ((old.getD 0), true)
  | 2, _ => (2, false)
  | _, some c => (c, false)
  | _, none => (0, false)

/-- Apply a contribution to a present line, without staging (R250, R251): none while no companion way is eligible (R247). -/
def applyNow (s : State) (t : Nat) (l : TcLine) (c : Contrib) : Option State :=
  let s := finc s .TC_CNT [t, 2] Fld.TC_CNT_COUNT 1
  let off := c.addr - 1024 * l.gran
  if c.op = 3 then
    match l.wide with
    | some (w, vs) => some (setLine s t { l with wide := some (w, wideAdd vs off c.data), dirty := true })
    | none =>
      (takeWay s t (granIdx s l.gran) false (some l.gran)).map (fun p =>
        setLine p.2 t { l with wide := some (p.1, wideAdd (widen (fixedBytes p.2 (1024 * l.gran) 1024)) off c.data), dirty := true })
  else
    let s := narrowLine s t l
    (tcLine (tcOf s t) l.gran).map (fun l =>
      lineBytes s t l c.addr (redBytes c.op (fixedBytes s c.addr c.data.length) c.data (List.replicate c.data.length true)))

/-- Apply a batch in order to a line: none while no companion way is eligible. -/
def applyBatch (s : State) (t : Nat) (l : TcLine) (cs : List Contrib) : Option State :=
  (batchOrder cs).foldl (fun (acc : Option State) c => acc.bind (fun s => match tcLine (tcOf s t) l.gran with
    | some l' => applyNow s t l' c
    | none => some s)) (some (setLine s t { l with staged := [], stWays := [] }))

/-- Close a line's batch: its staged contributions are applied in source-ID order (R252). The ways its staging entries leave
serve as companion. -/
def closeBatch (s : State) (t : Nat) (l : TcLine) : State := (applyBatch s t l l.staged).getD s

/-! ### Lookups (R240–R242, R246–R249) -/

/-- What a lookup or a fill gives: a failing status with its word, 0 when the access goes on, and the state. -/
abbrev TcRes := Nat × Nat × State

/-- The errors an access meets among the stored words of a line (R245): a failing word of a clean line without reductions
invalidates it, and the access goes on; of any other line it is lost, with the fence. Contributions staged for a line need all
its words. -/
def lineErrs (job : Nat) (s : State) (a n : Nat) : Nat × State :=
  ((s.tcDev.map (fun p => p.1)).filter (fun w => n != 0 && ((decide (a / 16 ≤ w) && decide (w ≤ (a + n - 1) / 16))
      || ((granules a n).contains (w / 64) && match lineOf s (w / 64) with
          | some (_, l) => !l.staged.isEmpty && l.wide.isNone
          | none => false)))).foldl
    (fun (acc : Nat × State) w =>
      if acc.1 != 0 then acc
      else match lineOf acc.2 (w / 64) with
        | none => acc
        | some (t, l) =>
          let st := (readWord acc.2 w).1.status
          if st = 0 then acc
          else if l.dirty || !l.queue.isEmpty || !l.staged.isEmpty || l.wide.isSome then
            (st, dropLine (tcLoss (countUe acc.2 st) t l st job) t l.gran)
          else (0, dropLine acc.2 t l.gran)) (0, s)

/-- Put a new line with its data into its way. -/
def newLine (s : State) (t g w cls : Nat) (comp : Bool) (d : List Byte) : State :=
  let x := tcOf s t
  let s := { setTc s t { x with stamp := x.stamp + 1 } with tcBytes := mwrite s.tcBytes (1024 * g) d }
  setLine s t ⟨g, w, cls, false, comp, x.stamp + 1, none, [], [], [], false⟩

/-- Bring a granule in, by a read of its whole row or, with `whole`, none (R242): a failing row is not allocated and its status
and word are answered (R71); none when no way is eligible. `counted`: the row's words have been read and counted before. -/
def allocLine (s : State) (t g hint : Nat) (whole comp : Bool) (counted : Bool := false) : Option TcRes :=
  let idx := granIdx s g
  match takeWay s t idx comp with
  | none => none
  | some (w, s1) =>
    let r := if whole then ⟨0, 0, mread s1.mem (1024 * g) 1024, s1⟩
      else if counted then ⟨0, 0, fixedBytes s1 (1024 * g) 1024, s1⟩ else readRange (cmdPassed s1 (1024 * g)) (1024 * g) 1024 0
    if r.st != 0 then some (r.st, r.word, (readRange s (1024 * g) 1024 0).s)
    else
      let k := classOf r.s t idx none hint
      let s := if k.2 then finc r.s .TC_CNT [t, 3] Fld.TC_CNT_COUNT 1 else r.s
      some (0, 0, newLine s t g w k.1 comp r.bytes)

/-- Advance the stream detector of a pillar for a normal-class read (R249): the rows to fill. -/
def streamStep (s : State) (t c ni bank row : Nat) (miss : Bool) : State × List Nat :=
  let x := tcOf s t
  let es := tget [] x.streams c
  match es.find? (fun e => e.ni == ni && e.bank == bank && e.row + 1 == row) with
  | some e =>
    if miss || 4 ≤ e.len then
      let e' := { e with row := row, len := e.len + 1 }
      let s := setTc s t { x with streams := tput c (e' :: es.filter (fun y => y != e)) x.streams }
      (s, if 4 ≤ e'.len then [row + 1, row + 2] else [])
    else (s, [])
  | none =>
    if miss then
      let keep := es.filter (fun y => !(y.ni == ni && y.bank == bank))
      (setTc s t { x with streams := tput c ((⟨ni, bank, row, 1⟩ : Stream) :: keep.take 15) x.streams }, [])
    else (s, [])

/-- Run the stream detector for a normal-class read of a granule: it fills the rows ahead that are absent (R249). A failing fill
raises the fence of R71 for the reader's job. -/
def streamRead (s : State) (t ni g job : Nat) (miss : Bool) : State :=
  match bankOf s (1024 * g) with
  | none => s
  | some b =>
    if !(fbit s .TC_CFG [t] Fld.TC_CFG_PF_EN) then s
    else
      let st := streamStep s t (b / 512) ni b (bits (1024 * g) 22 10) miss
      match logOf s (b / 512) with
      | none => st.1
      | some l => st.2.foldl (fun s row =>
          let g' := issuedOf s l (b / 32 % 16 * 2 ^ 28 + b % 32 * 2 ^ 23 + row * 1024) / 1024
          if 8192 ≤ row || (tcLine (tcOf s t) g').isSome || nbTouch s (1024 * g') 1024 false then s
          else match allocLine s t g' 0 false false with
            | none => s
            | some (0, _, s) => s
            | some (st, w, s) => wordFault s st 8 (16 * w) job) st.1

/-- Count a lookup of a class and, for a miss, the miss (R248, TC_CNT). -/
def countLook (s : State) (t hint : Nat) (miss : Bool) : State :=
  let s := finc s .TC_CNT [t, b2n miss] Fld.TC_CNT_COUNT 1
  let x := tcOf s t
  setTc s t { x with look := x.look + b2n (hint == 0), miss := x.miss + b2n (hint == 0 && miss) }

/-- An allocating access hits a line: its class follows the hint, and it becomes the most recently used (R246, R247). -/
def touchLine (s : State) (t : Nat) (l : TcLine) (hint : Nat) : State :=
  let s := countLook s t hint false
  let k := classOf s t (granIdx s l.gran) (some l.cls) hint
  let s := if k.2 then finc s .TC_CNT [t, 3] Fld.TC_CNT_COUNT 1 else s
  let x := tcOf s t
  setLine (setTc s t { x with stamp := x.stamp + 1 }) t { l with cls := k.1, stamp := x.stamp + 1 }

/-- How an access uses the tower cache (R241): the requesting network interface, whether a miss allocates, its hint, whether it
writes, whether whole lines it writes become compressed (R254), and the job of its work. -/
structure TcUse where
  ni    : Nat
  alloc : Bool
  hint  : Nat
  write : Bool
  comp  : Bool
  job   : Nat
  deriving DecidableEq, Repr

/-- An access to one granule that looks the cache up (R241); `whole` says that it writes the whole line. Hit-only accesses change
no replacement state. A miss that finds no way, or whose line would overlap the OUT range of a running unit, goes to the bank
(R244, R247). -/
def tcLookup (s : State) (u : TcUse) (g : Nat) (whole : Bool) : TcRes :=
  match granTower s g with
  | none => (0, 0, s)
  | some t =>
    if nbTouch s (1024 * g) 1024 false then (0, 0, s)
    else
    let s := settle s t g
    match tcLine (tcOf s t) g with
    | some l =>
      if !u.alloc then (0, 0, s)
      else
        let s := touchLine s t l u.hint
        (0, 0, if u.write || u.hint != 0 then s else streamRead s t u.ni g u.job false)
    | none =>
      if !u.alloc then (0, 0, s)
      else
        let s := countLook s t u.hint true
        let comp := whole && u.comp && fbit s .TC_CFG [t] Fld.TC_CFG_CMODE
        match allocLine s t g u.hint whole comp with
        | some (0, _, s) => (0, 0, if u.write || u.hint != 0 then s else streamRead s t u.ni g u.job true)
        | some r => r
        | none => (0, 0, if u.write || u.hint != 0 then s else streamRead s t u.ni g u.job true)

/-- Look up every granule of a range, up to the first failing fill; ranges outside stack DRAM pass no tower cache. -/
def tcTouch (s : State) (u : TcUse) (a n : Nat) : TcRes :=
  if a < spBase then (granules a n).foldl (fun (acc : TcRes) g =>
    if acc.1 != 0 then acc
    else tcLookup acc.2.2 u g (u.write && decide (a ≤ 1024 * g) && decide (1024 * g + 1024 ≤ a + n))) (0, 0, s)
  else (0, 0, s)

/-- Write a word through the cache: into a present line, else into the bank (R242); `full` says that the write covers
the whole word. -/
def cacheWord (s : State) (full : Bool) (w : Nat) (d : List Byte) : State :=
  let bank := fun (_ : Unit) => stain (if full then storeWord s w d else storeMerged s w d) w
  if 16 * w < spBase then
    match lineOf s (w / 64) with
    | some (t, l) => lineBytes s t l (16 * w) d
    | none => bank ()
  else bank ()

/-- Write bytes through the cache (the caller has made the merge reads). -/
def cacheBytes (s : State) (a : Nat) (d : List Byte) : State :=
  if decide (a < spBase) && (granules a d.length).any (cached s) then
    -- line by line, so that a compressed line is judged by all the bytes it takes, and narrowed first (R251)
    let s := (granules a d.length).foldl (fun s g => match granTower s g with | some t => settle s t g | none => s) s
    (granParts a d.length).foldl (fun s p =>
      let b := (d.drop (p.1 - a)).take p.2
      match lineOf s (p.1 / 1024) with
      | some (t, l) => lineBytes s t l p.1 b
      | none =>
        let edge := edgeWords p.1 p.2
        (mergedWords s p.1 b).foldl (fun s x => cacheWord s (!edge.contains x.1) x.1 x.2) s) s
  else
    let edge := edgeWords a d.length
    (mergedWords s a d).foldl (fun s p => cacheWord s (!edge.contains p.1) p.1 p.2) s

/-- One line's part of a reduction (R246–R253): none when it must wait: for a way, or for the unit whose OUT its line
overlaps (R244). -/
def tcReduceLine (s : State) (src a op hint : Nat) (d : List Byte) : Option State :=
  let g := a / 1024
  match granTower s g with
  | none => some s
  | some t =>
    let s? := match tcLine (tcOf s t) g with
      | some l => some (touchLine s t l hint)
      | none =>
        if nbTouch s (1024 * g) 1024 false then none
        else (allocLine (countLook s t hint true) t g hint false false true).map (fun (r : TcRes) => r.2.2)
    s?.bind (fun s => match tcLine (tcOf s t) g with
      | none => some s
      | some l =>
        let c : Contrib := ⟨op, src, a, d⟩
        if redIsFloat op && fbit s .TC_CFG [t] Fld.TC_CFG_DET then
          match takeWay s t (granIdx s g) false (some g) with
          | some (w, s1) =>
            some (setLine s1 t { l with staged := l.staged ++ [c], stWays := l.stWays ++ [w], dirty := true })
          | none => applyBatch (finc s .TC_CNT [t, 6] Fld.TC_CNT_COUNT 1) t l (l.staged ++ [c])
        else applyNow s t l c)

/-- The parts of a range by line: (address, bytes). -/
def lineParts (a : Nat) (d : List Byte) : List (Nat × List Byte) :=
  (granules a d.length).map (fun g =>
    let lo := max a (1024 * g)
    let hi := min (a + d.length) (1024 * g + 1024)
    (lo, (d.drop (lo - a)).take (hi - lo)))

/-- Reduce bytes into stack DRAM (R250): none when a line must wait. -/
def tcReduce (s : State) (src a op hint : Nat) (d : List Byte) : Option State :=
  (lineParts a d).foldl (fun acc p => acc.bind (fun s => tcReduceLine s src p.1 op hint p.2)) (some s)

/-- Read every line a reduction reaches (R245, R250): the first failing status, with corrections counted and the fence of a
failing word raised. -/
def redReads (s : State) (a n job : Nat) : Nat × State :=
  (granules a n).foldl (fun (acc : Nat × State) g =>
    if acc.1 != 0 then acc
    else
      let e := lineErrs job acc.2 (1024 * g) 1024
      if e.1 != 0 then e
      else
        let r := readRange e.2 (1024 * g) 1024 0
        (r.st, if r.st = 0 then r.s else wordFault r.s r.st 8 (16 * r.word) job)) (0, s)

/-- The source ID of a contribution (R252). -/
def srcId (dev l ch : Nat) : Nat := dev * 2 ^ 16 + l * 2 ^ 6 + ch * 4

/-- Flush a tower: close batches, narrow, write back, and with `inv` invalidate (R255). -/
def flushTower (s : State) (t : Nat) (inv : Bool) : State :=
  let gs := (tcOf s t).lines.map (fun l => l.gran)
  gs.foldl (fun s g =>
    let s := settle s t g
    match tcLine (tcOf s t) g with
    | none => s
    | some l =>
      let s := writeBack s t l
      if inv then dropLine s t g else s) s

/-- Discard the dirty lines of a pillar that goes dark or offline (R245): counted, and logged when any was lost. -/
def discardPillar (s : State) (c : Nat) : State :=
  let t := c / 64
  (tcOf s t).lines.foldl (fun s l =>
    match bankOf s (1024 * l.gran) with
    | none => s
    | some b =>
      if b / 512 = c then
        let s := if l.dirty then
            logEv (finc s .TC_CNT [t, 5] Fld.TC_CNT_COUNT 1) 0x0E 4 3 t 0 (jobOfC s c)
              (c % 64 * 2 ^ 22 + b / 32 % 16 * 2 ^ 18 + b % 32 * 2 ^ 13 + bits (1024 * l.gran) 22 10)
          else s
        dropLine s t l.gran
      else s) s

/-- Words of the metadata region that the page manager has still to write go out as far as their banks let them: none into a
range of a running unit (R155, R194), within its step or during a row refresh (R165). -/
def flushOwed (s : State) : State :=
  if s.kv.owed.isEmpty then s
  else
    let held := fun (x : Nat × List Byte) => nbTouch s x.1 16 true || !((bankNeeds s x.1 16 true).isEmpty)
    let t := (s.kv.owed.filter (fun x => !(held x))).foldl (fun (s : State) x => cacheBytes s x.1 x.2) s
    { t with kv := { t.kv with owed := s.kv.owed.filter held } }

end Sys2Proof.Machine
end

