-- ==== Sys2Proof/Machine/Windows.lean ====
section
/-! DEFINITION. Host memory windows (R319, R320), remote windows (R301), host filters (R315–R317) and the spill tier's
expanders (R321, R322), as an access meets them. -/

namespace Sys2Proof.Machine

/-- A host window: device base, size, host base and port. -/
structure HWin where
  dev  : Nat
  size : Nat
  host : Nat
  port : Nat
  deriving DecidableEq, Repr

/-- Host window k, when it is mapped. -/
def hwin (s : State) (k : Nat) : Option HWin :=
  let w := rget s .HP_HWIN [k]
  if tbit w 63 then
    some ⟨bits w 47 12 * 4096, bits (rget s .HP_HWIN_SIZE [k]) 42 12 * 4096, bits (rget s .HP_HWIN_HOST [k]) 63 12 * 4096,
      bits w 48 48⟩
  else none

/-- The window that holds an address. -/
def hwinAt (s : State) (a : Nat) : Option (Nat × HWin) :=
  (List.range 256).findSome? (fun k => (hwin s k).bind (fun w =>
    if w.dev ≤ a ∧ a < w.dev + w.size then some (k, w) else none))

/-- The parts of [a, a + n) by window, or none when some byte lies in no mapped window. -/
def hwinParts (s : State) : Nat → Nat → Nat → Option (List (Nat × HWin × Nat × Nat))
  | _, _, 0 => some []
  | 0, _, _ => none
  | f + 1, a, n =>
    match hwinAt s a with
    | none => none
    | some (k, w) =>
      let m := min n (w.dev + w.size - a)
      (hwinParts s f (a + m) (n - m)).map (fun r => (k, w, a, m) :: r)

/-- Role of a host port in force: 0 disabled, 1 upstream, 2 downstream (R309). -/
def portRole (s : State) (p : Nat) : Nat :=
  if p = 0 then bits s.host.roles 1 0 else bits s.host.roles 5 4

/-- Whether a port is two x8 links: in the downstream role only (R309). -/
def bifOn (s : State) (p : Nat) : Bool := portRole s p == 2 && tbit s.host.roles (if p = 0 then 2 else 6)

/-- Whether the upstream link of a port is up. -/
def hostUp (s : State) (p : Nat) : Bool := fbit s .HP_LINK_STAT [2 * p] Fld.HP_LINK_STAT_UP

/-- Whether it trained in CXL. -/
def hostCxl (s : State) (p : Nat) : Bool := fbit s .HP_LINK_STAT [2 * p] Fld.HP_LINK_STAT_CXL

/-- The status a request through the host windows meets at issue (R320): 0x0402 with no window, 0x0405 with no link. -/
def hostIssue (s : State) (a n : Nat) : Nat :=
  match hwinParts s 257 a n with
  | none => 0x0402
  | some ps => if ps.any (fun p => !(hostUp s p.2.1.port)) then 0x0405 else 0

/-- The outbound slot of a remote address (R301). -/
def outSlot (s : State) (a : Nat) : Nat := rget s .WIN_OUT [bits a 45 34]

/-- The status a request through remote windows meets at issue: unmapped (R39, R301), or no member or path (R296), for any
slot it touches. -/
def remoteIssue (s : State) (a n : Nat) : Nat :=
  let ws := (List.range ((a % 2 ^ 34 + n - 1) / 2 ^ 34 + 1)).map (fun i => outSlot s (a + i * 2 ^ 34))
  if ws.any (fun w => !(tbit w 63)) || decide (2 ^ 47 < a + n) then 0x0301
  else if ws.any (fun w => (usablePaths s (bits w 15 0)).isEmpty || !(s.syn.members.contains (bits w 15 0))) then 0x0401 else 0

/-- Whether an address lies in a host or remote window. -/
def outside (a : Nat) : Bool :=
  match spaceOf a with | .hostWin => true | .remote => true | _ => false

/-- The status a request to an outside range meets at issue. -/
def outsideIssue (s : State) (a n : Nat) : Nat :=
  match spaceOf a with
  | .hostWin => hostIssue s a n
  | .remote => remoteIssue s a n
  | _ => 0

/-- What a path outside the device answers to a request it takes within a step: 0x0405 or success from a host; from another
device a status that device or the fabric gives (log entry 10). -/
def outsideAnswer (s : State) (a : Nat) : Nat :=
  let v := Config.outsideStatus s.freeCtr a
  match spaceOf a with
  | .hostWin => if v = 0 then 0 else 0x0405
  | _ => if [0x0303, 0x0304, 0x0305, 0x0401, 0x0402, 0x0403, 0x0404, 0x0601].contains v then v else 0

/-- Whether a range of the spill tier touches an expander's capacity (R321). -/
def Expander.holds (e : Expander) (off n : Nat) : Bool :=
  overlaps off n e.base e.size && (match e.stripe with
    | none => true
    | some (i, m) => (List.range (min m ((off + n + 4095) / 4096 - off / 4096))).any (fun d => (off / 4096 + d) % m == i))

/-- Whether a spill range touches an expander that is lost (R322). -/
def spillLost (s : State) (a n : Nat) : Bool :=
  match spaceOf a with
  | .spill off => s.host.expanders.zipIdx.any (fun e => s.host.lost.contains e.2 && e.1.holds off n)
  | _ => false

/-- The requests a host range is cut into: 64-byte lines on a CXL link (R318), else reads of at most 4,096 bytes and writes of at
most 512 (R311): (host address, length). -/
def hostPieces (cxl write : Bool) (a n : Nat) : List (Nat × Nat) :=
  let u := if cxl then 64 else if write then 512 else 4096
  (List.range ((a + n + u - 1) / u - a / u)).map (fun i =>
    let lo := max a ((a / u + i) * u)
    (lo, min (a + n) ((a / u + i + 1) * u) - lo))

/-- A request goes out through a host port (R318, R319). -/
def emitHost (s : State) (p a : Nat) (write : Bool) (n : Nat) (d : List Byte) : State :=
  emit s (if hostCxl s p then .cxlCache p a write n d else .host p a write n d)

/-- Whether region r (1 GiB) is shared with the hosts (R315). -/
def shared (s : State) (r : Nat) : Bool := s.host.share.contains r

/-- The tracked lines of a stack range. -/
def trackedIn (s : State) (a n : Nat) : List Tracked :=
  if n = 0 || decide (spBase ≤ a) then []
  else s.host.filter.filter (fun t => decide (a / 64 ≤ t.line) && decide (t.line ≤ (a + n - 1) / 64))

/-- Resolve the host copies a device-side access meets (R316): the status (0x0405 after a time-out), and the state with the
back-invalidates the step needs first. -/
def resolveHost (s : State) (a n : Nat) (write : Bool) : Nat × State :=
  let ts := (trackedIn s a n).filter (fun t => write || !t.clean)
  if ts.isEmpty then (0, s)
  else if ts.any (fun t => s.host.timed.contains t.line) then
    (0x0405, { s with host := { s.host with timed := s.host.timed.filter (fun l => !(ts.any (fun t => t.line == l))) } })
  else (0, { s with host := { s.host with hit := s.host.hit ++ ts.map (fun t => Need.snoop ⟨t.line, t.port, write⟩) } })

/-- The job of the work a waiter does. -/
def jobOfWaiter (s : State) : Waiter → Nat
  | .coreLd c => jobOfC s c
  | .coreSt c => jobOfC s c
  | .dma c _ _ _ => jobOfC s c
  | .chan i _ => (match lget none s.chans i with
      | some ch => (match s.cmds.find? (fun k => k.id == ch.cmd) with | some k => fget s .QD_Q_CFG [k.q] Fld.QD_Q_CFG_JOB | none => 0)
      | none => 0)
  | .none => 0

/-- The engine number of a waiter's flows (R295): a cluster's core, its DMA channels, the copy channels, the Owl. -/
def engineOf : Waiter → Nat
  | .coreLd c => 32 * c
  | .coreSt c => 32 * c + 1
  | .dma c ch _ _ => 32 * c + 2 + ch
  | .chan i _ => 32 * 1024 + i
  | .none => 32 * 1024 + 8

/-- The lowest TAG not outstanding toward a destination (R304). -/
def freeTag (s : State) (dst : Nat) : Option Nat :=
  (List.range 2048).find? (fun t => !(s.syn.sent.any (fun x => x.dst == dst && x.tag == t)))

/-- The flits of a part of a burst (R287): a short one for exactly 32 aligned bytes, else full ones of 256 bytes with a byte mask.
`fin` says that the part is the burst's last. -/
def burstFlits (hdr : Nat → Bool → Bool → Nat) (fin : Bool) : Nat → Nat → Bool → List Byte → List Pkt
  | 0, _, _, _ => []
  | f + 1, off, first, d =>
    let lead := off % 16
    let m := min (256 - lead) d.length
    let rest := d.drop m
    let h := hdr (off - lead) first (fin && rest.isEmpty)
    let p : Pkt := if lead = 0 && d.length = 32 then ⟨h, 0, d⟩
      else ⟨h, (2 ^ m - 1) * 2 ^ lead, List.replicate lead 0 ++ d.take m ++ List.replicate (256 - lead - m) 0⟩
    if rest.isEmpty then [p] else p :: burstFlits hdr fin f (off + m) false rest

/-- Send packets of one flow in order; the flag tells whether they left. -/
def sendAll (s : State) (engine : Nat) (ps : List Pkt) : Bool × State :=
  ps.foldl (fun (acc : Bool × State) p => if acc.1 then synSend acc.2 engine p else acc) (true, s)

/-- The parts of a request that its first burst or read takes: those that follow one another in one slot, a read one part only; and
what is left, beginning at a slot boundary where a part crosses one (R301, R304). -/
def oneWindow (write : Bool) : List (Nat × Nat) → List (Nat × Nat) × List (Nat × Nat)
  | [] => ([], [])
  | (a, n) :: rest =>
    let room := 2 ^ 34 - a % 2 ^ 34
    if room < n then ([(a, room)], (a + room, n - room) :: rest)
    else match rest with
      | [] => ([(a, n)], [])
      | (b, _) :: _ =>
        if write && b / 2 ^ 34 == a / 2 ^ 34 then
          let r := oneWindow write rest
          ((a, n) :: r.1, r.2)
        else ([(a, n)], rest)

def partLen (ps : List (Nat × Nat)) : Nat := ps.foldl (fun n p => n + p.2) 0

/-- The flits of a burst, part after part: FIRST at its first flit and LAST at its last (R304). -/
def burstAll (hdr : Nat → Bool → Bool → Nat) : Bool → List (Nat × Nat) → List Byte → List Pkt
  | _, [], _ => []
  | first, (a, n) :: rest, d =>
    burstFlits hdr rest.isEmpty (n / 32 + 1) (a % 2 ^ 34) first (d.take n) ++ burstAll hdr false rest (d.drop n)

/-- Send a request through a remote window: a burst of writes, or a read of at most 4,096 bytes per packet (R288, R304). With
every TAG toward the destination outstanding the request waits; what lies in another slot follows once this part is done. -/
def remoteSend (s : State) (q : RemReq) : Nat × State :=
  let w := outSlot s q.addr
  let dst := bits w 15 0
  match freeTag s dst with
  | none => (0, { s with syn := { s.syn with tagWait := s.syn.tagWait ++ [q] } })
  | some tag =>
    let cut := oneWindow q.write q.parts
    let off := q.addr % 2 ^ 34
    let n := partLen cut.1
    let skip := if q.write then 0 else off % 16
    let all := (skip + n + 15) / 16 * 16
    let hdr := fun (typ o : Nat) (fi la : Bool) => mkHdr dst (ownId s) 0 0 7 0 typ fi la q.job tag (bits w 59 48) (bits w 47 36) o
    let ps := if q.write then burstAll (hdr 1) true cut.1 q.data
      else (List.range ((all + 4095) / 4096)).map (fun i =>
        ⟨hdr 2 (off - skip + 4096 * i) (decide (i = 0)) (decide (all ≤ 4096 * (i + 1))), 0, leBytes 4 (min 4096 (all - 4096 * i))⟩)
    let r := sendAll s (engineOf q.who) ps
    if !r.1 then (0x0401, r.2)
    else
      let rest := if cut.2.isEmpty then none else some { q with parts := cut.2, data := q.data.drop n }
      (0, { r.2 with syn := { r.2.syn with
        sent := r.2.syn.sent ++ [(⟨dst, tag, q.job, q.who, !q.write, n, skip, [], 0, q.got, rest⟩ : Sent)] } })

def remoteRequest (s : State) (who : Waiter) (job a n : Nat) (write : Bool) (d : List Byte) : Nat × State :=
  remoteSend s ⟨who, job, [(a, n)], write, d, []⟩

end Sys2Proof.Machine
end

