-- ==== Sys2Proof/Machine/Access.lean ====
section
/-! DEFINITION. An access of a unit to memory, with the checks of R37, R39, R40 and R155 and the fence of R71. -/

namespace Sys2Proof.Machine

/-- Who makes an access: network interface (by physical cluster, 1024 and up for floor units), reader code of R354, the job
of its work, its tower cache manners (R241) and its hint. -/
structure Agent where
  ni     : Nat
  reader : Nat
  job    : Nat
  look   : Bool
  alloc  : Bool
  hint   : Nat
  /-- Work of an Operator queue, which may reach the tower cache aperture (R40). -/
  oper   : Bool
  deriving DecidableEq, Repr

/-- The cluster whose unit the agent is, if one: network interfaces 0 to 1023 are the clusters'. -/
def Agent.src (k : Agent) : Option Nat := if k.ni < 1024 then some k.ni else none

/-- The cluster's scalar core (R241: looked up, allocating, normal). -/
def coreAgent (s : State) (c : Nat) : Agent := ⟨c, 0, jobOfC s c, true, true, 0, false⟩

/-- A DMA channel with its hint (R241). -/
def dmaAgent (s : State) (c hint : Nat) : Agent := ⟨c, 4, jobOfC s c, true, true, hint, false⟩

/-- A Tarhel command other than collectives and copies: hit only (R241). -/
def cmdAgent (job : Nat) : Agent := ⟨1024, 5, job, true, false, 0, false⟩

/-- The KV page manager's agents: hit only (R241). -/
def kvAgent (job : Nat) : Agent := ⟨1025, 10, job, true, false, 0, false⟩

/-- The status an access to [a, a + n) meets before any word is read or written; 0 when it goes on. A read of a running unit's
OUT range has it only once it has waited more than 20 µs (R155). -/
def accStatus (s : State) (a n : Nat) (write : Bool) : Nat :=
  if !(mapped s a n) then 0x0301
  else match spaceOf a with
    | .aperture _ _ => 0x0701
    | .hostWin => outsideIssue s a n
    | .remote => outsideIssue s a n
    | .spill _ => if spillLost s a n then 0x0405 else 0
    | _ =>
      if touchesOffline s a n then 0x0302
      else if write then (if nbTouch s a n true then 0x0802 else 0)
      else if nbTouch s a n false && readLate s a n then 0x0801 else 0

/-- The metadata region (KV_META): first address and size (R182). -/
def metaBase (s : State) : Nat := fget s .KV_META [] Fld.KV_META_BASE * 2 ^ 30
def metaSize (s : State) : Nat := fget s .KV_META [] Fld.KV_META_SIZE * 2 ^ 30

/-- Whether a range lies in a pool bank or in the metadata region (R182). -/
def kvSpot (s : State) (a n : Nat) : Bool :=
  s.kv.pool.any (fun b => overlaps a n b.1 (2 ^ 23)) || overlaps a n (metaBase s) (metaSize s)

/-- Work of a job, not the page manager's, writes [a, a + n): in a pool bank or the metadata region it leaves the keys and values
of that job undefined (R17, R182). -/
def kvMark (s : State) (a n job : Nat) : State :=
  if kvSpot s a n && !(s.kv.undef.contains job) then { s with kv := { s.kv with undef := s.kv.undef ++ [job] } } else s

/-- The counter of R72 for a shaft or scratchpad word. -/
def ceIndex (a : Nat) : Nat := match spaceOf a with | .scratch _ _ => 3 | _ => 0

/-- Commands of an access pass the shafts of the pillars it reaches (R60). -/
def shaftPass (s : State) (a n : Nat) : State :=
  if s.ecc.cmdTries.isEmpty || decide (spBase ≤ a) then s
  else
    let cs := (granParts a n).filterMap (fun p => if cached s (p.1 / 1024) then none else physOf s (storeL s p.1))
    { s with ecc := { s.ecc with cmdTries := s.ecc.cmdTries.filter (fun e => !(cs.contains e.1)) } }

/-- A write an engine sends outside within its step: through a host window as host requests, through a remote window as a
write of the fabric whose answer is taken with the step (log entry 10). -/
def outsideWrite (s : State) (job a : Nat) (d : List Byte) : Nat × State :=
  let st := outsideAnswer s a
  let s := { s with freeCtr := s.freeCtr + 1 }
  match spaceOf a with
  | .remote =>
    let r := remoteRequest s .none job a d.length true d
    (if r.1 = 0 then st else r.1, r.2)
  | _ => (st, ((hwinParts s 257 a d.length).getD []).foldl (fun s p =>
      let w := p.2.1
      let h := w.host + (p.2.2.1 - w.dev)
      (hostPieces (hostCxl s w.port) true h p.2.2.2).foldl (fun s x =>
        emitHost s w.port x.1 true x.2 ((d.drop (p.2.2.1 - a + (x.1 - h))).take x.2)) s) s)

/-- A read an engine makes outside within its step: requests go out as for a write, and the answer is taken with the step (R304,
R318, R319; log entry 10). -/
def outsideRead (s : State) (job a n : Nat) : Nat × State :=
  let st := outsideAnswer s a
  let s := { s with freeCtr := s.freeCtr + 1 }
  match spaceOf a with
  | .remote =>
    let r := remoteRequest s .none job a n false []
    (if r.1 = 0 then st else r.1, r.2)
  | _ => (st, ((hwinParts s 257 a n).getD []).foldl (fun s p =>
      let w := p.2.1
      (hostPieces (hostCxl s w.port) false (w.host + (p.2.2.1 - w.dev)) p.2.2.2).foldl (fun s x =>
        emitHost s w.port x.1 false x.2 []) s) s)

/-- Whether the tower caches are in service: out of bring-up (R257). -/
def tcInService (s : State) : Bool := booted s

/-- Bytes of the data array of a cache in service (R257): the line held at that set and way; what a way without one holds
is open. -/
def arrayBytes (s : State) (t off n : Nat) : List Byte × State :=
  let idx := bits off 19 14 * 64 + bits off 25 20
  let way := bits off 13 10
  match (tcOf s t).lines.find? (fun l => !l.victim && !l.comp && l.wide.isNone && l.way == way && granIdx s l.gran == idx) with
  | some l => (cohBytes s (1024 * l.gran + off % 1024) n, s)
  | none => freeBytes s n

/-- The parts of an aperture range by row of the array: tower, offset in it, and length. -/
def apParts (t off n : Nat) : List (Nat × Nat × Nat) :=
  (granParts (2 ^ 26 * t + off) n).map (fun p => (p.1 / 2 ^ 26, p.1 % 2 ^ 26, p.2))

/-- A read of the aperture from the Operator side (R38, R257): the array as memory out of service, its lines in service. A range
may go on into the next tower's part. -/
def apRead (s : State) (t off n : Nat) : RangeRead :=
  if tcInService s then
    let r := (apParts t off n).foldl (fun (acc : List Byte × State) p =>
      let x := arrayBytes acc.2 p.1 p.2.1 p.2.2
      (acc.1 ++ x.1, x.2)) ([], s)
    ⟨0, 0, r.1, r.2⟩
  else readRange s (apBase + 2 ^ 26 * t + off) n 4 false

/-- A write of the aperture from the Operator side (R257): discarded in service, and counted in each tower it reaches. -/
def apWrite (s : State) (t off : Nat) (d : List Byte) : State :=
  if tcInService s then
    (((apParts t off d.length).map (fun p => p.1)).eraseDups).foldl (fun s t => finc s .TC_CNT [t, 7] Fld.TC_CNT_COUNT 1) s
  else storeBytes s (apBase + 2 ^ 26 * t + off) d

/-- The tower and offset of an aperture address an agent may reach. -/
def apOf (k : Agent) (a : Nat) : Option (Nat × Nat) :=
  match spaceOf a with
  | .aperture t off => if k.oper then some (t, off) else none
  | _ => none

/-- How an agent uses the tower cache (R241); `comp` marks a DMA fill, whose whole lines TC_CFG.CMODE compresses (R254). -/
def Agent.use (k : Agent) (write : Bool) (comp : Bool := false) : TcUse := ⟨k.ni, k.alloc, k.hint, write, comp, k.job⟩

/-- The first word of an access that its status is for, by the rows it reaches (R138). -/
def statusWord (s : State) (a n : Nat) (write : Bool) : Nat :=
  match (granParts a n).find? (fun p => accStatus s p.1 p.2 write != 0) with
  | some p => p.1 / 16
  | none => a / 16

/-- Read for an agent. A failing word, of the range or of a row that fills a line for it, raises the fence of R71 with the
reader's code and job; `more` are the continuation entries of a core trap, `cnt` the correction counter where a codec unit reads
(R205). A read that must wait for a bank leaves the step undone (R155, R165). -/
def accRead (s : State) (k : Agent) (a n : Nat) (more : List (Nat × Nat) := []) (cnt : Option Nat := none) : RangeRead :=
  match apOf k a with
  | some (t, off) => if mapped s a n then apRead s t off n else ⟨0x0301, a / 16, [], s⟩
  | none =>
  let st := accStatus s a n false
  if st != 0 then
    ⟨st, statusWord s a n false, [], { s with nbBlock := s.nbBlock.filter (fun y => !(y.addr == a && y.len == n && y.out)) }⟩
  else if outside a then
    let r := outsideRead s k.job a n
    ⟨r.1, a / 16, (List.range n).map (fun i => Config.outsideByte s.freeCtr (a + i)), r.2⟩
  else
    let h := resolveHost s a n false
    if h.1 != 0 then ⟨h.1, a / 16, [], h.2⟩ else
    let s := shaftPass (atBanks (atClocks h.2 k.ni a n) a n false) a n
    let e := lineErrs k.job s a n
    if e.1 != 0 then ⟨e.1, a / 16, [], e.2⟩ else
    let t := if k.look then tcTouch e.2 (k.use false) a n else (0, 0, e.2)
    let fail := fun (st w : Nat) (b : List Byte) (s : State) => (⟨st, w, b, wordFault s st k.reader (16 * w) k.job more k.src⟩ : RangeRead)
    if t.1 != 0 then fail t.1 t.2.1 [] t.2.2
    else
      let r := readRange t.2.2 a n (cnt.getD (ceIndex a))
      if r.st = 0 then r else fail r.st r.word r.bytes r.s

/-- Write for an agent: whole words, or the read, merge and write of R69 and R128, whose failing read, like a failing fill of a
line it allocates, leaves the write undone and raises the fence of R71. A write to a window leaves the device. -/
def accWrite (s : State) (k : Agent) (a : Nat) (d : List Byte) (more : List (Nat × Nat) := []) (comp : Bool := false) :
    Nat × State :=
  match apOf k a with
  | some (t, off) => if mapped s a d.length then (0, apWrite s t off d) else (0x0301, s)
  | none =>
  let st := accStatus s a d.length true
  if st != 0 then (st, s)
  else if outside a then outsideWrite s k.job a d
  else
    let h := resolveHost s a d.length true
    if h.1 != 0 then (h.1, h.2) else
    let s := shaftPass (atBanks (atClocks h.2 k.ni a d.length) a d.length true) a d.length
    let edge := edgeWords a d.length
    let e := edge.foldl (fun (acc : Nat × State) w => if acc.1 != 0 then acc else lineErrs k.job acc.2 (16 * w) 16) (0, s)
    if e.1 != 0 then e else
    let t := if k.look then tcTouch e.2 (k.use true comp) a d.length else (0, 0, e.2)
    let fail := fun (st w : Nat) (s : State) => (st, wordFault s st k.reader (16 * w) k.job more k.src)
    if t.1 != 0 then fail t.1 t.2.1 t.2.2
    else
      let m := mergeReads t.2.2 a d.length (ceIndex a) true
      if m.1 != 0 then fail m.1 m.2.1 m.2.2
      else (0, cacheBytes (if k.reader = 10 then m.2.2 else kvMark m.2.2 a d.length k.job) a d)

/-- The checks and line reads of a reduction into stack DRAM (R250, R316): the first failing status. -/
def redCheck (s : State) (ni a n job : Nat) : Nat × State :=
  let st := accStatus s a n true
  if st != 0 then (st, s)
  else
    let h := resolveHost s a n true
    if h.1 != 0 then h else redReads (shaftPass (atBanks (atClocks h.2 ni a n) a n true) a n) a n job

/-- Network interface of a reduction's source (R252): a cluster, the collective engine's, or the Synur windows'. -/
def srcNi (s : State) (src : Nat) : Nat :=
  if src / 2 ^ 16 = ownId s then (physOf s (bits src 15 6)).getD 1026 else 1027

/-- A reduction into stack DRAM (R250): none while it must wait for a way. -/
def accReduce (s : State) (src a op hint : Nat) (d : List Byte) (job : Nat) : Nat × Option State :=
  let c := redCheck s (srcNi s src) a d.length job
  if c.1 != 0 then (c.1, some c.2) else (0, (tcReduce c.2 src a op hint d).map (fun s => kvMark s a d.length job))

/-- Issued address of a scratchpad offset (R126). -/
def spAddr (l off : Nat) : Nat := spBase + l * 2 ^ 22 + off

end Sys2Proof.Machine
end

