-- ==== Sys2Proof/Machine/Paths.lean ====
section
/-! DEFINITION. Requests that leave the device through a host window or a remote window, and who waits for them (R301, R304,
R318–R320). -/

namespace Sys2Proof.Machine

/-- Whether a link has a place for another non-posted request: at most 2,048 are outstanding (R311). -/
def linkRoom (s : State) (p : Nat) : Bool :=
  decide ((s.host.reqs.filter (fun r => r.port == p && r.ans.isNone && r.held.isNone)).length < 2048)

/-- Send the requests of a link that were kept back, oldest first, as far as there is room. -/
def sendKept (p : Nat) (s : State) : State :=
  s.host.reqs.foldl (fun s r =>
    match r.held with
    | some h =>
      if r.port == p && r.ans.isNone && linkRoom s p then
        { emitHost s p h.1 r.write r.len h.2 with host := { s.host with
            reqs := s.host.reqs.map (fun (x : HostReq) => if x.tag == r.tag then { x with held := none } else x) } }
      else s
    | none => s) s

/-- Send a request through host windows, cut as the link takes it; PCIe writes are posted and complete at once, others wait
for their completion (R318, R320), and for room on the link first (R311). -/
def hostRequest (s : State) (who : Waiter) (a n : Nat) (write : Bool) (d : List Byte) : Bool × State :=
  match hwinParts s 257 a n with
  | none => (true, s)
  | some ps =>
    let qs := ps.flatMap (fun p => let w := p.2.1
      (hostPieces (hostCxl s w.port) write (w.host + (p.2.2.1 - w.dev)) p.2.2.2).map (fun x => (p.1, w, x)))
    qs.foldl (fun (acc : Bool × State) q =>
      let w := q.2.1
      let x := q.2.2
      let off := w.dev + (x.1 - w.host) - a
      let part := (d.drop off).take x.2
      if write && !(hostCxl s w.port) then (acc.1, emitHost acc.2 w.port x.1 write x.2 part)
      else
        let s := acc.2
        let room := linkRoom s w.port
        let s := if room then emitHost s w.port x.1 write x.2 part else s
        (false, { s with host := { s.host with
          reqs := s.host.reqs ++ [(⟨s.host.nextTag, w.port, q.1, who, x.2, write, none,
            if room then none else some (x.1, part)⟩ : HostReq)],
          nextTag := s.host.nextTag + 1 } })) (true, s)

/-- Start a request on [a, a + n) of a window for a waiter: the status it meets at issue, whether it is already complete, and
the state. -/
def startOutside (s : State) (who : Waiter) (a n : Nat) (write : Bool) (d : List Byte) : Nat × Bool × State :=
  let st := outsideIssue s a n
  if st != 0 then (st, true, s)
  else match spaceOf a with
    | .remote =>
      let r := remoteRequest s who (jobOfWaiter s who) a n write d
      (r.1, r.1 != 0, r.2)
    | _ =>
      let r := hostRequest s who a n write d
      (0, r.1, r.2)

/-- Whether an address lies in a remote window. -/
def isRemote (a : Nat) : Bool := match spaceOf a with | .remote => true | _ => false

/-- Start the writes of a descriptor's rows through remote windows as one burst into each window (R304): the status at issue. -/
def startRows (s : State) (who : Waiter) (rows : List (Nat × Nat)) (d : List Byte) : Nat × State :=
  match (rows.map (fun p => outsideIssue s p.1 p.2)).find? (fun x => x != 0) with
  | some st => (st, s)
  | none => remoteSend s ⟨who, jobOfWaiter s who, rows, true, d, []⟩

end Sys2Proof.Machine
end

