-- ==== Sys2Proof/Machine/Scalar.lean ====
section
/-! DEFINITION. The scalar control core (R107–R118): fetch, decode, traps, tokens and every instruction. -/

namespace Sys2Proof.Machine

def clu (s : State) (c : Nat) : Clu := tget Clu.init s.clu c
def setClu (s : State) (c : Nat) (x : Clu) : State := { s with clu := tput c x s.clu }
def modClu (s : State) (c : Nat) (f : Clu → Clu) : State := setClu s c (f (clu s c))

/-- A general register: g0 reads 0 (R107). -/
def reg (s : State) (c i : Nat) : Word := if i = 0 then 0 else lget 0 (clu s c).g i

/-- Write a general register: writes to g0 are discarded (R107). -/
def setReg (s : State) (c i : Nat) (v : Word) : State :=
  if i = 0 then s else modClu s c (fun x => { x with g := lset x.g i v })

def nextPc (s : State) (c : Nat) : State := modClu s c (fun x => { x with pc := x.pc + 4 })

/-! ### Scratchpad ports -/

/-- Bank-cycles a request waited for a grant (R127): a number the timing decides, at most 7, or 15 on P7, for each bank word it
reaches (log entry 18); none in fixed-slot mode, where slots are not shared (R129). -/
def portWaits (c port a n : Nat) (s : State) : State :=
  if (clu s c).fixed then s
  else
    let f := free s
    finc f.2 .SP_CNT (tk c) Fld.SP_CNT_WAITS (f.1 % ((if port = 7 then 15 else 7) * ((a % 32 + n + 31) / 32) + 1))

/-! ### Decode (R108–R110, R113) -/

/-- The operations of R109, one per table row of the core. -/
inductive CoreOp where
  | add | sub | and | or | xor | sll | srl | sra | mul | mulh | slt | sltu | divu | remu
  | addi | andi | ori | xori | slli | srli | srai | shli
  | lds | sts | ldg | stg | beq | bne | blt | bge | bltu | bgeu | jal | jalr
  | qpush | twait | tread | dkick | dctlResume | dctlRetry | dctlReset | roinv | csrr | csrw | trap | eret | halt
  | illegal
  deriving DecidableEq, Repr

/-- Operations that do not use D. -/
def noD (op : Nat) : Bool :=
  op == 0x20 || op == 0x21 || op == 0x23 || op == 0x24 || op == 0x25 || op == 0x27 || op == 0x30 || op == 0x31 || op == 0x32

/-- The operation of an instruction word (R109). -/
def decodeCore (w : Nat) : CoreOp :=
  let op := bits w 31 26
  if noD op && bits w 25 21 != 0 then .illegal
  else match op with
    | 0x00 => (match w % 2048 with
      | 0 => .add | 1 => .sub | 2 => .and | 3 => .or | 4 => .xor | 5 => .sll | 6 => .srl | 7 => .sra | 8 => .mul
      | 9 => .mulh | 10 => .slt | 11 => .sltu | 12 => .divu | 13 => .remu | _ => .illegal)
    | 0x01 => .addi | 0x02 => .andi | 0x03 => .ori | 0x04 => .xori
    | 0x05 => .slli | 0x06 => .srli | 0x07 => .srai | 0x08 => .shli
    | 0x10 => .lds | 0x11 => .sts | 0x12 => .ldg | 0x13 => .stg
    | 0x18 => .beq | 0x19 => .bne | 0x1A => .blt | 0x1B => .bge | 0x1C => .bltu | 0x1D => .bgeu
    | 0x1E => .jal | 0x1F => .jalr | 0x20 => .qpush | 0x21 => .twait | 0x22 => .tread | 0x23 => .dkick
    | 0x24 => (match bits w 5 4 with | 0 => .dctlResume | 1 => .dctlRetry | 2 => .dctlReset | _ => .illegal)
    | 0x25 => .roinv
    | 0x26 => if w % 256 ≤ 9 then .csrr else .illegal
    | 0x27 => if w % 256 ≤ 9 then .csrw else .illegal
    | 0x30 => .trap | 0x31 => .eret | 0x32 => .halt
    | _ => .illegal

/-! ### Running and fetching -/

/-- Whether a cluster's cores are stopped by the drain stage of a recovery (R116, R338). -/
def drained (s : State) (c : Nat) : Bool :=
  (decide (3 ≤ s.rcv.stage) && decide (s.rcv.stage ≤ 5) || isHeld s) &&
    (s.rcv.jobs.contains (jobOfC s c) && !(s.rcv.undrained.contains c) || decide (4 ≤ s.rcv.stage))

/-- Whether the core can issue its next instruction: its kernel runs, no load, store, wait or full queue holds it, and no
asynchronous cause is to be taken first (R115). -/
def coreReady (s : State) (c : Nat) : Bool :=
  let x := clu s c
  fbit s .CORE_STAT (tk c) Fld.CORE_STAT_RUN && !(coreOff s c) && !(drained s c)
    && x.load.isNone && x.store.isNone && x.twait.isNone && x.stall.isNone
    && (x.held.isEmpty || fbit s .CORE_STAT (tk c) Fld.CORE_STAT_INTRAP)

/-- A line of the read-only cache that holds an address, in the code or the data ways (R131). -/
def rocFind (x : Clu) (code : Bool) (a : Nat) : Option RocLine :=
  x.roc.find? (fun l => l.code == code && l.line == a / 256)

/-- Whether the 64-byte group of an address is held in a line: no word of it failed at the fill (R117). -/
def groupHeld (l : RocLine) (a : Nat) : Bool :=
  (List.range 4).all (fun i => lget 0 l.dev (a % 256 / 64 * 4 + i) == 0)

/-- Drop a line. -/
def rocDrop (x : Clu) (code : Bool) (line : Nat) : Clu :=
  { x with roc := x.roc.filter (fun y => !(y.code == code && y.line == line)),
           rocErr := x.rocErr.filter (fun e => !(e.1 % 2 == b2n code && e.1 / 32 == line)) }

/-- Deliver words of a cached line, with `errs` in its copy beside those that stay there (R133): a correctable word is corrected
and counted; any other invalidates the line. Answers false when the line must be filled again. -/
def rocDeliver (s : State) (c : Nat) (l : RocLine) (ws : List Nat) (errs : List WordErr) : Bool × State :=
  let key := fun (w : Nat) => 2 * w + b2n l.code
  let cells := errs.filter (fun e => e.kind == .cell && e.word / 16 == l.line)
  let s := if cells.isEmpty then s
    else modClu s c (fun x => { x with rocErr := cells.foldl (fun t e => tput (key e.word) (tget 0 t (key e.word) ^^^ e.flip) t) x.rocErr })
  ws.foldl (fun (acc : Bool × State) w =>
    if !acc.1 then acc
    else
      let f := (errs.filter (fun e => e.kind != .cell && e.word == w)).foldl (fun f e => f ^^^ e.flip) (tget 0 (clu acc.2 c).rocErr (key w))
      if f = 0 then acc
      else
        let d := (l.data.drop (16 * (w % 16))).take 16
        let k := encodeWord (16 * w) d
        match decodeWord (16 * w) (xorBytes d (flipData f)) (k.1 ^^^ flipChk f % 256) (k.2 ^^^ flipChk f / 256) with
        | .clean => acc
        | .corrected j x => (true, countCe acc.2 5 (16 * w) j x false)
        | _ => (false, modClu acc.2 c (fun x => rocDrop x l.code l.line))) (true, s)

/-- The four words of the 64-byte group of an address. -/
def groupWords (a : Nat) : List Nat := (List.range 4).map (fun i => a / 64 * 4 + i)

/-- Deliver the group of pc from its line, unless the core holds it from its last fetch (R117, R133): whether it can be delivered,
and the state with its corrections counted. One that cannot is filled again by ROC_FILL. -/
def fetchDeliver (s : State) (c : Nat) (l : RocLine) : Bool × State :=
  let a := (clu s c).pc.toNat
  if (clu s c).group == some (a / 64) then (true, s) else rocDeliver s c l (groupWords a) []

/-- The instruction word at pc, when its group is in the code ways and can be delivered. -/
def fetchWord (s : State) (c : Nat) : Option Nat :=
  let x := clu s c
  match rocFind x true x.pc.toNat with
  | none => none
  | some l => if groupHeld l x.pc.toNat && (fetchDeliver s c l).1 then some (leNat ((l.data.drop (x.pc.toNat % 256)).take 4)) else none

/-- The fetch of the group of pc, unless the core holds it from its last fetch (R117): its corrections are counted (R133), it counts
a hit and makes its line the most recently used (R131; log entry 136). -/
def touchFetch (s : State) (c : Nat) : State :=
  let grp := (clu s c).pc.toNat / 64
  if (clu s c).group == some grp then s
  else
    let s := match rocFind (clu s c) true (clu s c).pc.toNat with
      | none => s
      | some l => (fetchDeliver s c l).2
    let s := finc s .ROC_CNT (tk c) Fld.ROC_CNT_HIT 1
    modClu s c (fun x => { x with rocTick := x.rocTick + 1, group := some grp,
                                  roc := x.roc.map (fun l => if l.code && l.line == x.pc.toNat / 256
                                    then { l with stamp := x.rocTick + 1 } else l) })

/-- Run the core's next instruction when it is the one the row names; otherwise the row has no effect. -/
def coreRow (op : CoreOp) (c : Nat) (f : Nat → State → State) (s : State) : State :=
  if coreReady s c then
    match fetchWord s c with
    | none => s
    | some w => if decodeCore w = op then f w (touchFetch s c) else s
  else s

/-! ### Traps (R115, R116) -/

/-- Continuation entries with the context of cluster `c`'s trap put in. -/
def fillMore (c code epc tval : Nat) (l : List (Nat × Nat)) : List (Nat × Nat) :=
  l.map (fun (m : Nat × Nat) => if m.1 / 256 = c + 1 then
    (m.1 % 256, if m.1 % 256 = 2 then code * 2 ^ 48 + epc % 2 ^ 48 else tval % 2 ^ 48) else m)

/-- Put DETAIL into an entry that the log holds. -/
def fillSlot (seq detail : Nat) (s : State) : State :=
  match tfind s.log.slots (seq % 8192) with
  | none => s
  | some ws =>
    if (lget 0 ws 1).toNat / 2 ^ 32 ≠ seq then s
    else
      let w : List Word := lset ws 3 (BitVec.ofNat 64 ((lget 0 ws 3).toNat / 2 ^ 52 * 2 ^ 52 + detail % 2 ^ 52))
      { s with log := { s.log with slots := tput (seq % 8192) w s.log.slots } }

/-- The trap of a fault is taken: its context goes into the fault's log entry (R116), which waits for its number or has it. -/
def fillTrap (s : State) (c code status epc tval : Nat) : State :=
  let mine := fun (r : Report) => r.status == status
    && r.more.any (fun m => decide (m.1 = 256 * (c + 1) + 2) && decide (m.2 / 2 ^ 48 = code))
  match s.log.waiting.findIdx? mine with
  | some i =>
    let l : List Report := s.log.waiting.modify i (fun (r : Report) => { r with more := fillMore c code epc tval r.more })
    { s with log := { s.log with waiting := l } }
  | none => match s.log.traps.find? (fun x => x.1 == c && x.2.1 == status && x.2.2.1 == code) with
    | none => s
    | some x =>
      let s := { s with log := { s.log with traps := s.log.traps.erase x } }
      fillSlot (x.2.2.2 + 1) (tval % 2 ^ 48) (fillSlot x.2.2.2 (code * 2 ^ 48 + epc % 2 ^ 48) s)

/-- The log stage writes the context of traps that were not taken: what CORE_TRAP, CORE_EPC and CORE_TVAL hold (R116, R338). -/
def fillRest (s : State) : State :=
  let code := fun c => fget s .CORE_TRAP (tk c) Fld.CORE_TRAP_CODE
  let epc := fun c => fget s .CORE_EPC (tk c) Fld.CORE_EPC_VALUE
  let tval := fun c => fget s .CORE_TVAL (tk c) Fld.CORE_TVAL_VALUE
  let one : Nat × Nat → Nat × Nat := fun m => if m.1 < 256 then m
    else let c := m.1 / 256 - 1
         (fillMore c (code c) (epc c) (tval c) [m]).headD m
  let t := { s with log := { s.log with traps := [], waiting := s.log.waiting.map (fun (r : Report) => { r with more := r.more.map one }) } }
  s.log.traps.foldl (fun u x =>
    fillSlot (x.2.2.2 + 1) (tval x.1 % 2 ^ 48) (fillSlot x.2.2.2 (code x.1 * 2 ^ 48 + epc x.1 % 2 ^ 48) u)) t

/-- Set the trap registers of a cluster (CORE_TRAP, CORE_EPC, CORE_TVAL). -/
def trapRegs (s : State) (c code status epc tval : Nat) : State :=
  let s := if isWordFault status then fillTrap s c code status epc tval else s
  let s := fset s .CORE_TRAP (tk c) Fld.CORE_TRAP_CODE code
  let s := fset s .CORE_TRAP (tk c) Fld.CORE_TRAP_STATUS status
  let s := finc s .CORE_TRAP (tk c) Fld.CORE_TRAP_COUNT 1
  let s := fset s .CORE_EPC (tk c) Fld.CORE_EPC_VALUE epc
  fset s .CORE_TVAL (tk c) Fld.CORE_TVAL_VALUE tval

/-- The core stops: the second synchronous trap is recorded and the kernel ends as by HALT with 0xFFFF (R115). -/
def coreStop (s : State) (c : Nat) : State :=
  let s := fset s .CORE_STAT (tk c) Fld.CORE_STAT_STOPPED 1
  let s := fset s .CORE_STAT (tk c) Fld.CORE_STAT_RUN 0
  let s := fset s .CORE_STAT (tk c) Fld.CORE_STAT_EXIT 0xFFFF
  logEv s 0x04 0 1 c 0 (jobOfC s c) ((clu s c).pc.toNat % 2 ^ 48)

/-- Enter the handler (R115). EPC is the core's pc: the trapping instruction, or the next one for an asynchronous cause. -/
def enterTrap (s : State) (c code status : Nat) (tval : Word) : State :=
  let s := trapRegs s c code status (clu s c).pc.toNat tval.toNat
  let s := fset s .CORE_STAT (tk c) Fld.CORE_STAT_INTRAP 1
  modClu s c (fun x => { x with epc := x.pc, cause := status * 2 ^ 16 + code, tval := tval, pc := x.tvec, twait := none })

def inTrap (s : State) (c : Nat) : Bool := fbit s .CORE_STAT (tk c) Fld.CORE_STAT_INTRAP

/-- A synchronous trap: precise; while INTRAP = 1 it stops the core (R115). -/
def syncTrap (s : State) (c code status : Nat) (tval : Word) : State :=
  if inTrap s c then
    let s := trapRegs s c code status (clu s c).pc.toNat tval.toNat
    coreStop (modClu s c (fun x => { x with epc := x.pc, cause := status * 2 ^ 16 + code, tval := tval, twait := none })) c
  else enterTrap s c code status tval

/-- Continuation entries of a fault that a core trap comes with (R116, R354): the cause, and the context as it stands, until the
trap is taken or the log stage writes it (log entry 140). -/
def trapMore (s : State) (c code : Nat) (tval : Word) : List (Nat × Nat) :=
  [(256 * (c + 1) + 0x02, code * 2 ^ 48 + (clu s c).pc.toNat % 2 ^ 48), (256 * (c + 1) + 0x03, tval.toNat % 2 ^ 48)]

/-- Whether a token source is halted (R113). -/
def srcHalted (s : State) (c src : Nat) : Bool :=
  if src = 0 then fbit s .MX_STAT (tk c) Fld.MX_STAT_HALTED
  else if src ≤ 4 then fbit s .VX_STAT (tk c ++ [src - 1]) Fld.VX_STAT_HALTED
  else if 16 ≤ src then fbit s .DMA_CH_STAT (tk c ++ [src - 16]) Fld.DMA_CH_STAT_HALTED
  else false

/-- An asynchronous cause arrives: it is held in order until ASYNC_TRAP takes it. A TWAIT waiting on the halted source
while INTRAP = 1 traps with queue-halted at once (R113, R115). -/
def asyncCause (s : State) (c code status tval : Nat) : State :=
  let s := modClu s c (fun x => { x with held := x.held ++ [⟨code, status, tval⟩] })
  match (clu s c).twait with
  | some (src, _) => if inTrap s c && srcHalted s c src then syncTrap s c 0x09 0 (BitVec.ofNat 64 src) else s
  | none => s

/-- Post a token to a source; a waiting TWAIT whose target it reaches completes (R113), unless an asynchronous cause that arrived
before is to be taken, which interrupts it (R115). -/
def postToken (s : State) (c src tok : Nat) : State :=
  let s := modClu s c (fun x => { x with tokens := lset x.tokens src (tok % 65536) })
  match (clu s c).twait with
  | some (q, target) =>
    if q = src && decide ((tok + 65536 - target) % 65536 < 32768) && ((clu s c).held.isEmpty || inTrap s c) then
      nextPc (modClu s c (fun x => { x with twait := none })) c
    else s
  | none => s

/-! ### Register-to-register instructions -/

/-- The result of an ALU function (R109). -/
def aluFn (fn : Nat) (a b : Word) : Word :=
  match fn with
  | 0 => a + b
  | 1 => a - b
  | 2 => a &&& b
  | 3 => a ||| b
  | 4 => a ^^^ b
  | 5 => a <<< (b.toNat % 64)
  | 6 => a >>> (b.toNat % 64)
  | 7 => a.sshiftRight (b.toNat % 64)
  | 8 => a * b
  | 9 => BitVec.ofInt 64 (a.toInt * b.toInt / 2 ^ 64)
  | 10 => if a.toInt < b.toInt then 1 else 0
  | 11 => if a.toNat < b.toNat then 1 else 0
  | 12 => if b = 0 then BitVec.allOnes 64 else BitVec.ofNat 64 (a.toNat / b.toNat)
  | _ => if b = 0 then a else BitVec.ofNat 64 (a.toNat % b.toNat)

def fD (w : Nat) : Nat := bits w 25 21
def fA (w : Nat) : Nat := bits w 20 16
def fB (w : Nat) : Nat := bits w 15 11
def fImm (w : Nat) : Nat := w % 65536
def simm (w : Nat) : Word := BitVec.ofInt 64 (sext 16 w)
def zimm (w : Nat) : Word := BitVec.ofNat 64 (w % 65536)

/-- Write gD and go to the next instruction. -/
def setD (w c : Nat) (v : Word) (s : State) : State := nextPc (setReg s c (fD w) v) c

def doAlu (fn c w : Nat) (s : State) : State := setD w c (aluFn fn (reg s c (fA w)) (reg s c (fB w))) s

/-- The result of an immediate instruction, by OP (R109). -/
def immFn (op : Nat) (a : Word) (w : Nat) : Word :=
  match op with
  | 0x01 => a + simm w
  | 0x02 => a &&& zimm w
  | 0x03 => a ||| zimm w
  | 0x04 => a ^^^ zimm w
  | 0x05 => a <<< (w % 64)
  | 0x06 => a >>> (w % 64)
  | 0x07 => a.sshiftRight (w % 64)
  | _ => (a <<< 16) ||| zimm w

def doImm (op c w : Nat) (s : State) : State := setD w c (immFn op (reg s c (fA w)) w) s

/-- Whether a branch is taken (R109); the B format has A in [25:21] and B in [20:16]. -/
def branchTaken (op : Nat) (a b : Word) : Bool :=
  match op with
  | 0x18 => a == b
  | 0x19 => a != b
  | 0x1A => decide (a.toInt < b.toInt)
  | 0x1B => decide (b.toInt ≤ a.toInt)
  | 0x1C => decide (a.toNat < b.toNat)
  | _ => decide (b.toNat ≤ a.toNat)

def doBranch (op c w : Nat) (s : State) : State :=
  if branchTaken op (reg s c (fD w)) (reg s c (fA w)) then
    modClu s c (fun x => { x with pc := x.pc + BitVec.ofInt 64 (4 * sext 16 w) })
  else nextPc s c

def doJal (c w : Nat) (s : State) : State :=
  let pc := (clu s c).pc
  modClu (setReg s c (fD w) (pc + 4)) c (fun x => { x with pc := pc + BitVec.ofInt 64 (4 * sext 21 w) })

def doJalr (c w : Nat) (s : State) : State :=
  let pc := (clu s c).pc
  let t := (reg s c (fA w) + simm w) &&& ~~~ (3 : Word)
  modClu (setReg s c (fD w) (pc + 4)) c (fun x => { x with pc := t })

/-! ### Loads and stores (R109, R111) -/

/-- The effective address. -/
def effAddr (s : State) (c w : Nat) : Word := reg s c (fA w) + simm w

/-- Trap of a load or store: address-unmapped is a cause of its own, every other status is an access error (R115). The fence
of a word fault was raised with the trap's context (R116). -/
def memTrap (s : State) (c st : Nat) (a : Word) : State :=
  if st = 0x0301 then syncTrap s c 0x03 0 a else syncTrap s c 0x06 st a

def doLds (c w : Nat) (s : State) : State :=
  let a := effAddr s c w
  if 2 ^ 22 ≤ a.toNat then syncTrap s c 0x03 0 a
  else if a.toNat % 8 ≠ 0 then syncTrap s c 0x02 0 a
  else
    let r := accRead (portWaits c 7 a.toNat 8 s) (coreAgent s c) (spAddr ((logOf s c).getD 0) a.toNat) 8 (trapMore s c 0x06 a)
    if r.st = 0 then setD w c (BitVec.ofNat 64 (leNat r.bytes)) r.s else memTrap r.s c r.st a

def doSts (c w : Nat) (s : State) : State :=
  let a := effAddr s c w
  if 2 ^ 22 ≤ a.toNat then syncTrap s c 0x03 0 a
  else if a.toNat % 8 ≠ 0 then syncTrap s c 0x02 0 a
  else
    let r := accWrite (portWaits c 7 a.toNat 8 s) (coreAgent s c) (spAddr ((logOf s c).getD 0) a.toNat) (leBytes 8 (reg s c (fD w)).toNat)
      (trapMore s c 0x06 a)
    if r.1 = 0 then nextPc r.2 c else memTrap r.2 c r.1 a

/-- The checks LDG and STG share; `k` goes on with an address. -/
def globalAddr (c w : Nat) (k : Nat → State → State) (s : State) : State :=
  let a := effAddr s c w
  if 2 ^ 48 ≤ a.toNat then syncTrap s c 0x03 0 a
  else if a.toNat % 8 ≠ 0 then syncTrap s c 0x02 0 a
  else k a.toNat s

/-- LDG issues: an unmapped address traps at once; otherwise the core waits for LDG_COMPLETE (R111). -/
def doLdg (c w : Nat) : State → State := globalAddr c w (fun a s =>
  if accStatus s a 8 false = 0x0301 then syncTrap s c 0x03 0 (BitVec.ofNat 64 a)
  else
    let r := if outside a then startOutside s (.coreLd c) a 8 false [] else (0, false, s)
    if r.1 ≠ 0 then memTrap r.2.2 c r.1 (BitVec.ofNat 64 a)
    else modClu r.2.2 c (fun x => { x with load := some ⟨a, fD w, 0, none⟩ }))

/-- STG issues: the next instruction issues only after its completion (R111). -/
def doStg (c w : Nat) : State → State := globalAddr c w (fun a s =>
  let v := reg s c (fD w)
  if accStatus s a 8 true = 0x0301 then syncTrap s c 0x03 0 (BitVec.ofNat 64 a)
  else
    let r := if outside a then startOutside s (.coreSt c) a 8 true (leBytes 8 v.toNat) else (0, false, s)
    if r.1 ≠ 0 then memTrap r.2.2 c r.1 (BitVec.ofNat 64 a)
    else modClu r.2.2 c (fun x => { x with store := some ⟨a, fD w, v, if r.2.1 then some (0, []) else none⟩ }))

/-- LDG completes: the data reaches gD, or the failure traps the core (R111, R115). -/
def ldgComplete (c : Nat) (s : State) : State :=
  match (clu s c).load with
  | none => s
  | some p =>
    let a := BitVec.ofNat 64 p.addr
    let s' := modClu s c (fun x => { x with load := none })
    let fin := fun (st : Nat) (bytes : List Byte) (s : State) =>
      if st = 0 then nextPc (setReg s c p.reg (BitVec.ofNat 64 (leNat bytes))) c else memTrap s c st a
    if drained s c then s'
    else if outside p.addr then
      (match p.answer with | none => s | some (st, b) => fin st b s')
    else
      let r := accRead s' (coreAgent s' c) p.addr 8 (trapMore s' c 0x06 a)
      fin r.st r.bytes r.s

/-- STG completes: the next instruction issues, or the error is taken precisely (R111). -/
def stgComplete (c : Nat) (s : State) : State :=
  match (clu s c).store with
  | none => s
  | some p =>
    let a := BitVec.ofNat 64 p.addr
    let s' := modClu s c (fun x => { x with store := none })
    let fin := fun (st : Nat) (s : State) => if st = 0 then nextPc s c else memTrap s c st a
    if drained s c then s'
    else if outside p.addr then (match p.answer with | none => s | some (st, _) => fin st s')
    else
      let r := accWrite s' (coreAgent s' c) p.addr (leBytes 8 p.data.toNat) (trapMore s' c 0x06 a)
      fin r.1 r.2

/-! ### Queues, tokens and channels -/

/-- After a fence the handler's QPUSH, DKICK and DCTL are discarded (R116). -/
def pushesStopped (s : State) (c : Nat) : Bool := jobStopped s (jobOfC s c)

/-- Depth of a queue (R112). -/
def queueLen (x : Clu) (q : Nat) : Nat :=
  if q = 0 then x.mx.queue.length else (lget Vx.init x.vx (q - 1)).queue.length

def queueDepth (q : Nat) : Nat := if q = 0 then 256 else 64

/-- Append an entry to a queue. -/
def enqueue (s : State) (c q a : Nat) : State :=
  if q = 0 then
    let e := (List.range 4).map (fun i => (reg s c (a + i)).toNat)
    modClu s c (fun x => { x with mx := { x.mx with queue := x.mx.queue ++ [e] } })
  else
    let e := reg s c a
    modClu s c (fun x =>
      let v := lget Vx.init x.vx (q - 1)
      { x with vx := lset x.vx (q - 1) { v with queue := v.queue ++ [e] } })

/-- A matrix entry that reaches an empty queue ends ballast (R106). -/
def endBallast (s : State) (c q : Nat) : State :=
  if q = 0 then fset s .MX_STAT (tk c) Fld.MX_STAT_BALLAST 0 else s

def doQpush (c w : Nat) (s : State) : State :=
  let q := w % 8
  let a := fA w
  if 5 ≤ q || (q == 0 && (a % 4 != 0 || a == 0)) then syncTrap s c 0x01 0 (BitVec.ofNat 64 w)
  else if pushesStopped s c || srcHalted s c q then nextPc s c
  else if queueDepth q ≤ queueLen (clu s c) q then modClu s c (fun x => { x with stall := some s.tick, stallW := w })
  else nextPc (endBallast (enqueue s c q a) c q) c

/-- Cluster-island frequency in MHz (R388). -/
def clusterMhz (s : State) : Nat := fget s .CLK_CLASS [0] Fld.CLK_CLASS_MHZ

/-- The stall of a QPUSH ends: CORE_QSTALL counts its cycles (R112). -/
def stallEnd (s : State) (c t0 : Nat) : State :=
  fincWrap (modClu s c (fun x => { x with stall := none })) .CORE_QSTALL (tk c) Fld.CORE_QSTALL_CYCLES
    ((s.tick - t0) * clusterMhz s / 1000)

/-- A QPUSH stalled on a full queue proceeds when an entry frees (R112). -/
def unstall (s : State) (c : Nat) : State :=
  match (clu s c).stall with
  | none => s
  | some t0 =>
    let w := (clu s c).stallW
    if queueLen (clu s c) (w % 8) < queueDepth (w % 8) then doQpush c w (stallEnd s c t0) else s

/-- A queue halts: a QPUSH stalled on it is discarded (R112). -/
def haltStalled (s : State) (c q : Nat) : State :=
  match (clu s c).stall with
  | none => s
  | some t0 => if (clu s c).stallW % 8 = q then nextPc (stallEnd s c t0) c else s

/-- TWAIT (R113): queue-halted on a halted source, done when the token is reached, else the core waits. -/
def doTwait (c w : Nat) (s : State) : State :=
  let src := w % 32
  let target := (reg s c (fA w)).toNat % 65536
  if 5 ≤ src ∧ src ≤ 15 then syncTrap s c 0x01 0 (BitVec.ofNat 64 w)
  else if srcHalted s c src then syncTrap s c 0x09 0 (BitVec.ofNat 64 src)
  else if (lget 0 (clu s c).tokens src + 65536 - target) % 65536 < 32768 then nextPc s c
  else modClu s c (fun x => { x with twait := some (src, target) })

def doTread (c w : Nat) (s : State) : State :=
  let src := w % 32
  if 5 ≤ src ∧ src ≤ 15 then syncTrap s c 0x01 0 (BitVec.ofNat 64 w)
  else setD w c (BitVec.ofNat 64 (lget 0 (clu s c).tokens src)) s

/-- log2 of a DMA ring's entries: 0 and 13–15 are treated as 1 (DMA_CH_CFG). -/
def ringLog (s : State) (c ch : Nat) : Nat :=
  let z := fget s .DMA_CH_CFG (tk c ++ [ch]) Fld.DMA_CH_CFG_RSZ
  if z = 0 ∨ 13 ≤ z then 1 else z

def dmaHead (s : State) (c ch : Nat) : Nat := fget s .DMA_CH_PTR (tk c ++ [ch]) Fld.DMA_CH_PTR_HEAD
def dmaTail (s : State) (c ch : Nat) : Nat := fget s .DMA_CH_PTR (tk c ++ [ch]) Fld.DMA_CH_PTR_TAIL
def dmaHalted (s : State) (c ch : Nat) : Bool := fbit s .DMA_CH_STAT (tk c ++ [ch]) Fld.DMA_CH_STAT_HALTED
def setHead (s : State) (c ch v : Nat) : State := fset s .DMA_CH_PTR (tk c ++ [ch]) Fld.DMA_CH_PTR_HEAD v
def setTail (s : State) (c ch v : Nat) : State := fset s .DMA_CH_PTR (tk c ++ [ch]) Fld.DMA_CH_PTR_TAIL v

def dmaCh (s : State) (c ch : Nat) : DmaCh := lget DmaCh.init (clu s c).dma ch
def setDma (s : State) (c ch : Nat) (d : DmaCh) : State := modClu s c (fun x => { x with dma := lset x.dma ch d })

def doDkick (c w : Nat) (s : State) : State :=
  let ch := w % 16
  let tail := (reg s c (fA w)).toNat % 65536
  let s' := nextPc s c
  if pushesStopped s c then s'
  else if 2 ^ ringLog s c ch < (tail + 65536 - dmaHead s c ch) % 65536 then
    fset s' .DMA_CH_STAT (tk c ++ [ch]) Fld.DMA_CH_STAT_KICK_ERR 1
  else setTail s' c ch tail

/-- Leave the halt of a channel, to start again at entry `head`. -/
def unhalt (s : State) (c ch head : Nat) : State :=
  let s := fset s .DMA_CH_STAT (tk c ++ [ch]) Fld.DMA_CH_STAT_HALTED 0
  setDma (setHead s c ch (head % 65536)) c ch ⟨[], head % 65536⟩

/-- DCTL (R140): no effect on a channel that is not halted; discarded after a fence. -/
def doDctl (act c w : Nat) (s : State) : State :=
  let ch := w % 16
  let s' := nextPc s c
  if pushesStopped s c || !(dmaHalted s c ch) then s'
  else match act with
    | 0 => unhalt s' c ch (dmaHead s c ch + 1)
    | 1 => unhalt s' c ch (dmaHead s c ch)
    | _ => unhalt s' c ch (dmaTail s c ch)

def doRoinv (c w : Nat) (s : State) : State :=
  nextPc (modClu s c (fun x =>
    { x with
      roc := if tbit w 0 then [] else x.roc.filter (fun l => l.code)
      rocErr := x.rocErr.filter (fun e => !(tbit w 0) && e.1 % 2 == 1) })) c

/-- Cluster cycles since the launch started (R110): the tick at the clusters' frequencies so far (log entry 12). -/
def cycleOf (s : State) (c : Nat) : Nat := (clu s c).cyc + (s.tick - (clu s c).start) * clusterMhz s / 1000

/-- The clusters' frequency is about to change: the cycles of running launches and of waiting QPUSHes so far are counted at the
old one (R110, R112). -/
def countCycles (s : State) : State :=
  (s.clu.map (fun e => e.1)).foldl (fun s c =>
    let s := modClu s c (fun x => { x with cyc := cycleOf s c, start := s.tick })
    match (clu s c).stall with
    | none => s
    | some t0 => modClu (stallEnd s c t0) c (fun x => { x with stall := some s.tick })) s

/-- The content of a CSR (R110). -/
def csrRead (s : State) (c n : Nat) : Word :=
  let x := clu s c
  match n with
  | 0 => BitVec.ofNat 64 s.tick
  | 1 => BitVec.ofNat 64 ((logOf s c).getD 0)
  | 2 => BitVec.ofNat 64 x.lcount
  | 3 => BitVec.ofNat 64 x.rank
  | 4 => BitVec.ofNat 64 x.cause
  | 5 => x.epc
  | 6 => x.tval
  | 7 => x.tvec
  | 8 => x.scratch
  | _ => BitVec.ofNat 64 (cycleOf s c)

def doCsrr (c w : Nat) (s : State) : State := setD w c (csrRead s c (w % 256)) s

def doCsrw (c w : Nat) (s : State) : State :=
  let a := reg s c (fA w)
  match w % 256 with
  | 5 => nextPc (modClu s c (fun x => { x with epc := a })) c
  | 7 => nextPc (modClu s c (fun x => { x with tvec := a })) c
  | 8 => nextPc (modClu s c (fun x => { x with scratch := a })) c
  | _ => syncTrap s c 0x01 0 (BitVec.ofNat 64 w)

def doTrap (c w : Nat) (s : State) : State := syncTrap s c 0x0B 0 (zimm w)

def doEret (c _w : Nat) (s : State) : State :=
  modClu (fset s .CORE_STAT (tk c) Fld.CORE_STAT_INTRAP 0) c (fun x => { x with pc := x.epc })

/-- HALT (R118). -/
def doHalt (c w : Nat) (s : State) : State :=
  let s' := fset s .CORE_STAT (tk c) Fld.CORE_STAT_EXIT ((reg s c (fA w)).toNat % 65536)
  fset (fset s' .CORE_STAT (tk c) Fld.CORE_STAT_HALTED 1) .CORE_STAT (tk c) Fld.CORE_STAT_RUN 0

/-- An asynchronous cause is taken at an instruction boundary, or at once for a waiting TWAIT (R115). -/
def asyncTrap (c : Nat) (s : State) : State :=
  let x := clu s c
  match x.held with
  | [] => s
  | a :: r =>
    if fbit s .CORE_STAT (tk c) Fld.CORE_STAT_RUN && !(inTrap s c) && x.load.isNone && x.store.isNone && x.stall.isNone
        && !(drained s c) then
      enterTrap (modClu s c (fun x => { x with held := r })) c a.code a.status (BitVec.ofNat 64 a.tval)
    else s

def doIllegal (c w : Nat) (s : State) : State := syncTrap s c 0x01 0 (BitVec.ofNat 64 w)

/-! ### The commands -/

def execAdd (c : Fin 1024) (s : State) : Res3 := s.run (coreRow .add c.val (doAlu 0 c.val))
def execSub (c : Fin 1024) (s : State) : Res3 := s.run (coreRow .sub c.val (doAlu 1 c.val))
def execAnd (c : Fin 1024) (s : State) : Res3 := s.run (coreRow .and c.val (doAlu 2 c.val))
def execOr (c : Fin 1024) (s : State) : Res3 := s.run (coreRow .or c.val (doAlu 3 c.val))
def execXor (c : Fin 1024) (s : State) : Res3 := s.run (coreRow .xor c.val (doAlu 4 c.val))
def execSll (c : Fin 1024) (s : State) : Res3 := s.run (coreRow .sll c.val (doAlu 5 c.val))
def execSrl (c : Fin 1024) (s : State) : Res3 := s.run (coreRow .srl c.val (doAlu 6 c.val))
def execSra (c : Fin 1024) (s : State) : Res3 := s.run (coreRow .sra c.val (doAlu 7 c.val))
def execMul (c : Fin 1024) (s : State) : Res3 := s.run (coreRow .mul c.val (doAlu 8 c.val))
def execMulh (c : Fin 1024) (s : State) : Res3 := s.run (coreRow .mulh c.val (doAlu 9 c.val))
def execSlt (c : Fin 1024) (s : State) : Res3 := s.run (coreRow .slt c.val (doAlu 10 c.val))
def execSltu (c : Fin 1024) (s : State) : Res3 := s.run (coreRow .sltu c.val (doAlu 11 c.val))
def execDivu (c : Fin 1024) (s : State) : Res3 := s.run (coreRow .divu c.val (doAlu 12 c.val))
def execRemu (c : Fin 1024) (s : State) : Res3 := s.run (coreRow .remu c.val (doAlu 13 c.val))
def execAddi (c : Fin 1024) (s : State) : Res3 := s.run (coreRow .addi c.val (doImm 0x01 c.val))
def execAndi (c : Fin 1024) (s : State) : Res3 := s.run (coreRow .andi c.val (doImm 0x02 c.val))
def execOri (c : Fin 1024) (s : State) : Res3 := s.run (coreRow .ori c.val (doImm 0x03 c.val))
def execXori (c : Fin 1024) (s : State) : Res3 := s.run (coreRow .xori c.val (doImm 0x04 c.val))
def execSlli (c : Fin 1024) (s : State) : Res3 := s.run (coreRow .slli c.val (doImm 0x05 c.val))
def execSrli (c : Fin 1024) (s : State) : Res3 := s.run (coreRow .srli c.val (doImm 0x06 c.val))
def execSrai (c : Fin 1024) (s : State) : Res3 := s.run (coreRow .srai c.val (doImm 0x07 c.val))
def execShli (c : Fin 1024) (s : State) : Res3 := s.run (coreRow .shli c.val (doImm 0x08 c.val))
def execLds (c : Fin 1024) (s : State) : Res3 := s.run (coreRow .lds c.val (doLds c.val))
def execSts (c : Fin 1024) (s : State) : Res3 := s.run (coreRow .sts c.val (doSts c.val))
def execLdg (c : Fin 1024) (s : State) : Res3 := s.run (coreRow .ldg c.val (doLdg c.val))
def execLdgComplete (c : Fin 1024) (s : State) : Res3 := s.run (ldgComplete c.val)
def execStg (c : Fin 1024) (s : State) : Res3 := s.run (coreRow .stg c.val (doStg c.val))
def execStgComplete (c : Fin 1024) (s : State) : Res3 := s.run (stgComplete c.val)
def execBeq (c : Fin 1024) (s : State) : Res3 := s.run (coreRow .beq c.val (doBranch 0x18 c.val))
def execBne (c : Fin 1024) (s : State) : Res3 := s.run (coreRow .bne c.val (doBranch 0x19 c.val))
def execBlt (c : Fin 1024) (s : State) : Res3 := s.run (coreRow .blt c.val (doBranch 0x1A c.val))
def execBge (c : Fin 1024) (s : State) : Res3 := s.run (coreRow .bge c.val (doBranch 0x1B c.val))
def execBltu (c : Fin 1024) (s : State) : Res3 := s.run (coreRow .bltu c.val (doBranch 0x1C c.val))
def execBgeu (c : Fin 1024) (s : State) : Res3 := s.run (coreRow .bgeu c.val (doBranch 0x1D c.val))
def execJal (c : Fin 1024) (s : State) : Res3 := s.run (coreRow .jal c.val (doJal c.val))
def execJalr (c : Fin 1024) (s : State) : Res3 := s.run (coreRow .jalr c.val (doJalr c.val))
def execQpush (c : Fin 1024) (s : State) : Res3 := s.run (coreRow .qpush c.val (doQpush c.val))
def execTwait (c : Fin 1024) (s : State) : Res3 := s.run (coreRow .twait c.val (doTwait c.val))
def execTread (c : Fin 1024) (s : State) : Res3 := s.run (coreRow .tread c.val (doTread c.val))
def execDkick (c : Fin 1024) (s : State) : Res3 := s.run (coreRow .dkick c.val (doDkick c.val))
def execDctlResume (c : Fin 1024) (s : State) : Res3 := s.run (coreRow .dctlResume c.val (doDctl 0 c.val))
def execDctlRetry (c : Fin 1024) (s : State) : Res3 := s.run (coreRow .dctlRetry c.val (doDctl 1 c.val))
def execDctlReset (c : Fin 1024) (s : State) : Res3 := s.run (coreRow .dctlReset c.val (doDctl 2 c.val))
def execRoinv (c : Fin 1024) (s : State) : Res3 := s.run (coreRow .roinv c.val (doRoinv c.val))
def execCsrr (c : Fin 1024) (s : State) : Res3 := s.run (coreRow .csrr c.val (doCsrr c.val))
def execCsrw (c : Fin 1024) (s : State) : Res3 := s.run (coreRow .csrw c.val (doCsrw c.val))
def execTrap (c : Fin 1024) (s : State) : Res3 := s.run (coreRow .trap c.val (doTrap c.val))
def execEret (c : Fin 1024) (s : State) : Res3 := s.run (coreRow .eret c.val (doEret c.val))
def execHalt (c : Fin 1024) (s : State) : Res3 := s.run (coreRow .halt c.val (doHalt c.val))
def execAsyncTrap (c : Fin 1024) (s : State) : Res3 := s.run (asyncTrap c.val)
def execIllegalInstruction (c : Fin 1024) (s : State) : Res3 := s.run (coreRow .illegal c.val (doIllegal c.val))

end Sys2Proof.Machine
end

