-- ==== Sys2Proof/Machine/Roc.lean ====
section
/-! DEFINITION. The read-only cache (R131–R133) and the fetch error of R117. -/

namespace Sys2Proof.Machine

/-- Put a line into its partition of its set, over the least recently used way when the 4 code or 12 data ways are taken. -/
def rocInsert (x : Clu) (l : RocLine) : Clu :=
  let same := x.roc.filter (fun y => y.code == l.code && y.line % 64 == l.line % 64 && y.line != l.line)
  let rest := x.roc.filter (fun y => !(y.code == l.code && y.line == l.line))
  let ways := if l.code then 4 else 12
  let old := same.foldl (fun best y => match best with
    | none => some y
    | some b => if y.stamp < b.stamp then some y else some b) none
  let rest := if same.length < ways then rest else match old with
    | none => rest
    | some o => rest.filter (fun y => y != o)
  let k := b2n l.code
  { x with roc := { l with stamp := x.rocTick + 1 } :: rest, rocTick := x.rocTick + 1,
           rocErr := x.rocErr.filter (fun e => !(e.1 % 2 == k && e.1 / 32 == l.line)) }

/-- A line is used: it becomes the most recently used of its partition (R131). -/
def rocTouch (x : Clu) (l : RocLine) : Clu :=
  { x with roc := x.roc.map (fun y => if y.code == l.code && y.line == l.line then { y with stamp := x.rocTick + 1 } else y),
           rocTick := x.rocTick + 1 }

/-- Fill a 256-byte line from the owning shaft controller (R131): each word's status by its first failing word is kept, so
that its group counts as not allocated (R117). The status of the line as a whole (unmapped, offline, timed out) is returned; the
fill waits for a bank, and for a host's copy, as any read does (R155, R165, R316). -/
def rocFillLine (s : State) (c : Nat) (code : Bool) (line : Nat) : Nat × State :=
  let a := 256 * line
  let st := if a < spBase then accStatus s a 256 false else 0x0301
  if st != 0 then (st, { s with nbBlock := s.nbBlock.filter (fun y => !(y.addr == a && y.len == 256 && y.out)) })
  else
    let h := resolveHost s a 256 false
    if h.1 != 0 then h else
    let s := shaftPass (atBanks (atClocks h.2 c a 256) a 256 false) a 256
    let s := (tcTouch s ⟨c, false, 0, false, false, jobOfC s c⟩ a 256).2.2
    let s := finc s .ROC_CNT (tk c) Fld.ROC_CNT_MISS 1
    let r := (List.range 16).foldl (fun (acc : State × List Byte × List (BitVec 16)) i =>
      let e := lineErrs (jobOfC s c) acc.1 (a + 16 * i) 16
      if e.1 != 0 then (e.2, acc.2.1 ++ List.replicate 16 0, acc.2.2 ++ [BitVec.ofNat 16 e.1])
      else
        let r := readRange e.2 (a + 16 * i) 16 0
        (r.s, acc.2.1 ++ r.bytes, acc.2.2 ++ [BitVec.ofNat 16 r.st])) (s, [], [])
    (0, modClu r.1 c (fun x => rocInsert x ⟨code, line, 0, r.2.1, r.2.2⟩))

/-- The first failing status of a group as its fill left it. -/
def groupStatus (l : RocLine) (a : Nat) : Nat :=
  (((List.range 4).map (fun i => (lget 0 l.dev (a % 256 / 64 * 4 + i)).toNat)).find? (fun d => d != 0)).getD 0

/-- The first failing word address of a group. -/
def groupWord (l : RocLine) (a : Nat) : Nat :=
  let g := a % 256 / 64 * 4
  256 * l.line + 16 * (g + (((List.range 4).find? (fun i => lget 0 l.dev (g + i) != 0)).getD 0))

/-- The words of a line. -/
def lineWords (l : RocLine) : List Nat := (List.range 16).map (fun i => 16 * l.line + i)

/-- A fill that serves the core's own fetch delivers its group (R117). -/
def fillDone (s : State) (c : Nat) (code : Bool) (a : Nat) : State :=
  if code && coreReady s c && (clu s c).pc.toNat / 64 == a / 64 then modClu s c (fun x => { x with group := some (a / 64) }) else s

/-- A read-only cache fill for a 64-byte group (ROC_FILL). A failing group of the core's own fetch traps with fetch error at the
instruction it would execute; only 0x0303–0x0305 raise the fence (R117). An unmapped fetch traps as address-unmapped
(log entry 13). -/
def rocFill (c : Nat) (code : Bool) (a : Nat) (errs : List WordErr) (s : State) : State :=
  let pre := match rocFind (clu s c) code a with
    | none => (false, s)
    | some l => rocDeliver s c l (lineWords l) errs
  let held := match rocFind (clu pre.2 c) code a with
    | some l => pre.1 && groupHeld l a
    | none => false
  if held then pre.2
  else
    let r := rocFillLine pre.2 c code (a / 256)
    let s := r.2
    let pc := (clu s c).pc
    let mine := code && coreReady s c && pc.toNat / 64 == a / 64
    if r.1 != 0 then
      if mine then (if r.1 = 0x0301 then syncTrap s c 0x03 0 pc else syncTrap s c 0x07 r.1 pc) else s
    else
      match rocFind (clu s c) code a with
      | none => s
      | some l =>
        let st := groupStatus l a
        if st = 0 || !mine then fillDone s c code a
        else
          let s := wordFault s st 1 (groupWord l a) (jobOfC s c) (trapMore s c 0x07 pc) (some c)
          syncTrap s c 0x07 st pc

/-- Read one line's part [lo, hi) through the data ways (R98, R131, R133). A missing line is filled; a held line of which a word
cannot be delivered is filled again, once, and the refill's status governs. -/
def rocLineRead (s : State) (c ln lo hi : Nat) : RangeRead :=
  let ws := (List.range ((hi - 1) / 16 + 1 - lo / 16)).map (fun i => lo / 16 + i)
  let fill := fun (s : State) => rocFillLine s c false ln
  let hit := match rocFind (clu s c) false (256 * ln) with
    | none => (false, s)
    | some l =>
      if ws.any (fun w => lget 0 l.dev (w % 16) != 0) then (false, modClu s c (fun x => rocDrop x false ln))
      else
        let r := rocDeliver (modClu (finc s .ROC_CNT (tk c) Fld.ROC_CNT_HIT 1) c (fun x => rocTouch x l)) c l ws []
        (r.1, r.2)
  let f := if hit.1 then (0, hit.2) else fill hit.2
  if f.1 != 0 then ⟨f.1, lo / 16, [], f.2⟩
  else match rocFind (clu f.2 c) false (256 * ln) with
    | none => ⟨0x0301, lo / 16, [], f.2⟩
    | some l => match ws.find? (fun w => lget 0 l.dev (w % 16) != 0) with
      | some w => ⟨(lget 0 l.dev (w % 16)).toNat, w, [], f.2⟩
      | none => ⟨0, 0, (l.data.drop (lo % 256)).take (hi - lo), f.2⟩

/-- Read through the data ways for the matrix array: the first failing status. -/
def rocRead (s : State) (c a n : Nat) : RangeRead :=
  if n = 0 then ⟨0, 0, [], s⟩
  else
    let lines := (List.range ((a + n - 1) / 256 + 1 - a / 256)).map (fun i => a / 256 + i)
    lines.foldl (fun (r : RangeRead) ln =>
      if r.st != 0 then r
      else
        let x := rocLineRead r.s c ln (max a (256 * ln)) (min (a + n) (256 * ln + 256))
        { x with bytes := r.bytes ++ x.bytes }) ⟨0, 0, [], s⟩

/-- Invalidate every read-only cache of the device (R132). -/
def rocInvalidateAll (s : State) : State := { s with clu := s.clu.map (fun e => (e.1, { e.2 with roc := [], rocErr := [] })) }

def execRocFill (c : Fin 1024) (code : Bool) (addr : Nat) (errs : List WordErr) (s : State) : Res3 :=
  s.run (rocFill c.val code addr errs)

end Sys2Proof.Machine
end

