-- ==== Sys2Proof/Machine/Vector.lean ====
section
/-! DEFINITION. The vector cores (R119–R125): checks, lanes, arithmetic, loads and stores, and tokens. -/

namespace Sys2Proof.Machine

def vxOf (s : State) (c v : Nat) : Vx := lget Vx.init (clu s c).vx v
def setVx (s : State) (c v : Nat) (x : Vx) : State := modClu s c (fun k => { k with vx := lset k.vx v x })

/-! ### Fields of an instruction (R120) -/

def vOp (w : Nat) : Nat := bits w 63 56
def vTyp (w : Nat) : Nat := bits w 55 53
def vD (w : Nat) : Nat := bits w 52 48
def vA (w : Nat) : Nat := bits w 47 43
def vB (w : Nat) : Nat := bits w 42 38
def vC (w : Nat) : Nat := bits w 37 33
def vMsk (w : Nat) : Nat := bits w 32 30
def vAbr (w : Nat) : Nat := bits w 29 27
def vImm (w : Nat) : Nat := bits w 21 0

/-- Lane width of a type. -/
def laneW (t : Nat) : Nat :=
  match t with | 0 => 16 | 1 => 32 | 2 => 32 | 3 => 16 | _ => 8

/-- Lanes of a type. -/
def laneN (t : Nat) : Nat := 1024 / laneW t

/-- The float format of a type, if it is a float. -/
def laneF (t : Nat) : Option Fmt :=
  match t with | 0 => some .bf16 | 1 => some .fp32 | 5 => some .e4m3 | 6 => some .e5m2 | _ => none

/-- Lane i of a register. -/
def lane (t r i : Nat) : Nat := r / 2 ^ (laneW t * i) % 2 ^ laneW t

/-- Put a lane. -/
def putLane (t r i x : Nat) : Nat := setBits r (laneW t * i + laneW t - 1) (laneW t * i) x

/-- Whether an operation is known (R121). -/
def vKnown (op : Nat) : Bool :=
  decide (op ≤ 0x0A) || (decide (0x10 ≤ op) && decide (op ≤ 0x15)) || (op == 0x18 || op == 0x19 || op == 0x1A)
    || op == 0x20 || op == 0x21 || op == 0x28 || op == 0x30 || op == 0x31 || op == 0x32 || op == 0x38 || op == 0x39 || op == 0x3C

/-- Whether TYP is allowed for an operation (R120, R124). -/
def typOk (op t : Nat) : Bool :=
  if t = 7 then false
  else if t = 5 ∨ t = 6 then op == 0x28 || op == 0x30 || op == 0x31
  else if 2 ≤ t then !(decide (0x10 ≤ op) && decide (op ≤ 0x15))
  else true

/-- Ratio of the lane counts of two types. -/
def cvtRatio (src dst : Nat) : Nat := max (laneN src) (laneN dst) / min (laneN src) (laneN dst)

/-- The address of a load or store (R121). -/
def vAddr (x : Vx) (w : Nat) : Nat := ((if vAbr w = 0 then 0 else lget 0 x.a (vAbr w)) + vImm w) % 2 ^ 22

/-- The first failing check of R124, 0 when none fails. DESIGN CHOICE (log entry 155): of several the first in the order of the
table counts. -/
def vCheck (x : Vx) (w : Nat) : Nat :=
  let op := vOp w
  if !(vKnown op) || bits w 26 22 != 0 then 0x01
  else if !(typOk op (vTyp w)) then 0x02
  else if (op == 0x20 && vD w % 8 == 0) || (op == 0x21 && vMsk w == 0) then 0x03
  else if (op == 0x30 || op == 0x31 || op == 0x32) && vAddr x w % 16 != 0 then 0x04
  else if op == 0x28 && (bits (vImm w) 2 0 == 7 || decide (cvtRatio (bits (vImm w) 2 0) (vTyp w) ≤ bits (vImm w) 4 3)) then 0x05
  else 0

/-- Whether lane i is written under MSK (R120). -/
def enabled (x : Vx) (w i : Nat) : Bool := vMsk w == 0 || tbit (lget 0 x.m (vMsk w)) i

/-- Write lanes of VD under the mask. -/
def writeLanes (x : Vx) (w : Nat) (f : Nat → Nat) : Vx :=
  let t := vTyp w
  let r := foldUp (laneN t) (fun r i => if enabled x w i then putLane t r i (f i) else r) (lget 0 x.v (vD w))
  { x with v := lset x.v (vD w) r }

/-! ### Lane arithmetic (R121–R123) -/

/-- A binary operation of a lane: 1 add, 2 subtract, 3 multiply, 5 max, 6 min. Infinity − infinity and infinity × 0 are open
(log entry 9). -/
def laneOp (t op a b : Nat) : Nat :=
  match laneF t with
  | some f =>
    let x := fdec f a
    let y := fdec f b
    let enc := fencOr f op [a, b] (x.isNan || y.isNan)
    match op with
    | 1 => enc (fadd x y)
    | 2 => enc (fadd x (fneg y))
    | 3 => enc (fmul x y)
    | 5 => fenc f (fmax x y)
    | _ => fenc f (fmin x y)
  | none =>
    let n := laneW t
    let x := sext n a
    let y := sext n b
    match op with
    | 1 => wrap n (x + y)
    | 2 => wrap n (x - y)
    | 3 => wrap n (x * y)
    | 5 => wrap n (max x y)
    | _ => wrap n (min x y)

/-- va × vb + vc with one rounding; integers wrap. A sum that does not exist is open (log entry 9). -/
def laneFma (t a b c : Nat) : Nat :=
  match laneF t with
  | some f =>
    fencOr f 4 [a, b, c] ((fdec f a).isNan || (fdec f b).isNan || (fdec f c).isNan)
      (fadd (fmul (fdec f a) (fdec f b)) (fdec f c))
  | none => wrap (laneW t) (sext (laneW t) a * sext (laneW t) b + sext (laneW t) c)

/-- |va| and −va. A NaN lane gives the canonical NaN. -/
def laneAbs (t a : Nat) : Nat :=
  match laneF t with
  | some f => fenc f (fabs (fdec f a))
  | none => wrap (laneW t) (Int.natAbs (sext (laneW t) a))

def laneNeg (t a : Nat) : Nat :=
  match laneF t with
  | some f => fenc f (fneg (fdec f a))
  | none => wrap (laneW t) (- sext (laneW t) a)

/-- The constant of VADDI and VMULI in a lane's type. -/
def laneConst (t imm : Nat) : Nat :=
  match t with
  | 0 => imm % 65536
  | 1 => imm % 65536 * 65536
  | _ => wrap (laneW t) (sext 16 imm)

/-- The functions of R121 on one float lane: 0x10 exp2, 0x11 log2, 0x12 reciprocal, 0x13 reciprocal square root. A
logarithm or reciprocal that does not exist is open (log entry 9). -/
def laneFun (t op a : Nat) : Nat :=
  match laneF t with
  | none => a
  | some f =>
    let openv := Config.openFloat op a 0 0 % 2 ^ f.width
    match op with
    | 0x10 => fexp2 f (fdec f a)
    | 0x11 => flog2 f openv (fdec f a)
    | 0x12 => frcp f openv (fdec f a)
    | _ => frsqrt f openv (fdec f a)

/-- va × 2^vb with vb as a signed integer of the lane width. -/
def laneLdexp (t a b : Nat) : Nat :=
  match laneF t with
  | none => a
  | some f => fenc f (fscale (sext (laneW t) b) (fdec f a))

/-- floor(log2 |va|) as an integer of the lane width; a zero, infinity or NaN gives the integer minimum. -/
def laneGete (t a : Nat) : Nat :=
  match laneF t with
  | none => a
  | some f => match fgete (fdec f a) with
    | none => 2 ^ (laneW t - 1)
    | some e => wrap (laneW t) e

/-- The tree of VRSUM and VRMAX over lane values: at each stage lane i meets lane i + h (R122). -/
def treeFold (op : Nat → Nat → Nat) : Nat → List Nat → List Nat
  | 0, l => l
  | n + 1, l =>
    let h := l.length / 2
    if h = 0 then l else treeFold op n ((List.range h).map (fun i => op (lget 0 l i) (lget 0 l (i + h))))

/-- −infinity or the integer minimum: what a disabled lane enters VRMAX as. -/
def laneMin (t : Nat) : Nat :=
  match laneF t with
  | some f => fenc f (.inf true)
  | none => 2 ^ (laneW t - 1)

/-- The comparison of VCMP: 0 eq, 1 lt, 2 le, 3 ne; a NaN operand holds only for ne (R122). -/
def laneCmp (t rel a b : Nat) : Bool :=
  match laneF t with
  | some f =>
    match fcmp (fdec f a) (fdec f b) with
    | none => rel == 3
    | some c => match rel with
      | 0 => c == 0 | 1 => decide (c < 0) | 2 => decide (c ≤ 0) | _ => c != 0
  | none =>
    let x := sext (laneW t) a
    let y := sext (laneW t) b
    match rel with
    | 0 => x == y | 1 => decide (x < y) | 2 => decide (x ≤ y) | _ => x != y

/-- Convert one lane between types (R123). -/
def laneCvt (src dst a : Nat) : Nat :=
  match laneF src, laneF dst with
  | some f, some g => fenc g (fdec f a)
  | some f, none =>
    let n := laneW dst
    wrap n (ftoInt (- (2 ^ (n - 1) : Int)) (2 ^ (n - 1) - 1) 0 (fdec f a))
  | none, some g => fenc g (.ofInt (sext (laneW src) a) 0)
  | none, none =>
    let n := laneW dst
    let x := sext (laneW src) a
    let lo : Int := - (2 ^ (n - 1) : Int)
    let hi : Int := 2 ^ (n - 1) - 1
    wrap n (if x < lo then lo else if hi < x then hi else x)

/-! ### The queue head -/

/-- Halt a vector queue: the token source is halted, a QPUSH waiting for room on it is discarded (R112), and the cause reaches
the scalar core (R124, R125). -/
def vHalt (s : State) (c v code status tval : Nat) : State :=
  asyncCause (haltStalled (fset s .VX_STAT (tk c ++ [v]) Fld.VX_STAT_HALTED 1) c (v + 1)) c code status tval

/-- Reject the head of a queue (R124). -/
def vReject (s : State) (c v code : Nat) : State :=
  vHalt (fset s .VX_STAT (tk c ++ [v]) Fld.VX_STAT_LAST_REJ code) c v 0x05 0 (256 * v + code)

/-- Take the head off a queue; a QPUSH that waits for room proceeds (R112). -/
def vPop (s : State) (c v : Nat) : State :=
  let x := vxOf s c v
  unstall (setVx s c v { x with queue := x.queue.drop 1 }) c

/-- Whether a vector core can take its next instruction. -/
def vReady (s : State) (c v : Nat) : Bool :=
  !(fbit s .VX_STAT (tk c ++ [v]) Fld.VX_STAT_HALTED) && !(coreOff s c) && !(drained s c) && (vxOf s c v).sync.isNone

/-- Run the head of a vector queue when it is the operation the row names: checked, then executed and taken off the queue.
The head of a row of another operation is left alone. -/
def vRow (ops : List Nat) (c v : Nat) (f : Nat → State → State) (s : State) : State :=
  match (vxOf s c v).queue with
  | [] => s
  | e :: _ =>
    let w := e.toNat
    if vReady s c v && ops.contains (vOp w) then
      let k := vCheck (vxOf s c v) w
      if k = 0 then f w s else vReject s c v k
    else s

/-- An instruction that only changes registers. -/
def vRegs (g : Nat → Vx → Vx) (c v : Nat) (w : Nat) (s : State) : State :=
  vPop (setVx s c v (g w (vxOf s c v))) c v

def rA (x : Vx) (w i : Nat) : Nat := lane (vTyp w) (lget 0 x.v (vA w)) i
def rB (x : Vx) (w i : Nat) : Nat := lane (vTyp w) (lget 0 x.v (vB w)) i
def rC (x : Vx) (w i : Nat) : Nat := lane (vTyp w) (lget 0 x.v (vC w)) i

def vBin (op w : Nat) (x : Vx) : Vx := writeLanes x w (fun i => laneOp (vTyp w) op (rA x w i) (rB x w i))
def vFma (w : Nat) (x : Vx) : Vx := writeLanes x w (fun i => laneFma (vTyp w) (rA x w i) (rB x w i) (rC x w i))
def vUn (f : Nat → Nat → Nat) (w : Nat) (x : Vx) : Vx := writeLanes x w (fun i => f (vTyp w) (rA x w i))
def vConst (op w : Nat) (x : Vx) : Vx :=
  writeLanes x w (fun i => laneOp (vTyp w) op (rA x w i) (laneConst (vTyp w) (vImm w)))
def vFun (op w : Nat) (x : Vx) : Vx := writeLanes x w (fun i => laneFun (vTyp w) op (rA x w i))
def vLdexp (w : Nat) (x : Vx) : Vx := writeLanes x w (fun i => laneLdexp (vTyp w) (rA x w i) (rB x w i))

/-- VRSUM and VRMAX: every lane of vd takes the result, whatever MSK enables (R121, R122). -/
def vReduce (mx : Bool) (w : Nat) (x : Vx) : Vx :=
  let t := vTyp w
  let vals := (List.range (laneN t)).map (fun i => if enabled x w i then rA x w i else if mx then laneMin t else 0)
  let r := lget 0 (treeFold (laneOp t (if mx then 5 else 1)) 8 vals) 0
  { x with v := lset x.v (vD w) (foldUp (laneN t) (fun acc i => putLane t acc i r) 0) }

def vPerm (w : Nat) (x : Vx) : Vx := writeLanes x w (fun i => rA x w (rB x w i % laneN (vTyp w)))

/-- VCMP writes the mask register m[VD[2:0]]; only the lanes of MSK take part, others keep their bit (log entry 62). DESIGN
CHOICE (log entry 154): the bits at and above the lane count of the type stay. -/
def vCmp (w : Nat) (x : Vx) : Vx :=
  let t := vTyp w
  let old := lget 0 x.m (vD w % 8)
  let m := foldUp (laneN t) (fun m i =>
    if enabled x w i then setBits m i i (b2n (laneCmp t (vImm w % 4) (rA x w i) (rB x w i))) else m) old
  { x with m := lset x.m (vD w % 8) m }

def vSel (w : Nat) (x : Vx) : Vx :=
  let t := vTyp w
  { x with v := lset x.v (vD w) (foldUp (laneN t) (fun r i =>
      putLane t r i (if tbit (lget 0 x.m (vMsk w)) i then rA x w i else rB x w i)) 0) }

/-- VCVT with its part P (R123). -/
def vCvt (w : Nat) (x : Vx) : Vx :=
  let st := bits (vImm w) 2 0
  let dt := vTyp w
  let p := bits (vImm w) 4 3
  let src := lget 0 x.v (vA w)
  let ls := laneN st
  let ld := laneN dt
  if ld ≤ ls then writeLanes x w (fun i => laneCvt st dt (lane st src (i + p * ld)))
  else
    let r := foldUp ls (fun r j =>
      let i := j + p * ls
      if enabled x w i then putLane dt r i (laneCvt st dt (lane st src j)) else r) (lget 0 x.v (vD w))
    { x with v := lset x.v (vD w) r }

/-- The continuation entries of a failing vector operand: the trap that follows, at the core's next instruction (R115, R116;
log entry 140). -/
def vMore (s : State) (c v : Nat) : List (Nat × Nat) := trapMore s c 0x08 (BitVec.ofNat 64 (v + 1))

/-- Read of the own scratchpad with the wrap of R125, through the core's port (R127). -/
def spRead (s : State) (c v a n : Nat) : RangeRead :=
  let s := portWaits c (2 + v) a n s
  let l := (logOf s c).getD 0
  let k := { coreAgent s c with reader := 3 }
  if a + n ≤ 2 ^ 22 then accRead s k (spAddr l a) n (vMore s c v)
  else
    let r := accRead s k (spAddr l a) (2 ^ 22 - a) (vMore s c v)
    if r.st != 0 then r
    else
      let r2 := accRead r.s k (spAddr l 0) (n - (2 ^ 22 - a)) (vMore s c v)
      { r2 with bytes := r.bytes ++ r2.bytes }

/-- An operand error of a vector core: the fence was raised at detection; the queue halts and the core traps (R125). -/
def vOperand (s : State) (c v st : Nat) : State := vHalt s c v 0x08 st (v + 1)

def vLd (c v w : Nat) (s : State) : State :=
  let x := vxOf s c v
  let r := spRead s c v (vAddr x w) 128
  if r.st != 0 then vOperand r.s c v r.st
  else
    let src := leNat r.bytes
    vPop (setVx r.s c v (writeLanes x w (fun i => lane (vTyp w) src i))) c v

def vLdbc (c v w : Nat) (s : State) : State :=
  let x := vxOf s c v
  let r := spRead s c v (vAddr x w) (laneW (vTyp w) / 8)
  if r.st != 0 then vOperand r.s c v r.st
  else vPop (setVx r.s c v (writeLanes x w (fun _ => leNat r.bytes))) c v

/-- VST: the bytes of the enabled lanes; each codeword written in part is read, merged and written (R125, R128). -/
def vSt (c v w : Nat) (s : State) : State :=
  let x := vxOf s c v
  let t := vTyp w
  let z := laneW t / 8
  let a := vAddr x w
  let src := leBytes 128 (lget 0 x.v (vD w))
  let l := (logOf s c).getD 0
  let k := { coreAgent s c with reader := 3 }
  let words := List.range 8
  let r := words.foldl (fun (acc : Nat × State) i =>
    if acc.1 != 0 then acc
    else
      let base := (a + 16 * i) % 2 ^ 22
      let on := fun j => enabled x w ((16 * i + j) / z)
      if (List.range 16).all on then accWrite acc.2 k (spAddr l base) ((src.drop (16 * i)).take 16) (vMore acc.2 c v)
      else if (List.range 16).any on then
        let rd := accRead acc.2 k (spAddr l base) 16 (vMore acc.2 c v)
        if rd.st != 0 then (rd.st, rd.s)
        else accWrite rd.s k (spAddr l base)
          ((List.range 16).map (fun j => if on j then lget 0 src (16 * i + j) else lget 0 rd.bytes j)) (vMore rd.s c v)
      else acc) (0, if (List.range (128 / z)).any (enabled x w) then portWaits c (2 + v) a 128 s else s)
  if r.1 != 0 then vOperand r.2 c v r.1 else vPop r.2 c v

def vSeta (w : Nat) (x : Vx) : Vx :=
  if vD w % 8 = 0 then x else { x with a := lset x.a (vD w % 8) (vImm w) }

def vAdda (w : Nat) (x : Vx) : Vx :=
  let a := vA w % 8
  let old := if a = 0 then 0 else lget 0 x.a a
  if vD w % 8 = 0 then x else { x with a := lset x.a (vD w % 8) ((old + vImm w) % 2 ^ 22) }

/-- VSYNC reaches the head of its queue: its token is posted by VSYNC_COMPLETE (R124). -/
def vSync (c v w : Nat) (s : State) : State :=
  let s := vPop s c v
  setVx s c v { vxOf s c v with sync := some (vImm w % 65536) }

/-- The token of a VSYNC is posted (R113): earlier instructions of the core are complete, since each row completes one. -/
def vSyncComplete (c v : Nat) (s : State) : State :=
  match (vxOf s c v).sync with
  | none => s
  | some tok => if drained s c then s else postToken (setVx s c v { vxOf s c v with sync := none }) c (v + 1) tok

/-- A reserved VOP at the head of a queue is rejected with code 0x01 (R124). -/
def vReserved (c v : Nat) (s : State) : State :=
  match (vxOf s c v).queue with
  | [] => s
  | e :: _ => if vReady s c v && !(vKnown (vOp e.toNat)) then vReject s c v 0x01 else s

def execVnop (c : Fin 1024) (v : Fin 4) (s : State) : Res3 := s.run (vRow [0x00] c.val v.val (vRegs (fun _ x => x) c.val v.val))
def execVadd (c : Fin 1024) (v : Fin 4) (s : State) : Res3 := s.run (vRow [0x01] c.val v.val (vRegs (vBin 1) c.val v.val))
def execVsub (c : Fin 1024) (v : Fin 4) (s : State) : Res3 := s.run (vRow [0x02] c.val v.val (vRegs (vBin 2) c.val v.val))
def execVmul (c : Fin 1024) (v : Fin 4) (s : State) : Res3 := s.run (vRow [0x03] c.val v.val (vRegs (vBin 3) c.val v.val))
def execVfma (c : Fin 1024) (v : Fin 4) (s : State) : Res3 := s.run (vRow [0x04] c.val v.val (vRegs vFma c.val v.val))
def execVmax (c : Fin 1024) (v : Fin 4) (s : State) : Res3 := s.run (vRow [0x05] c.val v.val (vRegs (vBin 5) c.val v.val))
def execVmin (c : Fin 1024) (v : Fin 4) (s : State) : Res3 := s.run (vRow [0x06] c.val v.val (vRegs (vBin 6) c.val v.val))
def execVabs (c : Fin 1024) (v : Fin 4) (s : State) : Res3 := s.run (vRow [0x07] c.val v.val (vRegs (vUn laneAbs) c.val v.val))
def execVneg (c : Fin 1024) (v : Fin 4) (s : State) : Res3 := s.run (vRow [0x08] c.val v.val (vRegs (vUn laneNeg) c.val v.val))
def execVaddi (c : Fin 1024) (v : Fin 4) (s : State) : Res3 := s.run (vRow [0x09] c.val v.val (vRegs (vConst 1) c.val v.val))
def execVmuli (c : Fin 1024) (v : Fin 4) (s : State) : Res3 := s.run (vRow [0x0A] c.val v.val (vRegs (vConst 3) c.val v.val))
def execVexp2 (c : Fin 1024) (v : Fin 4) (s : State) : Res3 := s.run (vRow [0x10] c.val v.val (vRegs (vFun 0x10) c.val v.val))
def execVlog2 (c : Fin 1024) (v : Fin 4) (s : State) : Res3 := s.run (vRow [0x11] c.val v.val (vRegs (vFun 0x11) c.val v.val))
def execVrcp (c : Fin 1024) (v : Fin 4) (s : State) : Res3 := s.run (vRow [0x12] c.val v.val (vRegs (vFun 0x12) c.val v.val))
def execVrsqrt (c : Fin 1024) (v : Fin 4) (s : State) : Res3 := s.run (vRow [0x13] c.val v.val (vRegs (vFun 0x13) c.val v.val))
def execVldexp (c : Fin 1024) (v : Fin 4) (s : State) : Res3 := s.run (vRow [0x14] c.val v.val (vRegs vLdexp c.val v.val))
def execVgete (c : Fin 1024) (v : Fin 4) (s : State) : Res3 := s.run (vRow [0x15] c.val v.val (vRegs (vUn laneGete) c.val v.val))
def execVrsum (c : Fin 1024) (v : Fin 4) (s : State) : Res3 := s.run (vRow [0x18] c.val v.val (vRegs (vReduce false) c.val v.val))
def execVrmax (c : Fin 1024) (v : Fin 4) (s : State) : Res3 := s.run (vRow [0x19] c.val v.val (vRegs (vReduce true) c.val v.val))
def execVperm (c : Fin 1024) (v : Fin 4) (s : State) : Res3 := s.run (vRow [0x1A] c.val v.val (vRegs vPerm c.val v.val))
def execVcmp (c : Fin 1024) (v : Fin 4) (s : State) : Res3 := s.run (vRow [0x20] c.val v.val (vRegs vCmp c.val v.val))
def execVsel (c : Fin 1024) (v : Fin 4) (s : State) : Res3 := s.run (vRow [0x21] c.val v.val (vRegs vSel c.val v.val))
def execVcvt (c : Fin 1024) (v : Fin 4) (s : State) : Res3 := s.run (vRow [0x28] c.val v.val (vRegs vCvt c.val v.val))
def execVld (c : Fin 1024) (v : Fin 4) (s : State) : Res3 := s.run (vRow [0x30] c.val v.val (vLd c.val v.val))
def execVst (c : Fin 1024) (v : Fin 4) (s : State) : Res3 := s.run (vRow [0x31] c.val v.val (vSt c.val v.val))
def execVldbc (c : Fin 1024) (v : Fin 4) (s : State) : Res3 := s.run (vRow [0x32] c.val v.val (vLdbc c.val v.val))
def execVseta (c : Fin 1024) (v : Fin 4) (s : State) : Res3 := s.run (vRow [0x38] c.val v.val (vRegs vSeta c.val v.val))
def execVadda (c : Fin 1024) (v : Fin 4) (s : State) : Res3 := s.run (vRow [0x39] c.val v.val (vRegs vAdda c.val v.val))
def execVsync (c : Fin 1024) (v : Fin 4) (s : State) : Res3 := s.run (vRow [0x3C] c.val v.val (vSync c.val v.val))
def execVsyncComplete (c : Fin 1024) (v : Fin 4) (s : State) : Res3 := s.run (vSyncComplete c.val v.val)
def execVectorReservedOp (c : Fin 1024) (v : Fin 4) (s : State) : Res3 := s.run (vReserved c.val v.val)

end Sys2Proof.Machine
end

