-- ==== Sys2Proof/Machine/Matrix.lean ====
section
/-! DEFINITION. The matrix array (R80–R106): stationary tiles, weight columns, edge accumulators, outputs and the queue. -/

namespace Sys2Proof.Machine

/-! ### Fields (R98, R100) -/

def mOpc (w0 : Nat) : Nat := bits w0 63 56
def MxRun.wfmt (r : MxRun) : Nat := bits r.w0 55 51
def MxRun.afmt (r : MxRun) : Nat := bits r.w0 50 48
def MxRun.bsz (r : MxRun) : Nat := bits r.w0 47 46
def MxRun.acc (r : MxRun) : Nat := bits r.w0 45 44
def MxRun.ofmt (r : MxRun) : Nat := bits r.w0 43 41
def MxRun.wsrc (r : MxRun) : Nat := bits r.w0 40 40
def MxRun.fofs (r : MxRun) : Int := sext 8 (bits r.w0 39 32)
def MxRun.aslot (r : MxRun) : Nat := bits r.w0 31 24
def MxRun.k (r : MxRun) : Nat := bits r.w0 23 16
def MxRun.m (r : MxRun) : Nat := bits r.w0 15 8
def MxRun.ostride (r : MxRun) : Nat := bits r.w1 63 48
def MxRun.waddr (r : MxRun) : Nat := bits r.w1 41 0
def MxRun.n (r : MxRun) : Nat := bits r.w2 63 44
def MxRun.saddr (r : MxRun) : Nat := bits r.w2 41 0
def MxRun.stat (r : MxRun) : Nat := bits r.w3 63 46 * 16
def MxRun.oaddr (r : MxRun) : Nat := bits r.w3 45 28 * 16
def MxRun.baddr (r : MxRun) : Nat := bits r.w3 27 10 * 16

/-- An instruction's words, not yet loaded. -/
def mxRunOf (e : List Nat) : MxRun :=
  { w0 := lget 0 e 0, w1 := lget 0 e 1, w2 := lget 0 e 2, w3 := lget 0 e 3, live := false, tile := [], em := [], bad := [],
    rd := 0, cols := [], next := [], outs := [], outCol := 0, stop := none, undef := false }

/-- Weight width W (R83). -/
def wWidth (wf : Nat) : Nat := if wf ≤ 0x0F then wf + 1 else if wf = 0x10 then 1 else 5

/-- Bytes of a weight record (R84). -/
def wRecord (wf : Nat) : Nat := if wf = 0x11 then 64 else 16 * wWidth wf

/-- Block segments of a column (R84, R86). -/
def wSegs (bsz : Nat) : Nat := match bsz with | 1 => 4 | 2 => 2 | _ => 1

/-- Bytes of a column's scale record. -/
def wScales (bsz : Nat) : Nat := if bsz = 0 then 0 else wSegs bsz

/-- Element size of a stationary format (R87). -/
def aSize (af : Nat) : Nat := if af = 1 ∨ af = 4 then 2 else 1

/-- Size of an output format (R93). -/
def oSize (f : Nat) : Nat := match f with | 1 => 4 | 2 => 4 | 3 => 2 | 4 => 8 | _ => 0

/-! ### Checks (R99) -/

/-- First failing check of an MMA, in the order of the table (log entry 16). DESIGN CHOICE (log entry 153): with WSRC = 0 bits
[41:22] of WADDR and SADDR are part of the offset (R98). -/
def mmaCheck (r : MxRun) : Nat :=
  let ends : List Nat :=
    (if r.k = 0 then [] else [r.stat + (r.m - 1) * 128 * aSize r.afmt + r.k * aSize r.afmt])
    ++ (if r.k = 0 ∨ r.n = 0 ∨ r.wsrc = 1 then [] else
          [r.waddr + r.n * wRecord r.wfmt] ++ (if r.bsz = 0 then [] else [r.saddr + r.n * wScales r.bsz]))
    ++ (if r.n = 0 ∨ r.acc ≠ 1 then [] else [r.baddr + 4 * r.n])
    ++ (if r.n = 0 ∨ r.ofmt = 0 then [] else [r.oaddr + (r.n - 1) * r.ostride + r.m * oSize r.ofmt])
  if r.w0 % 256 ≠ 0 ∨ bits r.w1 47 42 ≠ 0 ∨ bits r.w2 43 42 ≠ 0 ∨ r.w3 % 1024 ≠ 0 then 0x01
  else if 0x12 ≤ r.wfmt ∨ 5 ≤ r.afmt ∨ 5 ≤ r.ofmt then 0x02
  else if r.wfmt = 0x11 ∧ r.bsz ≠ 1 then 0x03
  else if r.acc = 3 then 0x04
  else if r.m = 0 ∨ 128 < r.m then 0x05
  else if 128 < r.k then 0x06
  else if r.waddr % 16 ≠ 0 ∨ r.saddr % 16 ≠ 0 then 0x07
  else if ends.any (fun e => decide (2 ^ 22 < e)) then 0x08
  else if r.wsrc = 1 ∧ (2 ^ 42 ≤ r.waddr ∨ 2 ^ 42 ≤ r.saddr) then 0x09
  else 0

/-- First failing check of an MDRAIN (R99, R100): its M, OFMT, ASLOT and OSTRIDE lie where an MMA has them, CNT − 1 where it
has K, and OADDR where it has STAT. -/
def mdrainCheck (r : MxRun) : Nat :=
  let cnt := r.k + 1
  if bits r.w0 55 44 ≠ 0 ∨ bits r.w0 39 32 ≠ 0 ∨ r.w0 % 256 ≠ 0 ∨ bits r.w1 47 0 ≠ 0 ∨ r.w2 ≠ 0 ∨ bits r.w3 45 0 ≠ 0 then 0x01
  else if r.ofmt = 0 ∨ 5 ≤ r.ofmt then 0x02
  else if r.m = 0 ∨ 128 < r.m then 0x05
  else if 2 ^ 22 < r.stat + (cnt - 1) * r.ostride + r.m * oSize r.ofmt then 0x08
  else 0

/-- First failing check of an MSYNC: it carries TOKEN only (R101; log entry 16). -/
def msyncCheck (r : MxRun) : Nat :=
  if bits r.w0 55 16 ≠ 0 ∨ r.w1 ≠ 0 ∨ r.w2 ≠ 0 ∨ r.w3 ≠ 0 then 0x01 else 0

/-! ### Stationary tile (R87–R89) -/

/-- Bias, significand bits and format of a floating stationary format. -/
def aFmt (af : Nat) : Fmt := match af with | 2 => .e4m3 | 3 => .e5m2 | _ => .bf16

/-- An element's biased exponent and significand, and whether it is an infinity or NaN; an invalid element is taken as 0. -/
def aElem (f : Fmt) (x : Nat) : Nat × Nat × Bool :=
  let e := bits x (f.eb + f.fb - 1) f.fb
  let fr := x % 2 ^ f.fb
  let bad := if f.ieee then e == 2 ^ f.eb - 1 else x % 2 ^ (f.eb + f.fb) == f.top
  if bad then (1, 0, true) else if e = 0 then (1, fr, false) else (e, 2 ^ f.fb + fr, false)

/-- Load one row: cell values, E_m and the invalid mark (R88, R89). -/
def loadRow (af : Nat) (xs : List Nat) : List Int × Int × Bool :=
  if af ≤ 1 then (xs.map (fun x => sext (8 * aSize af) x), 0, false)
  else
    let f := aFmt af
    let p : Int := f.fb + 1
    let es := xs.map (fun x => (aElem f x, tbit x (f.eb + f.fb)))
    let emax := es.foldl (fun a e => max a e.1.1) 1
    let q := es.map (fun e =>
      let sh : Int := 15 - p - ((emax : Int) - e.1.1)
      let mag : Int := shiftRne e.1.2.1 sh
      if e.2 then -mag else mag)
    (q, (emax : Int) - f.bias - 14, es.any (fun e => e.1.2.2))

/-- Elements of a row of `k` active elements. -/
def rowElems (sz k : Nat) (b : List Byte) : List Nat := (List.range k).map (fun i => leNat ((b.drop (sz * i)).take sz))

/-! ### Weight columns (R83–R86) -/

/-- E2M1 magnitude codes as twice their value (R85). -/
def e2m1 (x : Nat) : Int :=
  let mag : Nat := match x % 8 with | 0 => 0 | 1 => 1 | 2 => 2 | 3 => 3 | 4 => 4 | 5 => 6 | 6 => 8 | _ => 12
  if tbit x 3 then -(Int.ofNat mag) else Int.ofNat mag

/-- The value of a weight element. -/
def wValue (wf x : Nat) : Int :=
  if wf = 0x10 then (if x % 2 = 1 then 1 else -1)
  else if wf = 0x11 then e2m1 x
  else sext (wf + 1) x

/-- The 128 elements of a record (R84). -/
def wElems (wf : Nat) (rec : List Byte) : List Int :=
  let v := leNat rec
  let w := if wf = 0x11 then 4 else wWidth wf
  (List.range 128).map (fun k => wValue wf (v / 2 ^ (w * k) % 2 ^ w))

/-- Segment exponents (R86). -/
def wExps (wf bsz : Nat) (sc : List Byte) : List (Option Int) :=
  if bsz = 0 then [some 0]
  else sc.map (fun b => if b = 0xFF then none else some ((b.toNat : Int) - (if wf = 0x11 then 128 else 127)))

/-- Column products of R82: by segment, Σ q × w over its active k. Plane by plane with the sign plane subtracted, or for
BIN as 2 × P0 − rs, the sum is this one. -/
def colProducts (bsz : Nat) (q w : List Int) : List Int :=
  let b := 128 / wSegs bsz
  (List.range (wSegs bsz)).map (fun j => (List.zipWith (· * ·) ((q.drop (b * j)).take b) ((w.drop (b * j)).take b)).foldl (· + ·) 0)

/-! ### Slots (R90–R93) -/

def slotLo : Int := - (2 ^ 47 : Int)
def slotHi : Int := 2 ^ 47 - 1

/-- Clamp V (R91). -/
def slotClamp (s : Slot) : Slot :=
  if slotHi < s.v then { s with v := slotHi, sat := true }
  else if s.v < slotLo then { s with v := slotLo, sat := true }
  else s

/-- Initialize a slot: zero, or from an FP32 bias (R92). DESIGN CHOICE (log entry 151): a NaN bias leaves V 0, and a bias that
is clamped or infinite sets SAT and not INX. -/
def slotInit (acc : Nat) (f : Int) (bias : Nat) : Slot :=
  if acc = 1 then
    match fdec .fp32 bias with
    | .nan => ⟨0, f, false, false, true⟩
    | .inf neg => ⟨if neg then slotLo else slotHi, f, true, false, false⟩
    | .fin neg m e =>
      let k := e - f
      let v := ishiftRne (sgn neg m) k
      slotClamp ⟨v, f, false, decide (k < 0) && v * (pow2 (-k) : Int) != sgn neg m, false⟩
  else ⟨0, f, false, false, false⟩

/-- One segment's contribution to a slot (R91). -/
def slotSeg (em : Int) (bad : Bool) (s : Slot) (cp : Int) (ew : Option Int) : Slot :=
  match ew with
  | none => { s with nan := true }
  | some ew =>
    let d := em + ew - s.f
    let t := ishiftRne cp d
    let s := { s with inx := s.inx || (decide (d < 0) && t * (pow2 (-d) : Int) != cp), v := s.v + t }
    let s := slotClamp s
    { s with nan := s.nan || bad }

/-- The update of a slot by one column (R91). -/
def slotUpdate (r : MxRun) (q : List Int) (em : Int) (bad : Bool) (col : MxCol) (old : Slot) : Slot :=
  let s := if r.acc = 2 then old else slotInit r.acc (em + r.fofs) col.bias
  (List.zip (colProducts r.bsz q col.w) col.ew).foldl (fun s p => slotSeg em bad s p.1 p.2) s

/-- The 64-bit layout of a slot (R90). -/
def Slot.word (s : Slot) : Nat :=
  b2n s.nan * 2 ^ 60 + b2n s.inx * 2 ^ 59 + b2n s.sat * 2 ^ 58 + wrap 10 s.f * 2 ^ 48 + wrap 48 s.v

/-- The output bytes of a slot (R93). DESIGN CHOICE (log entry 171): a negative value that is not 0 and rounds to zero is −0. -/
def slotOut (f : Nat) (s : Slot) : List Byte :=
  match f with
  | 1 =>
    let x := ishiftRne s.v s.f
    leBytes 4 (if s.nan then 0x80000000
      else wrap 32 (if x < -(2 ^ 31 : Int) then -(2 ^ 31 : Int) else if (2 ^ 31 - 1 : Int) < x then 2 ^ 31 - 1 else x))
  | 2 => leBytes 4 (if s.nan then 0x7FC00000 else fenc .fp32 (.ofInt s.v s.f))
  | 3 => leBytes 2 (if s.nan then 0x7FC0 else fenc .bf16 (.ofInt s.v s.f))
  | 4 => leBytes 8 s.word
  | _ => []

/-! ### The array's state -/

def mxOf (s : State) (c : Nat) : Mx := (clu s c).mx
def setMx (s : State) (c : Nat) (x : Mx) : State := modClu s c (fun k => { k with mx := x })
def mxSlot (x : Mx) (m n : Nat) : Slot := tget Slot.zero x.slots (256 * m + n % 256)
def setSlot (x : Mx) (m n : Nat) (v : Slot) : Mx := { x with slots := tput (256 * m + n % 256) v x.slots }

/-- Replace run `i` of the pipe. -/
def setRun (s : State) (c i : Nat) (r : MxRun) : State :=
  let x := mxOf s c
  setMx s c { x with pipe := lset x.pipe i r }

def mxHalted (s : State) (c : Nat) : Bool := fbit s .MX_STAT (tk c) Fld.MX_STAT_HALTED

/-- The matrix queue can take its head: not halted, no MSYNC outstanding, and no instruction still loading (R94). -/
def mxReady (s : State) (c : Nat) : Bool :=
  let x := mxOf s c
  !(mxHalted s c) && !(coreOff s c) && !(drained s c) && x.sync.isNone && x.pipe.all (fun r => r.live)

/-- Take the head off; a QPUSH that waits for room proceeds (R112). -/
def mxPop (s : State) (c : Nat) : State :=
  let x := mxOf s c
  unstall (setMx s c { x with queue := x.queue.drop 1 }) c

/-- Halt the matrix queue with an asynchronous cause; a QPUSH waiting for room on it is discarded (R99, R112). -/
def mxHalt (s : State) (c code status tval : Nat) : State :=
  asyncCause (haltStalled (fset s .MX_STAT (tk c) Fld.MX_STAT_HALTED 1) c 0) c code status tval

/-- Reject the head (R99). -/
def mxReject (s : State) (c code : Nat) : State :=
  mxHalt (fset s .MX_STAT (tk c) Fld.MX_STAT_LAST_REJ code) c 0x04 0 code

/-- The trap of a failing operand at byte address `a` (R99, R104). -/
def mxOperand (s : State) (c st a : Nat) : State :=
  if st = 0x0301 then mxHalt s c 0x03 0 a else mxHalt s c 0x08 st 0

/-- Stop run `i` at a column: later instructions of the pipe are dropped (the queue is halted), its own earlier columns go
on (R104). An MSYNC behind it never completes, for that instruction never does (R101). -/
def mxStop (s : State) (c i col st a : Nat) : State :=
  let x := mxOf s c
  let s := match x.pipe[i]? with
    | none => s
    | some r => setMx s c { x with
        pipe := x.pipe.take i ++ [{ r with stop := some col, undef := r.undef || st != 0x0301 }]
        sync := none }
  mxOperand s c st a

/-- The columns a run will update: N, or fewer when it stopped. -/
def MxRun.limit (r : MxRun) : Nat := match r.stop with | some c => min c r.n | none => r.n

/-- The continuation entries of a failing matrix operand: the trap that follows, at the core's next instruction (R115, R116;
log entry 140). -/
def mxMore (s : State) (c : Nat) : List (Nat × Nat) := trapMore s c 0x08 0

/-- Operand read of the matrix array: scratchpad at an offset, or stack DRAM through the read-only cache (R98, R104). -/
def mxRead (s : State) (c : Nat) (roc : Bool) (a n : Nat) : RangeRead :=
  if n = 0 then ⟨0, 0, [], s⟩
  else if roc then
    let r := rocRead s c a n
    if isWordFault r.st then { r with s := wordFault r.s r.st 2 (16 * r.word) (jobOfC s c) (mxMore s c) (some c) } else r
  else accRead (portWaits c 0 a n s) { coreAgent s c with reader := 2 } (spAddr ((logOf s c).getD 0) a) n (mxMore s c)

/-- The trap address of a failing read: the first failing word, not below the record's start. -/
def failAddr (r : RangeRead) (a : Nat) : Nat := max a (16 * r.word)

/-- Read the records of one column for run `i` (R84, R103); a failing read stops the run there. -/
def readCol (c i : Nat) (s : State) : State :=
  match (mxOf s c).pipe[i]? with
  | none => s
  | some r =>
    if r.stop.isSome || decide (r.n ≤ r.rd) then s
    else
      let n := r.rd
      let roc := r.wsrc == 1
      let wa := r.waddr + n * wRecord r.wfmt
      let sa := r.saddr + n * wScales r.bsz
      let ba := r.baddr + 4 * n
      let x := if r.k = 0 then ⟨0, 0, [], s⟩ else mxRead s c roc wa (wRecord r.wfmt)
      if x.st != 0 then mxStop x.s c i n x.st (failAddr x wa)
      else
        let y := if r.k = 0 then ⟨0, 0, [], x.s⟩ else mxRead x.s c roc sa (wScales r.bsz)
        if y.st != 0 then mxStop y.s c i n y.st (failAddr y sa)
        else
          let z := if r.acc = 1 then mxRead y.s c false ba 4 else ⟨0, 0, [], y.s⟩
          if z.st != 0 then mxStop z.s c i n z.st (failAddr z ba)
          else
            let col : MxCol := ⟨wElems r.wfmt x.bytes, if r.k = 0 then [] else wExps r.wfmt r.bsz y.bytes, leNat z.bytes⟩
            setRun z.s c i { r with rd := n + 1, cols := tput n col r.cols }

/-! ### MMA (R94–R98, R102) -/

/-- Read the tile, row by row (R87): the first failing status and address, the rows, and the state. -/
def readTile (c : Nat) (r : MxRun) (s : State) : Nat × Nat × List (List Int × Int × Bool) × State :=
  (List.range r.m).foldl (fun (acc : Nat × Nat × List (List Int × Int × Bool) × State) m =>
    if acc.1 != 0 then acc
    else
      let sz := aSize r.afmt
      let a := r.stat + m * 128 * sz
      let x := mxRead acc.2.2.2 c false a (r.k * sz)
      if x.st != 0 then (x.st, failAddr x a, acc.2.2.1, x.s)
      else (0, 0, acc.2.2.1 ++ [loadRow r.afmt (rowElems sz r.k x.bytes)], x.s)) (0, 0, [], s)

/-- Count lost cycles of the front: a load from idle costs 128, a short instruction before costs 128 − N × W (R94; log entry
17). DESIGN CHOICE (log entry 17): behind an instruction with K = 0, which has no stream, none are counted. -/
def countFront (c : Nat) (s : State) : State :=
  match (mxOf s c).pipe.getLast? with
  | none => finc s .MX_CNT_STALL (tk c) Fld.MX_CNT_STALL_FRONT 128
  | some p => if p.k = 0 then s else finc s .MX_CNT_STALL (tk c) Fld.MX_CNT_STALL_FRONT (128 - p.n * wWidth p.wfmt)

/-- An MMA reaches the head: it is checked and its tile loads (R94, R99). -/
def mma (c : Nat) (s : State) : State :=
  match (mxOf s c).queue with
  | [] => s
  | e :: _ =>
    if !(mxReady s c) || mOpc (lget 0 e 0) != 0x40 then s
    else
      let s := fset s .MX_STAT (tk c) Fld.MX_STAT_BALLAST 0
      let r := mxRunOf e
      let k := mmaCheck r
      if k != 0 then mxReject s c k
      else if r.k = 0 then
        let s := mxPop s c
        let x := mxOf s c
        setMx s c { x with pipe := x.pipe ++ [{ r with next := List.replicate r.m 0, em := List.replicate r.m 0,
                                                       bad := List.replicate r.m false, tile := List.replicate r.m [] }] }
      else
        let t := readTile c r s
        if t.1 != 0 then mxOperand t.2.2.2 c t.1 t.2.1
        else
          let s := mxPop (countFront c t.2.2.2) c
          let x := mxOf s c
          setMx s c { x with pipe := x.pipe ++ [{ r with tile := t.2.2.1.map (fun y => y.1), em := t.2.2.1.map (fun y => y.2.1),
                                                         bad := t.2.2.1.map (fun y => y.2.2),
                                                         next := List.replicate r.m 0 }] }

/-- Whether a run has slot updates left. -/
def MxRun.updating (r : MxRun) : Bool := r.next.any (fun n => decide (n < r.limit))

/-- Update the slot of row `m` for its next column, capturing the value for the output record (R91, R93, R96). -/
def rowUpdate (c i m : Nat) (s : State) : State :=
  match (mxOf s c).pipe[i]? with
  | none => s
  | some r =>
    let n := lget 0 r.next m
    match tfind r.cols n with
    | none => s
    | some col =>
      let x := mxOf s c
      let old := mxSlot x m (r.aslot + n)
      let v := if r.k = 0 then (if r.acc = 2 then old else slotInit r.acc r.fofs col.bias)
        else slotUpdate r (lget [] r.tile m) (lget 0 r.em m) (lget false r.bad m) col old
      let x := setSlot x m (r.aslot + n) v
      let next := lset r.next m (n + 1)
      let r' := { r with next := next, outs := if r.ofmt = 0 then r.outs else tput (128 * n + m) v r.outs,
                         cols := if next.all (fun y => decide (n < y)) then tdel n r.cols else r.cols }
      let s := setMx s c { x with pipe := lset x.pipe i r' }
      if m = 0 then
        let s := if r.k = 0 then s else fincWrap s .MX_CNT_STREAM (tk c) Fld.MX_CNT_STREAM_CYCLES (wWidth r.wfmt)
        readCol c i s
      else s

/-- K = 0: every column gives its slots their initial value (R102). -/
def allInit (c i : Nat) (s : State) : State :=
  match (mxOf s c).pipe[i]? with
  | none => s
  | some r => foldUp r.n (fun s _ => foldUp r.m (fun s m => rowUpdate c i m s) s) (readCol c i s)

/-- The stream of the next loaded instruction starts: its tile is swapped into the active registers and the first columns'
records are read (R94, R103). With K = 0 the slots take their initial values after every earlier update (R102). -/
def streamStart (c : Nat) (s : State) : State :=
  let x := mxOf s c
  match x.pipe.findIdx? (fun r => !r.live) with
  | none => s
  | some i =>
    if drained s c || coreOff s c then s
    else match x.pipe[i]? with
    | none => s
    | some r =>
      if r.k = 0 then
        if (x.pipe.take i).any (fun y => y.updating) then s else allInit c i (setRun s c i { r with live := true })
      else
        let s := setMx s c { x with active := r.tile, pipe := lset x.pipe i { r with live := true } }
        foldUp (min 32 r.n) (fun s _ => readCol c i s) s

/-- One slot update of row `m`: the next column of the earliest instruction that has one for the row (R91, R96). -/
def slotStep (c m : Nat) (s : State) : State :=
  match (mxOf s c).pipe.findIdx? (fun r => r.live && decide (m < r.m) && decide (lget 0 r.next m < r.limit)) with
  | none => s
  | some i => if drained s c then s else rowUpdate c i m s

/-- Count the flags of slots written out (MX_CNT_FLAG). -/
def countFlags (c : Nat) (vs : List Slot) (s : State) : State :=
  let s := finc s .MX_CNT_FLAG (tk c) Fld.MX_CNT_FLAG_SAT (vs.filter (fun v => v.sat)).length
  finc s .MX_CNT_FLAG (tk c) Fld.MX_CNT_FLAG_INX (vs.filter (fun v => v.inx)).length

/-- Write one output record into the scratchpad (R93, R104): the status and the state. -/
def writeRecord (c f a : Nat) (vs : List Slot) (s : State) : Nat × State :=
  let d := vs.flatMap (slotOut f)
  let r := accWrite (portWaits c 1 a d.length s) { coreAgent s c with reader := 2 } (spAddr ((logOf s c).getD 0) a) d (mxMore s c)
  if r.1 != 0 then r else (0, countFlags c vs r.2)

/-- The next output record of the earliest instruction with one (R93, R96). -/
def outRecord (c : Nat) (s : State) : State :=
  let x := mxOf s c
  match x.pipe.findIdx? (fun r => r.live && r.ofmt != 0 && decide (r.outCol < r.limit)) with
  | none => s
  | some i => match x.pipe[i]? with
    | none => s
    | some r =>
      let n := r.outCol
      if drained s c || !(r.next.all (fun y => decide (n < y))) then s
      else
        let vs := (List.range r.m).map (fun m => tget Slot.zero r.outs (128 * n + m))
        let w := writeRecord c r.ofmt (r.oaddr + n * r.ostride) vs s
        if w.1 != 0 then mxStop w.2 c i n w.1 (spAddr 0 (r.oaddr + n * r.ostride))
        else setRun w.2 c i { r with outCol := n + 1, outs := r.outs.filter (fun e => e.1 / 128 != n) }

/-- The slots an instruction stopped by a failing read had reached are undefined (R104): free values. -/
def undefSlots (c : Nat) (r : MxRun) (s : State) : State :=
  if !r.undef then s
  else foldUp r.m (fun s m => foldUp (min 256 (lget 0 r.next m)) (fun s n =>
    let a := free s
    let b := free a.2
    let fl := free b.2
    let v : Slot := ⟨sext 48 a.1, sext 10 b.1, tbit fl.1 0, tbit fl.1 1, tbit fl.1 2⟩
    setMx fl.2 c (setSlot (mxOf fl.2 c) m (r.aslot + n) v)) s) s

/-- The earliest instruction is complete once its updates and records are done (R96); its supply stalls are counted, a
number the timing decides (R97; log entry 17). -/
def mmaComplete (c : Nat) (s : State) : State :=
  match (mxOf s c).pipe with
  | [] => s
  | r :: rest =>
    if !r.live || r.updating || (r.ofmt != 0 && decide (r.outCol < r.limit)) then s
    else
      let x := mxOf s c
      let s := undefSlots c r (setMx s c { x with pipe := rest })
      let f := free s
      finc f.2 .MX_CNT_STALL (tk c) Fld.MX_CNT_STALL_SUPPLY (f.1 % 2 ^ 32)

/-- MDRAIN (R100): once every earlier slot update is done, the slots are written out in order. One stopped by a failing merge
leaves the slots it reached undefined (R104). -/
def mdrain (c : Nat) (s : State) : State :=
  match (mxOf s c).queue with
  | [] => s
  | e :: _ =>
    let r := mxRunOf e
    if !(mxReady s c) || mOpc r.w0 != 0x41 then s
    else
      let s := fset s .MX_STAT (tk c) Fld.MX_STAT_BALLAST 0
      let k := mdrainCheck r
      if k != 0 then mxReject s c k
      else if (mxOf s c).pipe.any (fun y => y.updating) then s
      else
        let w := foldUp (r.k + 1) (fun (acc : Nat × Nat × State) i =>
          if acc.1 != 0 then acc
          else
            let vs := (List.range r.m).map (fun m => mxSlot (mxOf acc.2.2 c) m (r.aslot + i))
            let w := writeRecord c r.ofmt (r.stat + i * r.ostride) vs acc.2.2
            if w.1 != 0 then (w.1, i, w.2)
            else (0, 0, if tbit r.w0 40 then foldUp r.m (fun s m => setMx s c (setSlot (mxOf s c) m (r.aslot + i) Slot.zero)) w.2
                        else w.2)) (0, 0, s)
        if w.1 != 0 then
          mxOperand (undefSlots c { r with undef := true, next := List.replicate r.m (w.2.1 + 1) } w.2.2) c w.1
            (spAddr 0 (r.stat + w.2.1 * r.ostride))
        else mxPop w.2.2 c

/-- MSYNC reaches the head: its token waits for the earlier instructions (R101). -/
def msync (c : Nat) (s : State) : State :=
  match (mxOf s c).queue with
  | [] => s
  | e :: _ =>
    let r := mxRunOf e
    if !(mxReady s c) || mOpc r.w0 != 0x42 then s
    else
      let s := fset s .MX_STAT (tk c) Fld.MX_STAT_BALLAST 0
      let k := msyncCheck r
      if k != 0 then mxReject s c k
      else
        let s := mxPop s c
        setMx s c { mxOf s c with sync := some (r.w0 % 65536) }

/-- Every earlier instruction is complete: MSYNC posts its token (R101, R113). -/
def msyncComplete (c : Nat) (s : State) : State :=
  let x := mxOf s c
  match x.sync with
  | none => s
  | some tok => if x.pipe.isEmpty && !(drained s c) then postToken (setMx s c { x with sync := none }) c 0 tok else s

/-- Whether a cluster may carry matrix ballast: logical, its matrix queue empty, its tower neither throttled nor critical
(R373, R416). -/
def ballastSite (s : State) (c : Nat) : Bool :=
  (logOf s c).isSome && !(coreOff s c) && (tget Clu.init s.clu c).mx.queue.isEmpty
    && !(fbit s .THM_TWR [c / 64] Fld.THM_TWR_THROTTLED) && !(fbit s .THM_TWR [c / 64] Fld.THM_TWR_CRIT)

/-- Sites of a tower, in ascending physical order. -/
def towerSites (s : State) (t : Nat) : List Nat := ((List.range 64).map (fun k => 64 * t + k)).filter (ballastSite s)

/-- The duty steps matrix ballast can take in each tower. -/
def towerCaps (s : State) : List Nat := (List.range 16).map (fun t => 64 * (towerSites s t).length)

/-- Duty steps matrix ballast can take. -/
def matrixRoom (s : State) : Nat := (towerCaps s).sum

/-- The even level at which `d` steps fill towers of these capacities (R373). -/
def ballastLevel (caps : List Nat) (d : Nat) : Nat :=
  foldUp 16 (fun l _ => l + (d - (caps.map (min l)).sum) / (caps.filter (fun x => decide (l < x))).length) 0

/-- Steps of tower `t`: the level, and one of the rest for the first towers with room. -/
def ballastShare (caps : List Nat) (d t : Nat) : Nat :=
  let l := ballastLevel caps d
  let cap := lget 0 caps t
  min l cap + b2n (decide (l < cap) &&
    decide (((caps.take t).filter (fun x => decide (l < x))).length < d - (caps.map (min l)).sum))

/-- The governor requests matrix ballast of a cluster: its steps are spread evenly across towers, and fill a tower's clusters
in ascending physical order (R106, R373). -/
def ballastAsked (s : State) (c : Nat) : Bool :=
  ballastSite s c && decide (64 * ((towerSites s (c / 64)).takeWhile (fun x => x != c)).length
    < ballastShare (towerCaps s) s.pwr.bal (c / 64))

/-- Whether the array runs ballast: started, still requested, and idle (R106). -/
def ballastOn (s : State) (c : Nat) : Bool :=
  fbit s .MX_STAT (tk c) Fld.MX_STAT_BALLAST && (mxOf s c).queue.isEmpty && (mxOf s c).pipe.isEmpty && ballastAsked s c

/-- Ballast starts when the queue is empty and the governor requests it (R106). -/
def ballastStart (c : Nat) (s : State) : State :=
  let x := mxOf s c
  if x.queue.isEmpty && x.pipe.isEmpty && ballastAsked s c then fset s .MX_STAT (tk c) Fld.MX_STAT_BALLAST 1 else s

/-- Ballast ends on the clusters it is no longer requested of (R106, R373). -/
def ballastEnd (s : State) : State :=
  foldUp 1024 (fun s c => if fbit s .MX_STAT (tk c) Fld.MX_STAT_BALLAST && !(ballastAsked s c) then
    fset s .MX_STAT (tk c) Fld.MX_STAT_BALLAST 0 else s) s

/-- A reserved opcode at the head is rejected with code 0x01 (R99). -/
def mxReserved (c : Nat) (s : State) : State :=
  match (mxOf s c).queue with
  | [] => s
  | e :: _ =>
    let o := mOpc (lget 0 e 0)
    if mxReady s c && !(o == 0x40 || o == 0x41 || o == 0x42) then
      mxReject (fset s .MX_STAT (tk c) Fld.MX_STAT_BALLAST 0) c 0x01
    else s

def execMma (c : Fin 1024) (s : State) : Res3 := s.run (mma c.val)
def execMmaStreamStart (c : Fin 1024) (s : State) : Res3 := s.run (streamStart c.val)
def execMmaSlotUpdate (c : Fin 1024) (m : Fin 128) (s : State) : Res3 := s.run (slotStep c.val m.val)
def execMmaOutputRecord (c : Fin 1024) (s : State) : Res3 := s.run (outRecord c.val)
def execMmaComplete (c : Fin 1024) (s : State) : Res3 := s.run (mmaComplete c.val)
def execMdrain (c : Fin 1024) (s : State) : Res3 := s.run (mdrain c.val)
def execMsync (c : Fin 1024) (s : State) : Res3 := s.run (msync c.val)
def execMsyncComplete (c : Fin 1024) (s : State) : Res3 := s.run (msyncComplete c.val)
def execMatrixBallastStart (c : Fin 1024) (s : State) : Res3 := s.run (ballastStart c.val)
def execMatrixReservedOp (c : Fin 1024) (s : State) : Res3 := s.run (mxReserved c.val)

end Sys2Proof.Machine
end

