-- ==== Sys2Proof/Machine/DmaOps.lean ====
section
/-! DEFINITION. Descriptors: their checks, their source reads and their destination writes (R135, R137, R138), for the DMA
engine and for the copy channels of R280. -/

namespace Sys2Proof.Machine

def dOp (w : List Nat) : Nat := bits (lget 0 w 0) 63 56
def dRed (w : List Nat) : Nat := bits (lget 0 w 0) 55 52
def dHint (w : List Nat) : Nat := bits (lget 0 w 0) 51 50
def dFence (w : List Nat) : Bool := tbit (lget 0 w 0) 49
def dTok (w : List Nat) : Bool := tbit (lget 0 w 0) 48
def dToken (w : List Nat) : Nat := bits (lget 0 w 0) 47 32
def dLen (w : List Nat) : Nat := bits (lget 0 w 0) 31 0
def dSrc (w : List Nat) : Nat := bits (lget 0 w 1) 47 0
def dDst (w : List Nat) : Nat := bits (lget 0 w 2) 47 0
def dRows (w : List Nat) : Nat := if dOp w = 0x02 then bits (lget 0 w 3) 63 48 + 1 else 1
def dSstride (w : List Nat) : Nat := if dOp w = 0x02 then bits (lget 0 w 3) 47 24 else 0
def dDstride (w : List Nat) : Nat := if dOp w = 0x02 then bits (lget 0 w 3) 23 0 else 0

/-- First byte of source row r and of destination row r. -/
def srcRow (w : List Nat) (r : Nat) : Nat := dSrc w + r * dSstride w
def dstRow (w : List Nat) (r : Nat) : Nat := dDst w + r * dDstride w

/-- The conditions of 0x0102 DESC_INVALID (R135, R138). -/
def descInvalid (w : List Nat) : Bool :=
  let op := dOp w
  !(op == 1 || op == 2 || op == 3) || decide (9 < dRed w) || dHint w == 3
    || dLen w == 0 || dLen w % 16 != 0 || dDst w % 16 != 0
    || (if op = 3 then bits (lget 0 w 1) 47 32 != 0 else dSrc w % 16 != 0)
    || (if op = 2 then dSstride w % 16 != 0 || dDstride w % 16 != 0 else lget 0 w 3 != 0)
    || bits (lget 0 w 2) 63 48 != 0
    || (dRed w != 0 && (List.range (dRows w)).any (fun r => decide (spBase < dstRow w r + dLen w)))

/-- Whether some row of a descriptor is unmapped (R39): it then applies no part of itself. -/
def descUnmapped (s : State) (w : List Nat) : Bool :=
  (List.range (dRows w)).any (fun r =>
    !(mapped s (dstRow w r) (dLen w)) || (dOp w != 3 && !(mapped s (srcRow w r) (dLen w))))

/-- Who carries a descriptor out: its agent, its source ID for reductions (R252), who waits for row r outside, and the
continuation entries of a fault that it reads (R116), and the cluster whose DMA engine it is. -/
structure DmaWho where
  agent : Agent
  src   : Nat
  wait  : Nat → Waiter
  more  : List (Nat × Nat)
  own   : Option Nat

/-- A descriptor that has just started. -/
def dmaRunOf (idx : Nat) (w : List Nat) : DmaRun :=
  { idx := idx, words := w, phase := 1, data := [], status := 0, good := 0, ans := [] }

/-- Data of a descriptor in a scratchpad goes through P6 of the engine's own, and arrives at P7 of another (R127). -/
def dataWaits (k : DmaWho) (a n : Nat) (s : State) : State :=
  match spaceOf a with
  | .scratch l off => (match physOf s l with
    | some c => portWaits c (if k.own = some c then 6 else 7) off n s
    | none => s)
  | _ => s

/-- Read the source rows inside the device: the first failing status, with the bytes before its word. -/
def readRows (k : DmaWho) (w : List Nat) (s : State) : Nat × Nat × List Byte × State :=
  (List.range (dRows w)).foldl (fun (acc : Nat × Nat × List Byte × State) r =>
    if acc.1 != 0 then acc
    else
      let a := srcRow w r
      let x := accRead (dataWaits k a (dLen w) acc.2.2.2) k.agent a (dLen w) k.more
      if x.st != 0 then (x.st, acc.2.1 + (16 * x.word - a), acc.2.2.1, x.s)
      else (0, acc.2.1 + dLen w, acc.2.2.1 ++ x.bytes, x.s)) (0, 0, [], s)

/-- Requests for source rows outside the device, and reads of the rows inside. -/
def askRows (k : DmaWho) (run : DmaRun) (s : State) : DmaRun × State :=
  let w := run.words
  (List.range (dRows w)).foldl (fun (acc : DmaRun × State) r =>
    if acc.1.status != 0 then acc
    else
      let a := srcRow w r
      if outside a then
        let q := startOutside acc.2 (k.wait r) a (dLen w) false []
        ({ acc.1 with status := q.1, good := r * dLen w }, q.2.2)
      else
        let x := accRead (dataWaits k a (dLen w) acc.2) k.agent a (dLen w) k.more
        ({ acc.1 with ans := tput r (x.st, if x.st = 0 then x.bytes else List.replicate (16 * x.word - a) 0) acc.1.ans }, x.s))
    ({ run with phase := 0 }, s)

/-- Start a descriptor: its checks, then its source reads (R137, R138). -/
def startDesc (k : DmaWho) (idx : Nat) (w : List Nat) (s : State) : DmaRun × State :=
  let run := dmaRunOf idx w
  if descInvalid w then ({ run with status := 0x0102 }, s)
  else if descUnmapped s w then ({ run with status := 0x0301 }, s)
  else if dOp w = 3 then
    ({ run with data := (List.range (dLen w / 4)).flatMap (fun _ => leBytes 4 (lget 0 w 1 % 2 ^ 32)), good := dLen w }, s)
  else if (List.range (dRows w)).any (fun r => outside (srcRow w r)) then askRows k run s
  else
    let x := readRows k w s
    ({ run with status := x.1, good := x.2.1, data := x.2.2.1 }, x.2.2.2)

/-- Whether every row has its answer. -/
def answered (run : DmaRun) : Bool := (List.range (dRows run.words)).all (fun r => (tfind run.ans r).isSome)

/-- The first failing status among the answers, by row. -/
def firstBad (run : DmaRun) : Nat :=
  (((List.range (dRows run.words)).map (fun r => (tget (0, []) run.ans r).1)).find? (fun x => x != 0)).getD 0

/-- Bytes of the answers before the first failing word (R138). -/
def goodBytes (run : DmaRun) : Nat :=
  let rows := (List.range (dRows run.words)).map (fun r => tget (0, []) run.ans r)
  let before := (rows.takeWhile (fun x => x.1 == 0)).length
  before * dLen run.words + (match rows[before]? with | some x => x.2.length | none => 0)

/-- Bytes whose content R135 leaves undefined because source and destination overlap. -/
def overlapUndef (w : List Nat) : List Nat :=
  let rs := List.range (dRows w)
  let n := dLen w
  if dOp w = 3 || !(rs.any (fun i => rs.any (fun j => overlaps (srcRow w i) n (dstRow w j) n))) then []
  else rs.flatMap (fun r => ((List.range n).filter (fun i =>
    rs.any (fun j => (decide (srcRow w j ≤ dstRow w r + i) && decide (dstRow w r + i < srcRow w j + n))
      || (decide (dstRow w j ≤ srcRow w r + i) && decide (srcRow w r + i < dstRow w j + n))))).map (fun i => dstRow w r + i))

/-- Give listed bytes free values (undefined bytes inside the device). -/
def undefBytes (as : List Nat) (s : State) : State :=
  as.foldl (fun s a => if outside a then s else let f := freeBytes s 1; cacheBytes f.2 a f.1) s

/-- Destination bytes of a descriptor before offset `good`, row after row. -/
def dstBytes (w : List Nat) (good : Nat) : List Nat :=
  (List.range (dRows w)).flatMap (fun r => (List.range (min (dLen w) (good - r * dLen w))).map (fun i => dstRow w r + i))

/-- With TC_CFG.CMODE, whole lines of a fill become compressed (R254). -/
def compressFill (w : List Nat) (s : State) : State :=
  if dOp w != 3 then s
  else (granules (dDst w) (dLen w)).foldl (fun s g =>
    if dDst w ≤ 1024 * g ∧ 1024 * g + 1024 ≤ dDst w + dLen w then
      match lineOf s g with
      | some (t, l) => if fbit s .TC_CFG [t] Fld.TC_CFG_CMODE then setLine s t { l with comp := true } else s
      | none => s
    else s) s

/-- The checks and line reads of a reducing descriptor over all its rows, before any part is applied (R250): the first failing
status. -/
def redRows (k : DmaWho) (w : List Nat) (s : State) : Nat × State :=
  (List.range (dRows w)).foldl (fun (acc : Nat × State) r =>
    if acc.1 != 0 then acc else redCheck acc.2 k.agent.ni (dstRow w r) (dLen w) k.agent.job) (0, s)

/-- The destination effect of a descriptor whose source is read: none while a reduction must wait for a way. A failing source
read leaves the destination bytes before the failing word undefined, and a failing destination all of them (R138), except that
a reduction that a bank's unit rejects, or whose line read fails, applies no part of itself (R244, R250); all its rows are checked
before the first is applied. -/
def writeDest (k : DmaWho) (run : DmaRun) (s : State) : Option (DmaRun × State) :=
  let w := run.words
  let n := dLen w
  if run.status != 0 then
    some ({ run with phase := 3 }, undefBytes (dstBytes w run.good) s)
  else if dRed w != 0 then
    let c := redRows k w s
    if c.1 != 0 then
      some ({ run with status := c.1, phase := 3 },
            if isWordFault c.1 || c.1 == 0x0802 then c.2 else undefBytes (dstBytes w (n * dRows w)) c.2)
    else
      ((List.range (dRows w)).foldl (fun (acc : Option State) r => acc.bind (fun s =>
        tcReduce s k.src (dstRow w r) (dRed w) (dHint w) ((run.data.drop (r * n)).take n))) (some c.2)).map (fun s =>
          ({ run with phase := 3 }, undefBytes (overlapUndef w) s))
  else
    -- the rows in remote windows are the burst of the first of them (R304)
    let far := (List.range (dRows w)).filter (fun r => isRemote (dstRow w r))
    let r := (List.range (dRows w)).foldl (fun (acc : DmaRun × State) r =>
      if acc.1.status != 0 then acc
      else
        let d := (run.data.drop (r * n)).take n
        if far.contains r then
          if far.head? != some r then ({ acc.1 with ans := tput r (0, []) acc.1.ans }, acc.2)
          else
            let q := startRows acc.2 (k.wait r) (far.map (fun i => (dstRow w i, n))) (far.flatMap (fun i => (run.data.drop (i * n)).take n))
            ({ acc.1 with status := q.1, phase := if q.1 != 0 then acc.1.phase else 2 }, q.2)
        else if outside (dstRow w r) then
          let q := startOutside acc.2 (k.wait r) (dstRow w r) n true d
          ({ acc.1 with status := q.1, phase := if q.1 != 0 || q.2.1 then acc.1.phase else 2,
                        ans := if q.2.1 then tput r (0, []) acc.1.ans else acc.1.ans }, q.2.2)
        else
          let q := accWrite (dataWaits k (dstRow w r) n acc.2) k.agent (dstRow w r) d k.more (dOp w == 3)
          ({ acc.1 with status := q.1, ans := tput r (0, []) acc.1.ans }, q.2)) ({ run with phase := 3, ans := [] }, s)
    if r.1.status != 0 then
      -- a part refused after others were issued leaves the destination undefined (R138)
      some ({ r.1 with phase := 3 }, undefBytes (dstBytes w (n * dRows w)) r.2)
    else some (r.1, undefBytes (overlapUndef w) (compressFill w r.2))

/-- Carry a started descriptor as far as it can go; nothing changes while it waits. An answer from outside that refuses a part leaves
every destination byte inside the device undefined (R138). -/
def advanceRun (k : DmaWho) (run : DmaRun) (s : State) : DmaRun × State :=
  if run.phase = 0 then
    if run.status != 0 then ({ run with phase := 3 }, undefBytes (dstBytes run.words run.good) s)
    else if answered run then
      let r : DmaRun := { run with phase := 1, status := firstBad run, good := goodBytes run, ans := [],
                                   data := (List.range (dRows run.words)).flatMap (fun r => (tget (0, []) run.ans r).2) }
      (writeDest k r s).getD (r, s)
    else (run, s)
  else if run.phase = 1 then (writeDest k run s).getD (run, s)
  else if run.phase = 2 then
    if answered run then
      let st := firstBad run
      ({ run with phase := 3, status := st },
       if st = 0 then s else undefBytes (dstBytes run.words (dLen run.words * dRows run.words)) s)
    else (run, s)
  else (run, s)

end Sys2Proof.Machine
end

