-- ==== Sys2Proof/Machine/Dma.lean ====
section
/-! DEFINITION. The DMA engine's channels (R134–R140) and the scratchpad's ports (R126–R129, R472). -/

namespace Sys2Proof.Machine

/-- Scratchpad offset of a ring entry; the ring wraps at 4 MiB. -/
def entryOff (s : State) (c ch idx : Nat) : Nat :=
  (32 * fget s .DMA_CH_CFG (tk c ++ [ch]) Fld.DMA_CH_CFG_BASE + 32 * (idx % 2 ^ ringLog s c ch)) % 2 ^ 22

/-- The trap value of a halted channel (R115). -/
def dmaTval (s : State) (c ch idx : Nat) : Nat := 65536 * ch + idx % 2 ^ ringLog s c ch

/-- The continuation entries of a failing read of a channel: the trap that follows, at the core's next instruction (R115, R116;
log entry 140). -/
def dmaMore (s : State) (c ch idx : Nat) : List (Nat × Nat) := trapMore s c 0x0A (BitVec.ofNat 64 (dmaTval s c ch idx))

/-- The agent of a channel's own ring and, with a hint, of its data. -/
def chanWho (s : State) (c ch idx hint : Nat) : DmaWho :=
  let l := (logOf s c).getD 0
  ⟨{ dmaAgent s c hint with reader := 4 }, srcId (ownId s) l ch, fun r => .dma c ch idx r, dmaMore s c ch idx, some c⟩

/-- Read a ring entry. -/
def readEntry (s : State) (c ch idx : Nat) : RangeRead :=
  accRead (portWaits c 6 (entryOff s c ch idx) 32 s) { dmaAgent s c 0 with reader := 4 } (spAddr ((logOf s c).getD 0) (entryOff s c ch idx)) 32
    (dmaMore s c ch idx)

/-- The four words of an entry. -/
def entryWords (b : List Byte) : List Nat := (List.range 4).map (fun i => leNat ((b.drop (8 * i)).take 8))

/-- The row that starts a descriptor of this operation; a reserved one is started, and refused, by DMA_COPY. -/
def opRow (op : Nat) : Nat := if op = 2 ∨ op = 3 then op else 1

/-- Let the head of a channel proceed: only it writes its destination (R137). -/
def advanceHead (c ch : Nat) (s : State) : State :=
  match (dmaCh s c ch).runs with
  | [] => s
  | r :: rest =>
    let q := advanceRun (chanWho s c ch r.idx (dHint r.words)) r s
    setDma q.2 c ch { dmaCh q.2 c ch with runs := q.1 :: rest }

/-- Start a channel's next descriptor when it is the one the row names (R136, R137). -/
def dmaStart (row c ch : Nat) (s : State) : State :=
  let d := dmaCh s c ch
  if dmaHalted s c ch || drained s c || coreOff s c || d.next == dmaTail s c ch
      || d.runs.any (fun r => r.status != 0) then s
  else
    let e := readEntry s c ch d.next
    let push := fun (r : DmaRun) (s : State) =>
      advanceHead c ch (setDma s c ch ⟨(dmaCh s c ch).runs ++ [r], (d.next + 1) % 65536⟩)
    if e.st != 0 then
      if d.runs.isEmpty then push { dmaRunOf d.next [] with status := e.st, phase := 3 } e.s else s
    else
      let w := entryWords e.bytes
      if opRow (dOp w) != row || (dFence w && !d.runs.isEmpty) then s
      else
        let q := startDesc (chanWho e.s c ch d.next (dHint w)) d.next w e.s
        push q.1 q.2

/-- A failing descriptor halts its channel (R139). -/
def dmaHalt (s : State) (c ch idx st : Nat) : State :=
  let x := tk c ++ [ch]
  let s := fset s .DMA_CH_STAT x Fld.DMA_CH_STAT_STATUS st
  let s := fset s .DMA_CH_STAT x Fld.DMA_CH_STAT_FAIL_IDX idx
  let s := fset s .DMA_CH_STAT x Fld.DMA_CH_STAT_HALTED 1
  let s := setDma s c ch ⟨[], idx⟩
  asyncCause s c 0x0A st (dmaTval s c ch idx)

/-- Write STATUS into a ring entry by read, merge and write (R139). -/
def writeStatus (s : State) (c ch idx st : Nat) : Nat × State :=
  accWrite (portWaits c 6 (entryOff s c ch idx + 14) 2 s) { dmaAgent s c 0 with reader := 4 } (spAddr ((logOf s c).getD 0) (entryOff s c ch idx) + 14) (leBytes 2 st)
    (dmaMore s c ch idx)

/-- The head descriptor of a channel completes: STATUS, HEAD and its token, or the halt (R137–R139). DESIGN CHOICE (log entry
156): only a descriptor with status 0x0000 posts its token (R135). -/
def descStatus (c ch : Nat) (s : State) : State :=
  if drained s c then s
  else
    let s := advanceHead c ch s
    match (dmaCh s c ch).runs with
    | [] => s
    | r :: rest =>
      if r.phase != 3 then s
      else
        let q := writeStatus s c ch r.idx r.status
        if q.1 != 0 then dmaHalt q.2 c ch r.idx q.1
        else if r.status != 0 then dmaHalt q.2 c ch r.idx r.status
        else
          let s := setHead q.2 c ch ((r.idx + 1) % 65536)
          let s := setDma s c ch { dmaCh s c ch with runs := rest }
          if dTok r.words then postToken s c (16 + ch) (dToken r.words) else s

/-! ### Scratchpad ports -/

/-- The failed lanes that the bits of an error lie on (R58, R61, R349). -/
def errLanes (s : State) (e : WordErr) : List Nat :=
  match physOf s (storeL s (16 * e.word)) with
  | none => []
  | some c => ((List.range 544).filter (fun l => laneBits s c (16 * e.word) l &&& e.flip.toNat != 0)).map (fun l => 1024 * c + l)

/-- Lay errors over the words of an access, where they are stored; a failed lane is noted. -/
def layErrs (errs : List WordErr) (s : State) : State :=
  errs.foldl (fun s e => match e.kind with
    | .lane => if decide (spBase ≤ 16 * e.word) then s
      else { s with topo := { s.topo with deadLanes := (s.topo.deadLanes ++ errLanes s e).eraseDups } }
    | _ => hitWord s e.word e.flip) s

/-- Whether the place a word was stored at when errors were laid, a line or the bank, still holds it as laid. -/
def asLaid (laid s : State) (w : Nat) : Bool :=
  if inOver laid w then inOver s w && rawWord s w == rawWord laid w
  else mread s.mem (16 * w) 16 == mread laid.mem (16 * w) 16 && devOf s w == devOf laid w

/-- Undo the errors of one crossing where the word still holds them: it was not rewritten since. -/
def liftErrs (laid : State) (errs : List WordErr) (s : State) : State :=
  (errs.filter (fun e => e.kind == .crossing && asLaid laid s e.word)).foldl (fun s e =>
    if inOver laid e.word then hitWord s e.word e.flip else hitCell s e.word e.flip) s

/-- Carry an access of [a, a + n) out with the errors it meets (R59): errors in cells and of the words it reads are there before
it; errors on the way of a word it writes in full are stored with that word. -/
def withErrs {α : Type} (errs : List WordErr) (write : Bool) (a n : Nat) (go : State → α × State) (ok : α → Bool) (s : State) :
    α × State :=
  let mine := errs.filter (fun e => decide (n ≠ 0) && decide (a / 16 ≤ e.word) && decide (e.word ≤ (a + n - 1) / 16))
  let late := mine.filter (fun e => write && e.kind == .crossing && !((edgeWords a n).contains e.word))
  let early := mine.filter (fun e => !(late.contains e))
  let laid := layErrs early s
  let r := go laid
  let s := liftErrs laid early r.2
  (r.1, if ok r.1 then (late.filter (fun e => !(inOver s e.word))).foldl (fun s e => hitCell s e.word e.flip) s else s)

/-- Serve a request for an agent, with the errors it meets: its answer goes to the requester. -/
def serveReq (q : MemReq) (k : Agent) (errs : List WordErr) (s : State) : State :=
  let r := withErrs errs q.write q.addr q.len (fun s =>
    if q.write then
      let w := accWrite s k q.addr (q.data.take q.len ++ List.replicate (q.len - q.data.length) 0)
      ((w.1, ([] : List Byte)), w.2)
    else
      let x := accRead s k q.addr q.len
      ((x.st, if x.st = 0 then x.bytes else []), x.s)) (fun x => x.1 == 0) s
  emit r.2 (.data q.who r.1.1 0 r.1.2)

/-- A scratchpad access from a port (R126–R128): the requester gets the data or the status. -/
def spAccess (c port : Nat) (q : MemReq) (errs : List WordErr) (s : State) : State :=
  match logOf s c with
  | none => s
  | some l =>
    if q.len = 0 || decide (2 ^ 22 < q.addr + q.len) || s.topo.dark.contains c then emit s (.data q.who
      (if s.topo.dark.contains c then 0x0302 else 0x0301) 0 [])
    else
      let a := spAddr l q.addr
      let s := portWaits c port q.addr q.len s
      serveReq { q with addr := a } { coreAgent s c with reader := q.reader } errs s

def execDmaCopy (c : Fin 1024) (ch : Fin 16) (s : State) : Res3 := s.run (dmaStart 1 c.val ch.val)
def execDmaCopy2d (c : Fin 1024) (ch : Fin 16) (s : State) : Res3 := s.run (dmaStart 2 c.val ch.val)
def execDmaFill (c : Fin 1024) (ch : Fin 16) (s : State) : Res3 := s.run (dmaStart 3 c.val ch.val)
def execDescStatusWrite (c : Fin 1024) (ch : Fin 16) (s : State) : Res3 := s.run (descStatus c.val ch.val)
def execScratchpadAccess (c : Fin 1024) (port : Fin 8) (req : MemReq) (errs : List WordErr) (s : State) : Res3 :=
  s.run (spAccess c.val port.val req errs)

end Sys2Proof.Machine
end

