-- ==== Sys2Proof/Machine/Stack.lean ====
section
/-! DEFINITION. The shaft controllers (R25, R57–R63, R66–R75, R155, R165, R245): accesses, command CRCs, refresh and scrub. -/

namespace Sys2Proof.Machine

/-! ### Accesses -/

/-- Serve an access at its shaft controller, through the tower cache and the bank. -/
def stackServe (q : MemReq) (errs : List WordErr) (s : State) : State :=
  serveReq q ⟨q.who, q.reader, jobOfC s q.who, true, true, q.hint, false⟩ errs s

/-- An access to the bank of a running unit shortens the step in progress (R165). -/
def nbShorten (s : State) (b : Nat) : State := { s.snoop [.bank b 0 0 false] with nbBlock := s.nbBlock }

/-- Whether a bank is inside a step of its unit or a row refresh. -/
def bankBusy (s : State) (b : Nat) : Bool :=
  (refrOf s b).busy || (match (nbUnit s b).run with | some r => r.step.isSome | none => false)

/-- An access reaches a shaft controller: a read of a running unit's OUT is held until the operation ends, an access to a
busy bank is served at its step boundary (R155, R165). -/
def stackAccess (q : MemReq) (errs : List WordErr) (s : State) : State :=
  if decide (spBase < q.addr + q.len) || !(mapped s q.addr q.len) then emit s (.data q.who 0x0301 0 [])
  else if touchesOffline s q.addr q.len then emit s (.data q.who 0x0302 0 [])
  else if q.write && nbTouch s q.addr q.len true then emit s (.data q.who 0x0802 0 [])
  else match bankOf s q.addr with
    | none => s
    | some b =>
      if !q.write && nbTouch s q.addr q.len false then { s with nbHeld := s.nbHeld ++ [(b, q)] }
      else if bankBusy s b && (lineOf s (q.addr / 1024)).isNone then
        { nbShorten s b with nbHeld := s.nbHeld ++ [(b, q)] }
      else stackServe q errs s

/-- Serve the accesses queued at a bank that no range holds back any longer. -/
def serveHeld (b : Nat) (s : State) : State :=
  let go := fun (q : MemReq) (s : State) => q.write || !(nbTouch s q.addr q.len false)
  let out := s.nbHeld.filter (fun e => e.1 == b && go e.2 s)
  let s := { s with nbHeld := s.nbHeld.filter (fun e => !(e.1 == b && go e.2 s)) }
  out.foldl (fun s e => stackServe e.2 [] s) s

/-! ### Command lanes (R60) -/

/-- A shaft command fails its CRC; the third failure is a control-lane fault and closes the pillar. A closed pillar is sent no
command, so none fails (R350). -/
def cmdCrcFail (c lane : Nat) (s : State) : State :=
  let n := tget 0 s.ecc.cmdTries c + 1
  if s.topo.closed.contains c then s
  else if n < 3 then { s with ecc := { s.ecc with cmdTries := tput c n s.ecc.cmdTries } }
  else
    let s := { s with ecc := { s.ecc with cmdTries := tdel c s.ecc.cmdTries },
                      topo := { s.topo with closed := c :: s.topo.closed.filter (fun x => x != c) } }
    let s := discardPillar s c
    let j := jobOfC s c
    raiseFault s j [⟨.pillar c, .repair, false, 2, 1024 + 32 + lane⟩] (mkRep s 0x05 4 1 c 0 j 0)

/-! ### Refresh (R62, R63, R166) -/

/-- Start the due refresh of a bank that is at a step boundary. -/
def startRefresh (b : Nat) (s : State) : State :=
  let r := refrOf s b
  if r.due && !r.busy && !(match (nbUnit s b).run with | some x => x.step.isSome | none => false) then
    let s := setRefr s b { r with due := false, busy := true }
    let u := nbUnit s b
    match u.run with
    | some x => setUnit s b { u with run := some { x with susp := true } }
    | none => s
  else s

/-- A row refresh falls due (R62). -/
def refreshDue (b : Nat) (s : State) : State := startRefresh b (setRefr s b { refrOf s b with due := true })

/-- A row refresh completes: the queued accesses are served and the unit resumes (R63). -/
def refreshDone (b : Nat) (s : State) : State :=
  let r := refrOf s b
  if !r.busy then s
  else
    let s := setRefr s b { r with busy := false, row := (r.row + 1) % 8192 }
    let s := flushOwed (unblock (serveHeld b s) b false)
    let u := nbUnit s b
    match u.run with
    | some x => setUnit s b { u with run := some { x with susp := false } }
    | none => s

/-- The activity of a unit over the last 1 ms, in µs, is evaluated (R62). -/
def activityEval (b us : Nat) (s : State) : State := setRefr s b { refrOf s b with active := decide (500 < us) }

/-! ### Scrub (R70, R75) -/

/-- Scrub one word of a row just read: corrections are written back, an uncorrectable word becomes poison (R70, R71). -/
def scrubWord (c : Nat) (s : State) (w : Nat) : State :=
  let o := shaftWord s w
  match o.1 with
  | .clean => s
  | .corrected j x => stain (putWord (countCe s 2 (16 * w) j x true) w o.2) w
  | x => logEv (putPoison (countUe s x.status) w) 0x01 2 1 c x.status 0 (11 * 2 ^ 44 + w % 2 ^ 44)

/-- Scrub row `r` of bank `b`. The scrubber passes the tower cache by (R241). -/
def scrubRow (b r : Nat) (errs : List WordErr) (s : State) : State :=
  match logOf s (b / 512) with
  | none => s
  | some l =>
    let a := issuedOf s l (b / 32 % 16 * 2 ^ 28 + b % 32 * 2 ^ 23 + r * 1024)
    let mine := errs.filter (fun e => e.word / 64 == a / 1024)
    belowCaches (fun s =>
      let laid := layErrs mine s
      liftErrs laid mine ((readWords laid a 1024 true).foldl (scrubWord (b / 512)) laid)) (cmdPassed s a)

/-- Online pillars: logical clusters whose pillar serves accesses. -/
def onlinePillars (s : State) : List Nat :=
  (List.range (grade s)).filterMap (fun l => if offline s l then none else physOf s l)

/-- A pass ends when every online pillar is done (MEM_SCRUB_CTL.PASSES). -/
def scrubPass (s : State) : State :=
  if (onlinePillars s).all (fun c => s.ecc.scrubbed.contains c && !(s.ecc.skipped.any (fun k => k / 8192 / 512 == c))) then
    fincWrap { s with ecc := { s.ecc with scrubbed := [] } } .MEM_SCRUB_CTL [] Fld.MEM_SCRUB_CTL_PASSES 1
  else s

/-- Whether the unit of a bank runs. -/
def unitRuns (s : State) (b : Nat) : Bool := (nbUnit s b).run.isSome

/-- The scrubber of a pillar reads its next row (R75): first a row it skipped whose unit no longer runs. DESIGN CHOICE
(log entry 170): it goes die by die, bank by bank and row by row. -/
def scrubRead (c : Nat) (errs : List WordErr) (s : State) : State :=
  if !(fbit s .MEM_SCRUB_CTL [] Fld.MEM_SCRUB_CTL_EN) || !((onlinePillars s).contains c) then s
  else match s.ecc.skipped.find? (fun k => k / 8192 / 512 == c && !(unitRuns s (k / 8192)) && !((refrOf s (k / 8192)).busy)) with
    | some k =>
      scrubPass (scrubRow (k / 8192) (k % 8192) errs { s with ecc := { s.ecc with skipped := s.ecc.skipped.erase k } })
    | none =>
      let i := tget 0 s.ecc.scrub c
      let b := 512 * c + i / 8192
      if s.ecc.scrubbed.contains c || (refrOf s b).busy || (refrOf s b).due then s
      else
        let s := if unitRuns s b then { s with ecc := { s.ecc with skipped := s.ecc.skipped ++ [8192 * b + i % 8192] } }
          else scrubRow b (i % 8192) errs s
        let last := decide (i + 1 = 512 * 8192)
        scrubPass { s with ecc := { s.ecc with scrub := tput c (if last then 0 else i + 1) s.ecc.scrub,
                                               scrubbed := if last then c :: s.ecc.scrubbed else s.ecc.scrubbed } }

/-- The number of a bank: 16 × 32 × C + 32 × die + p. -/
def bankNum (b : BankId) : Nat := b.c.val * 512 + b.die.val * 32 + b.p.val

def execStackAccess (req : MemReq) (errs : List WordErr) (s : State) : Res3 := s.run (stackAccess req errs)
def execShaftCmdCrcFail (c : Fin 1024) (lane : Fin 32) (s : State) : Res3 := s.run (cmdCrcFail c.val lane.val)
def execRefreshRowDue (b : BankId) (s : State) : Res3 := s.run (refreshDue (bankNum b))
def execRefreshComplete (b : BankId) (s : State) : Res3 := s.run (refreshDone (bankNum b))
def execNbActivityEval (b : BankId) (busyUs : Nat) (s : State) : Res3 := s.run (activityEval (bankNum b) busyUs)
def execScrubRead (c : Fin 1024) (errs : List WordErr) (s : State) : Res3 := s.run (scrubRead c.val errs)

end Sys2Proof.Machine
end

