-- ==== Sys2Proof/Machine/TcRows.lean ====
section
/-! DEFINITION. The tower cache's own events: reductions, write-backs, batches, flushes, the thrash detector and the aperture
(R243, R248, R250–R257). -/

namespace Sys2Proof.Machine

/-- A reduction reaches its tower cache from a source (R250, R252). It stays outstanding while no way is eligible (R247). -/
def tcRed (src a op hint : Nat) (d : List Byte) (s : State) : State :=
  let z := redSize op
  let st := if op = 0 || decide (9 < op) || a % 16 != 0 || d.length % 16 != 0 || decide (spBase < a + d.length) then 0x0102
    else accStatus s a d.length true
  if z = 0 || d.isEmpty then s
  else if st != 0 then emit s (.data src st 0 [])
  else
    let job := if src / 2 ^ 16 = ownId s then tget 0 s.jobOf (bits src 15 6) else 0
    let r := accReduce s src a op hint d job
    match r.2 with
    | none => s
    | some s' => emit s' (.data src r.1 0 [])

/-- The write-back of the oldest line of the victim buffers of a tower is issued and accepted (R243), with `errs` in its words.
Words that no longer decode are written as stored, with the fence of R245. -/
def victimOut (t : Nat) (errs : List WordErr) (s : State) : State :=
  match ((tcOf s t).lines.filter (fun l => l.victim)).getLast? with
  | none => s
  | some l =>
    let s := settle s t l.gran
    match tcLine (tcOf s t) l.gran with
    | none => s
    | some l =>
      let s := (errs.filter (fun e => e.word / 64 == l.gran)).foldl (fun s e => hitWord s e.word e.flip) s
      dropLine (writeBack s t l) t l.gran

/-- An allocation in the set of a line has waited 10 µs: the batches of the set close (R252). -/
def batchTimeout (t g : Nat) (s : State) : State :=
  let idx := granIdx s g
  let ls := (tcOf s t).lines.filter (fun l => granIdx s l.gran == idx && !l.staged.isEmpty)
  ls.foldl (fun s l => closeBatch s t l) s

/-- A flush begins (R255). -/
def flushStart (t : Nat) (s : State) : State :=
  let inv := fbit s .TC_CTL [t] Fld.TC_CTL_INV
  let s := fset s .TC_CTL [t] Fld.TC_CTL_FLUSH 1
  setTc (fset s .TC_STAT [t] Fld.TC_STAT_FLUSHING 1) t { tcOf s t with flushInv := inv }

/-- The pass of a flush ends (R255). -/
def flushDone (t : Nat) (s : State) : State :=
  if !(fbit s .TC_STAT [t] Fld.TC_STAT_FLUSHING) then s
  else
    let s := flushTower s t (tcOf s t).flushInv
    fset (fset s .TC_STAT [t] Fld.TC_STAT_FLUSHING 0) .TC_CTL [t] Fld.TC_CTL_FLUSH 0

/-- Close every batch of a tower (R252). -/
def rclose (t : Nat) (s : State) : State :=
  ((tcOf s t).lines.filter (fun l => !l.staged.isEmpty)).foldl (fun s l => closeBatch s t l) s

/-- Every keep line becomes normal (R246). -/
def unpin (t : Nat) (s : State) : State :=
  let x := tcOf s t
  setTc s t { x with lines := x.lines.map (fun l => if l.cls = 1 then { l with cls := 0 } else l) }

/-- Lookups in a thrash window: 2^WIN, WIN held to 10–24. -/
def thrashWin (s : State) (t : Nat) : Nat := 2 ^ min 24 (max 10 (fget s .TC_THRASH [t] Fld.TC_THRASH_WIN))

/-- The thrash detector judges a window that is full (R248). Its entry is the INFO of R354, whose DETAIL holds the miss count and,
above it, the keep-line count (log entry 139). -/
def thrashEnd (t : Nat) (s : State) : State :=
  let x := tcOf s t
  if x.look < thrashWin s t then s
  else
    let th := max 1 (fget s .TC_THRASH [t] Fld.TC_THRASH_THRESH)
    let keep := (x.lines.filter (fun l => l.cls == 1)).length
    let s := if th * x.look < 256 * x.miss ∧ 15 * (quota s t * 4096) ≤ 16 * keep then
        let s := logEv s 0x20 0 3 t 0 0 (3 * 2 ^ 48 + keep % 2 ^ 16 * 2 ^ 32 + x.miss % 2 ^ 32)
        finc (fset s .TC_STAT [t] Fld.TC_STAT_THRASH 1) .TC_CNT [t, 4] Fld.TC_CNT_COUNT 1
      else s
    setTc s t { tcOf s t with look := 0, miss := 0 }

/-- An access to the tower cache aperture (R39, R40, R257). -/
def aperture (tenantView : Bool) (q : MemReq) (s : State) : State :=
  match spaceOf q.addr with
  | .aperture t off =>
    if !(mapped s q.addr q.len) then emit s (.data q.who 0x0301 0 [])
    else if tenantView then emit s (.data q.who 0x0701 0 [])
    else if q.write then emit (apWrite s t off q.data) (.data q.who 0 0 [])
    else
      let r := apRead s t off q.len
      emit r.s (.data q.who r.st 0 (if r.st = 0 then r.bytes else []))
  | _ => s

/-- Work of an S layer; none while its island has no clock (R32, R395). -/
def onLayer (t : Nat) (f : State → State) (s : State) : State := if noClock s (2048 + t) then s else f s

def execTcReduction (src addr op : Nat) (data : List Byte) (hint : Nat) (s : State) : Res3 := s.run (tcRed src addr op hint data)
def execVictimWriteback (t : Fin 16) (errs : List WordErr) (s : State) : Res3 := s.run (onLayer t.val (victimOut t.val errs))
def execBatchTimeout (t : Fin 16) (gran : Nat) (s : State) : Res3 := s.run (onLayer t.val (batchTimeout t.val gran))
def execTcFlushDone (t : Fin 16) (s : State) : Res3 := s.run (onLayer t.val (flushDone t.val))
def execThrashWindowEnd (t : Fin 16) (s : State) : Res3 := s.run (onLayer t.val (thrashEnd t.val))
def execTcApertureAccess (tenantView : Bool) (req : MemReq) (s : State) : Res3 := s.run (aperture tenantView req)

end Sys2Proof.Machine
end

