-- ==== Sys2Proof/Machine/NearBank.lean ====
section
/-! DEFINITION. The near-bank units (R144–R172): command slots, delivery, micro-operations, steps and the activity cap. -/

namespace Sys2Proof.Machine

/-! ### Slots (R146–R151) -/

/-- Tower, slot and index of a slot's key 64 t + slot. -/
def slotIx (k : Nat) : List Nat := [k / 64, k % 64]

/-- A unit's report reaches its slot (R151). Reports of a slot whose registers were reset meanwhile are dropped. -/
def nbReport (s : State) (b : Nat) (cmd : NbCmd) (st upc : Nat) : State :=
  let k := 64 * cmd.tower + cmd.slot
  let out := tget [] s.nbOut k
  if !(out.contains b) then s
  else
    let s := { s with nbOut := if (out.erase b).isEmpty then tdel k s.nbOut else tput k (out.erase b) s.nbOut }
    let s := if st = 0 then finc s .NB_S_STAT (slotIx k) Fld.NB_S_STAT_DONE_CNT 1
      else
        let s := if fget s .NB_S_STAT (slotIx k) Fld.NB_S_STAT_FAIL_CNT = 0 then
            rput s .NB_S_FAIL (slotIx k) (st * 2 ^ 48 + upc % 128 * 2 ^ 41 + ((logOf s (b / 512)).getD 0) * 2 ^ 31
              + b / 32 % 16 * 2 ^ 27 + b % 32 * 2 ^ 22)
          else s
        finc (fset s .NB_S_STAT (slotIx k) Fld.NB_S_STAT_FAIL 1) .NB_S_STAT (slotIx k) Fld.NB_S_STAT_FAIL_CNT 1
    if (tget [] s.nbOut k).isEmpty then fset s .NB_S_STAT (slotIx k) Fld.NB_S_STAT_BUSY 0 else s

/-- A refused command: no unit receives it (R149). -/
def nbRefuse (s : State) (k st : Nat) : State :=
  let s := rput s .NB_S_STAT (slotIx k) (setBits (rget s .NB_S_STAT (slotIx k)) 47 0 0)
  let s := fset (fset s .NB_S_STAT (slotIx k) Fld.NB_S_STAT_BUSY 0) .NB_S_STAT (slotIx k) Fld.NB_S_STAT_FAIL 1
  rput s .NB_S_FAIL (slotIx k) (st * 2 ^ 48)

/-- Banks of a pillar selected by a die mask and a bank mask. -/
def maskBanks (c dies banks : Nat) : List Nat :=
  (List.range 512).filterMap (fun i => if tbit dies (i / 32) && tbit banks (i % 32) then some (512 * c + i) else none)

/-- Group slots of the set of a slot: G0–G3 or G4–G7 (R147, R148). -/
def groupSet (slot : Nat) (u : NbUnit) : List Nat := if 48 ≤ slot then u.g.drop 4 else u.g.take 4

/-- The target set of a command: the refusal, or the banks (R147). -/
def nbTargets (s : State) (k : Nat) : Nat × List Nat :=
  let ix := slotIx k
  let mode := fget s .NB_S_TGT ix Fld.NB_S_TGT_MODE
  let l := fget s .NB_S_TGT ix Fld.NB_S_TGT_L
  let g := fget s .NB_S_TGT ix Fld.NB_S_TGT_GROUP
  if mode = 3 then (0x0110, [])
  else if mode = 2 then
    if g = 0xFFF then (0x0111, [])
    else
      -- a unit that nothing has touched yet holds the groups of `NbUnit.init`
      let units := if (groupSet (k % 64) NbUnit.init).contains g then (List.range 32768).map (fun i => 32768 * (k / 64) + i)
        else (s.nb.map (fun e => e.1)).filter (fun b => b / 32768 == k / 64)
      (0, units.filter (fun b => (logOf s (b / 512)).isSome && (groupSet (k % 64) (nbUnit s b)).contains g))
  else match (if l < grade s then physOf s l else none) with
    | none => (0x0111, [])
    | some c =>
      if c / 64 ≠ k / 64 then (0x0111, [])
      else if mode = 0 then
        (0, [512 * c + 32 * fget s .NB_S_TGT ix Fld.NB_S_TGT_DIE + fget s .NB_S_TGT ix Fld.NB_S_TGT_P])
      else (0, maskBanks c (fget s .NB_S_MASK ix Fld.NB_S_MASK_DIEMASK) (fget s .NB_S_MASK ix Fld.NB_S_MASK_BANKMASK))

/-- Field checks of a command (R147, R148, R152, R153, R169): 0x0110 or 0. -/
def nbFieldCheck (s : State) (k val : Nat) : Nat :=
  let ix := slotIx k
  let kind := bits val 63 56
  let inW := rget s .NB_S_RANGE_IN ix
  let outW := rget s .NB_S_RANGE_OUT ix
  let past := fun (w : Nat) => decide (2 ^ 17 < bits w 22 6 + bits w 63 46)
  if !(kind == 1 || kind == 2 || kind == 3) || bits val 42 32 != 0 || decide (8 < bits val 48 45)
      || (tbit val 43 && decide (k % 64 < 48)) then 0x0110
  else if kind = 1 && (past inW || past outW || (tbit val 44 && (bits inW 63 46 != 1 || outW != 0))) then 0x0110
  else 0

/-- Whether a bank lies in a striped region (R154). -/
def bankStriped (s : State) (b : Nat) : Bool :=
  match bankBase s b with | none => false | some a => striped s (a / 2 ^ 30)

/-- A slot's status as its command goes to so many units: busy while there are any, nothing reported (R149). -/
def slotTake (s : State) (k n : Nat) : State :=
  rput s .NB_S_STAT (slotIx k) (setBits (setBits (rget s .NB_S_STAT (slotIx k)) 63 62 (if n = 0 then 0 else 2)) 47 0 (n * 2 ^ 32))

/-- A write of NB_S_CMD issues the slot's command (R149). DESIGN CHOICE (log entries 68, 173): its fields are checked before its
target set, and NB_S_FAIL reads 0 from its acceptance to its first failing report. -/
def nbIssue (k val : Nat) (s : State) : State :=
  let ix := slotIx k
  if fbit s .NB_S_STAT ix Fld.NB_S_STAT_BUSY then fset s .NB_S_STAT ix Fld.NB_S_STAT_OVR 1
  else
    let f := nbFieldCheck s k val
    let t := nbTargets s k
    let st := if f != 0 then f else if t.1 != 0 then t.1
      else if bits val 63 56 = 1 && t.2.any (bankStriped s) then 0x0803 else 0
    if st != 0 then nbRefuse s k st
    else
      let inW := rget s .NB_S_RANGE_IN ix
      let outW := rget s .NB_S_RANGE_OUT ix
      let cmd : NbCmd :=
        { tower := k / 64, slot := k % 64, kind := bits val 63 56, pc := bits val 55 49, prelen := bits val 48 45,
          desc := tbit val 44, store := bits val 43 43, tag := bits val 31 0,
          inB := bits inW 22 6, inL := bits inW 63 46, outB := bits outW 22 6, outL := bits outW 63 46,
          p := (List.range 16).map (fun i => rget s .NB_S_P (ix ++ [i])),
          data := (List.range 64).flatMap (fun i => leBytes 8 (rget s .NB_S_DATA (ix ++ [i]))), job := 0, kv := false }
      let s := rput (slotTake s k t.2.length) .NB_S_FAIL ix 0
      if t.2.isEmpty then s
      else { s with nbOut := tput k t.2 s.nbOut,
                    nbFlight := s.nbFlight ++ t.2.map (fun b => (b, { cmd with job := jobOfC s (b / 512) })) }

/-! ### Starting (R148, R150, R153, R156, R162) -/

/-- Micro-operation fields (R157). -/
def uOp (w : Nat) : Nat := bits w 31 26
def uA (w : Nat) : Nat := bits w 25 22
def uB (w : Nat) : Nat := bits w 21 18
def uC (w : Nat) : Nat := bits w 17 14
def uImm (w : Nat) : Nat := bits w 13 0

/-- Bits an operation uses, as a mask over the low 26; none for a reserved OP (R158). -/
def uMask (op : Nat) : Option Nat :=
  let a4 := 0xF * 2 ^ 22; let a2 := 3 * 2 ^ 22; let a1 := 2 ^ 22
  let b4 := 0xF * 2 ^ 18; let b2 := 3 * 2 ^ 18; let c4 := 0xF * 2 ^ 14
  match op with
  | 0x00 => some 0 | 0x01 => some 0
  | 0x02 => some (a2 + b4 + 0x3FFF)
  | 0x03 => some (a2 + 0x3FFF)
  | 0x04 => some (a2 + b4)
  | 0x05 => some (a2 + 0x7F) | 0x06 => some (a2 + 0x7F)
  | 0x08 => some (b2 + 0x3FFF) | 0x09 => some (b2 + 0x3FFF)
  | 0x0A => some (a4 + 0x3FFF)
  | 0x10 => some (a4 + b4 + c4 + 3)
  | 0x11 => some (a1 + b4 + c4 + 0x1FF)
  | 0x12 => some (a1 + b4) | 0x13 => some a1
  | 0x18 => some (a4 + 3)
  | 0x19 => some (a4 + b4) | 0x1A => some (a4 + b4)
  | 0x1B => some (a4 + b4 + c4) | 0x1C => some (a4 + b4 + c4) | 0x1D => some (a4 + b4 + c4) | 0x1E => some (a4 + b4 + c4)
  | 0x1F => some (a4 + b4)
  | _ => none

/-- Whether a program entry passes the check of LOAD (R162). -/
def uValid (w : Nat) : Bool :=
  match uMask (uOp w) with
  | none => false
  | some m => (w % 2 ^ 26) &&& (2 ^ 26 - 1 - m) == 0

/-- Write back and invalidate the lines of a bank's range (R156). -/
def flushRange (s : State) (b lo len : Nat) : State :=
  match bankBase s b with
  | none => s
  | some base => (granules (base + 64 * lo) (64 * len)).foldl (fun s g =>
      match granTower s g with
      | none => s
      | some t =>
        let s := settle s t g
        match tcLine (tcOf s t) g with
        | none => s
        | some l => dropLine (writeBack s t l) t g) s

def setRunU (s : State) (b : Nat) (r : NbRun) : State := setUnit s b { nbUnit s b with run := some r }

/-- A running operation of a command, before its first micro-operation; only a RUN has ranges (R152). -/
def nbRunOf (cmd : NbCmd) : NbRun :=
  { cmd := cmd, pc := cmd.pc, inB := cmd.inB, inL := if cmd.kind = 1 then cmd.inL else 0, outB := cmd.outB,
    outL := if cmd.kind = 1 then cmd.outL else 0, desc := cmd.desc && cmd.kind == 1,
    step := none, cut := false, susp := false, wait := false, token := false, wrote := false, stop := none, upc := 0 }

/-- Stop an operation with a status (R169). OUT is undefined from the command's first write on: the whole range takes free
values when a column of it was written. -/
def nbStop (s : State) (b st upc : Nat) : State :=
  let u := nbUnit s b
  match u.run with
  | none => s
  | some r =>
    let s := setRunU s b { r with stop := some st, upc := upc, step := none, wait := false, token := false }
    if st != 0 && r.wrote then
      match bankBase s b with
      | none => s
      | some base =>
        let f := freeBytes s (64 * r.outL)
        storeBytes f.2 (base + 64 * r.outB) f.1
    else s

def capField (s : State) (b : Nat) (f : Fld) : Nat := fget s .NB_CAP [b / 512 / 64] f

/-- Bucket depth (NB_CAP.DEPTH; values below 512 count as 512). -/
def bucketDepth (s : State) (c : Nat) : Nat := max 512 (fget s .NB_CAP [c / 64] Fld.NB_CAP_DEPTH)

/-- The bucket of a pillar; it starts full after compute reset, at the depth then in force: `capWrite` keeps that when DEPTH
changes (R167). -/
def bucketOf (s : State) (c : Nat) : Bucket := tget ⟨bucketDepth s c, 511⟩ s.bucket c

/-- Take a token for a column, or start to wait for one (R167). -/
def takeToken (s : State) (b : Nat) : Bool × State :=
  let u := nbUnit s b
  match u.run with
  | none => (false, s)
  | some r =>
    if r.token then (true, setRunU s b { r with token := false, wait := false })
    else
      let k := bucketOf s (b / 512)
      let others := s.nb.any (fun e => e.1 != b && e.1 / 512 == b / 512
        && (match e.2.run with | some x => x.wait && !x.token | none => false))
      if 0 < k.tokens && !others then
        (true, setRunU { s with bucket := tput (b / 512) ⟨k.tokens - 1, b % 512⟩ s.bucket } b { r with wait := false })
      else (false, setRunU s b { r with wait := true })

/-- Count a column access (NB_PCNT_COL). -/
def countCol (s : State) (b : Nat) : State := fincWrap s .NB_PCNT_COL (tk (b / 512)) Fld.NB_PCNT_COL_COLUMNS 1

/-- Whether a pillar accepts no access (R37, R350). -/
def pillarOff (s : State) (c : Nat) : Bool := s.topo.dark.contains c || s.topo.closed.contains c

/-- The job a unit's fault belongs to: the current job of its cluster, or that of the KV command a run of the manager serves
(R335). -/
def unitJob (s : State) (b : Nat) : Nat :=
  match (nbUnit s b).run with
  | some r => if r.cmd.kv then r.cmd.job else jobOfC s (b / 512)
  | none => jobOfC s (b / 512)

/-- A unit comes to a column of its own bank: the status that meets it there (R316, R350), and the bank's first address. -/
def unitReach (s : State) (b col : Nat) (write : Bool) : Nat × Nat × State :=
  match bankBase s b with
  | none => (0x0302, 0, s)
  | some base =>
    if pillarOff s (b / 512) then (0x0302, base, s)
    else
      let h := resolveHost s (base + 64 * col) 64 write
      (h.1, base, h.2)

/-- A unit reads a column of its own bank, decoded and not written back (R170). A failing word raises the fence. -/
def unitRead (s : State) (b col : Nat) : RangeRead :=
  let h := unitReach s b col false
  if h.1 != 0 then ⟨h.1, 0, [], h.2.2⟩
  else
    let r := bankRange h.2.2 (h.2.1 + 64 * col) 64
    if r.st = 0 then r else ⟨r.st, r.word, r.bytes, wordFault r.s r.st 6 (16 * r.word) (unitJob s b)⟩

/-- Before a unit uses ranges of its bank: the tower cache writes their lines back and lets them go (R156), and the hosts' copies
are resolved (R317). -/
def openRanges (s : State) (b inB inL outB outL : Nat) : Nat × State :=
  let s := flushRange (flushRange s b inB inL) b outB outL
  let base := (bankBase s b).getD 0
  let h1 := resolveHost s (base + 64 * inB) (64 * inL) true
  let h2 := resolveHost h1.2 (base + 64 * outB) (64 * outL) true
  (if h1.1 != 0 then h1.1 else h2.1, h2.2)

/-- Read the descriptor of a RUN with DESC = 1, a one-column step (R153): no further column joins it. -/
def readDesc (b : Nat) (s : State) : State :=
  let u := nbUnit s b
  match u.run with
  | none => s
  | some r =>
    if !r.desc || r.stop.isSome || r.susp || (refrOf s b).busy || keptFree s b then s
    else
      let t := takeToken s b
      if !t.1 then t.2
      else
        let r' : NbRun := { r with token := false, wait := false, step := some (r.cmd.inB / 16, 1), cut := true }
        let x := unitRead (countCol (setRunU t.2 b r') b) b r.cmd.inB
        match (nbUnit x.s b).run with
        | none => x.s
        | some r =>
          if x.st != 0 then nbStop x.s b x.st 0
          else
            let w := fun i => leNat ((x.bytes.drop (8 * i)).take 8)
            let bad := fun (v : Nat) => decide (2 ^ 17 < bits v 22 6 + bits v 62 46)
            if !(tbit (w 0) 63) then nbStop x.s b 0 0
            else if bad (w 0) || decide (2 ^ 17 < bits (w 1) 22 6 + bits (w 1) 63 46) then nbStop x.s b 0x0110 0
            else
              let h := openRanges x.s b (bits (w 0) 22 6) (bits (w 0) 62 46) (bits (w 1) 22 6) (bits (w 1) 63 46)
              let u := nbUnit h.2 b
              if h.1 != 0 then nbStop h.2 b h.1 0
              else setUnit h.2 b { u with
                p := u.p.take 10 ++ (List.range 6).map (fun i => w (2 + i)),
                run := some { r with desc := false, inB := bits (w 0) 22 6, inL := bits (w 0) 62 46,
                                     outB := bits (w 1) 22 6, outL := bits (w 1) 63 46 } }

/-- The latches of R145, as numbers. -/
def latch (u : NbUnit) (i : Nat) : Nat := tget 0 u.latch i
def setLatch (u : NbUnit) (i v : Nat) : NbUnit := { u with latch := if v = 0 then tdel i u.latch else tput i v u.latch }

/-- Preload latch units 8 to 8 + n − 1 (R150). -/
def preload (u : NbUnit) (n : Nat) (d : List Byte) : NbUnit :=
  foldUp n (fun u i => setLatch u (8 + i) (leNat ((d.drop (64 * i)).take 64))) u

/-- Latches undefined to the first tenant command after a firmware command become free values (R150). -/
def freeLatches (s : State) (b : Nat) : State :=
  foldUp 34 (fun s i =>
    let f := freeBytes s 64
    setUnit f.2 b (setLatch (nbUnit f.2 b) i (leNat f.1))) s

/-- A command starts at its unit (R150). LOAD and SETGRP take effect and are complete; a RUN is ready for its first
micro-operation. -/
def nbStart (b : Nat) (cmd : NbCmd) (s : State) : State :=
  let s := if cmd.slot < 48 && (nbUnit s b).fw then freeLatches s b else s
  let s := setUnit s b { nbUnit s b with fw := decide (48 ≤ cmd.slot) }
  let u := nbUnit s b
  let r := nbRunOf cmd
  if cmd.kind = 3 then
    let p0 := lget 0 cmd.p 0
    let gs := [bits p0 11 0, bits p0 23 12, bits p0 35 24, bits p0 47 36]
    let g := if 48 ≤ cmd.slot then u.g.take 4 ++ gs else gs ++ u.g.drop 4
    setUnit s b { u with g := g, run := some { r with stop := some 0 } }
  else if cmd.kind = 2 then
    let prog := (List.range 128).map (fun i => leNat ((cmd.data.drop (4 * i)).take 4))
    let ok := prog.all uValid
    setUnit s b { u with store := lset u.store cmd.store prog, valid := lset u.valid cmd.store ok,
                         run := some { r with stop := some (if ok then 0 else 0x0807) } }
  else if !(lget false u.valid cmd.store) then setUnit s b { u with run := some { r with stop := some 0x0807 } }
  else
    let h := openRanges s b cmd.inB cmd.inL cmd.outB cmd.outL
    let s := h.2
    let u := nbUnit s b
    if h.1 != 0 then setUnit s b { u with run := some { r with stop := some h.1 } } else
    let u := preload u cmd.prelen cmd.data
    let s := setUnit s b { u with si := 0, ac := [0, 0, 0, 0], lc := [0, 0, 0, 0], p := cmd.p, run := some { r with susp := (refrOf s b).busy } }
    if cmd.desc then readDesc b s else s

/-- The oldest command on its way to a unit arrives (R60, R150). -/
def nbArrive (b : Nat) (s : State) : State :=
  match s.nbFlight.find? (fun e => e.1 == b) with
  | none => s
  | some e =>
    let cmd := e.2
    let s := { s with nbFlight := s.nbFlight.erase e, ecc := { s.ecc with cmdTries := tdel (b / 512) s.ecc.cmdTries } }
    let u := nbUnit s b
    if pillarOff s (b / 512) then nbReport s b cmd 0x0302 0
    else if u.run.isNone then nbStart b cmd s
    else if cmd.slot < 48 then
      (if u.pendT.isSome then nbReport s b cmd 0x0804 0 else setUnit s b { u with pendT := some cmd })
    else if u.pendF.isSome then nbReport s b cmd 0x0804 0
    else setUnit s b { u with pendF := some cmd }

/-- A write of NB_CAP changes no bucket's tokens (R168). -/
def capWrite (t v : Nat) (s : State) : State :=
  let s' := { s with bucket := foldUp 64 (fun bs k => tput (64 * t + k) (bucketOf s (64 * t + k)) bs) s.bucket }
  rput s' .NB_CAP [t] v

/-- A unit's completion report: held reads are served and a pending command starts, firmware first (R150, R151, R155). -/
def nbComplete (b : Nat) (s : State) : State :=
  let u := nbUnit s b
  match u.run with
  | none => s
  | some r => match r.stop with
    | none => s
    | some st =>
      let s := setUnit s b { u with run := none }
      let s := nbReport s b r.cmd st r.upc
      let s := startRefresh b s
      let s := if (refrOf s b).busy then s else serveHeld b s
      let s := flushOwed (unblock s b true)
      let u := nbUnit s b
      match u.pendF, u.pendT with
      | some c, _ => nbStart b c (setUnit s b { u with pendF := none })
      | none, some c => nbStart b c (setUnit s b { u with pendT := none })
      | none, none => s

/-- A held read has waited more than 20 µs (R155): one of the shaft controller's requests, else the first read inside a step,
which fails when its row comes again. -/
def nbReadTimeout (b : Nat) (s : State) : State :=
  match s.nbHeld.find? (fun e => e.1 == b && !e.2.write && nbTouch s e.2.addr e.2.len false) with
  | some e => emit { s with nbHeld := s.nbHeld.erase e } (.data e.2.who 0x0801 0 [])
  | none =>
    match s.nbBlock.find? (fun y => y.bank == b && y.out && !y.late && !y.ready && nbTouch s y.addr y.len false) with
    | none => s
    | some y => { s with nbBlock := s.nbBlock.map (fun z => if z == y then { z with late := true } else z) }

/-! ### Micro-operations (R158–R161) -/

/-- Run a unit's next micro-operation when it is the one the row names. A run of the page manager takes its columns at
NB_UNIT_COMPLETE (log entry 143), a unit of a pillar that accepts no access stops (R350), and one without a clock waits. -/
def uRow (op b : Nat) (f : Nat → NbUnit → NbRun → State → State) (s : State) : State :=
  let s := match (nbUnit s b).run with | some r => if r.desc then readDesc b s else s | none => s
  let u := nbUnit s b
  match u.run with
  | none => s
  | some r =>
    if r.stop.isSome || r.desc || r.cmd.kv then s
    else if pillarOff s (b / 512) then nbStop s b 0x0302 r.pc
    else if noClock s (b / 512) then s
    else
      let w := lget 0 (lget [] u.store r.cmd.store) r.pc
      if uOp w = op then f w u r s else s

/-- Go to a program entry; falling past entry 127 stops the operation (R163). -/
def uGoto (b pc : Nat) (s : State) : State :=
  match (nbUnit s b).run with
  | none => s
  | some r => if 128 ≤ pc then nbStop s b 0x0806 0 else setRunU s b { r with pc := pc }

/-- A micro-operation that only changes the unit. -/
def uPure (g : Nat → NbUnit → NbUnit) (b w : Nat) (_u : NbUnit) (r : NbRun) (s : State) : State :=
  let u := g w (nbUnit s b)
  uGoto b (r.pc + 1) (setUnit s b u)

def sa (u : NbUnit) (i : Nat) : Nat := bits (latch u 16) (32 * i + 31) (32 * i)
def setSa (u : NbUnit) (i v : Nat) : NbUnit := setLatch u 16 (setBits (latch u 16) (32 * i + 31) (32 * i) v)
/-- Lane l of accumulator vector a (R145). -/
def av (u : NbUnit) (a l : Nat) : Nat := bits (latch u (17 + 8 * a + l / 16)) (32 * (l % 16) + 31) (32 * (l % 16))
def setAv (u : NbUnit) (a l v : Nat) : NbUnit :=
  let k := 17 + 8 * a + l / 16
  setLatch u k (setBits (latch u k) (32 * (l % 16) + 31) (32 * (l % 16)) v)

/-- Elements in a stored column of a type, and their width (R159). -/
def etN (et : Nat) : Nat := match et with | 0 => 32 | 1 => 64 | 2 => 128 | _ => 16
def etW (et : Nat) : Nat := 512 / etN et

/-- Element i of the column in VL[c], with its scale where the type has one (R159). -/
def colElem (u : NbUnit) (et c i : Nat) : FVal :=
  let x := latch u c / 2 ^ (etW et * i) % 2 ^ etW et
  match et with
  | 0 => fdec .bf16 x
  | 3 => fdec .fp32 x
  | _ =>
    let sc := latch u 33 / 2 ^ (8 * ((u.si + i / 32) % 64)) % 256
    if sc = 0xFF then .nan else .ofInt (sext (etW et) x) ((sc : Int) - 127)

/-- The scale index advances by the column's scales (R159). -/
def siStep (u : NbUnit) (et : Nat) : NbUnit :=
  match et with | 1 => { u with si := (u.si + 2) % 64 } | 2 => { u with si := (u.si + 4) % 64 } | _ => u

/-- Vector latches the DOT operand span takes (R159). -/
def spanLen (et : Nat) : Nat := match et with | 1 => 2 | 2 => 4 | _ => 1

/-- Operand element i of the span at VL[b]. -/
def spanElem (u : NbUnit) (et b i : Nat) : FVal :=
  if et = 3 then fdec .fp32 (latch u b / 2 ^ (32 * i) % 2 ^ 32)
  else fdec .bf16 (latch u (b + i / 32) / 2 ^ (16 * (i % 32)) % 2 ^ 16)

/-- The dot product: exact, rounded once to FP32 (R160). DESIGN CHOICE (log entry 172): a sum whose products are all −0 is +0. -/
def dotVal (u : NbUnit) (et b c : Nat) : Nat :=
  fenc .fp32 ((List.range (etN et)).foldl (fun acc i => fadd acc (fmul (spanElem u et b i) (colElem u et c i))) (.fin false 0 0))

def f32add (a b : Nat) : Nat := fenc .fp32 (fadd (fdec .fp32 a) (fdec .fp32 b))
def f32sub (a b : Nat) : Nat := fenc .fp32 (fadd (fdec .fp32 a) (fneg (fdec .fp32 b)))
def f32mul (a b : Nat) : Nat := fenc .fp32 (fmul (fdec .fp32 a) (fdec .fp32 b))
def f32max (a b : Nat) : Nat := fenc .fp32 (fmax (fdec .fp32 a) (fdec .fp32 b))
def f32exp2 (a : Nat) : Nat := fexp2 .fp32 (fdec .fp32 a)

def doDot (b w : Nat) (_u : NbUnit) (r : NbRun) (s : State) : State :=
  let u := nbUnit s b
  let et := uImm w % 4
  if 16 < uB w + spanLen et then nbStop s b 0x0806 r.pc
  else
    let u' := siStep (setSa u (uA w) (f32add (sa u (uA w)) (dotVal u et (uB w) (uC w)))) et
    uGoto b (r.pc + 1) (setUnit s b u')

/-- AXPY: each lane is rounded once (R160). -/
def doAxpy (b w : Nat) (_u : NbUnit) (r : NbRun) (s : State) : State :=
  let u := nbUnit s b
  let et := uImm w % 4
  let o := bits (uImm w) 8 2
  let a := uA w % 2
  if 128 < o + etN et then nbStop s b 0x0806 r.pc
  else
    let k := fdec .fp32 (sa u (uB w))
    let u' := foldUp (etN et) (fun v i =>
      setAv v a (o + i) (fenc .fp32 (fadd (fdec .fp32 (av u a (o + i))) (fmul k (colElem u et (uC w) i))))) u
    uGoto b (r.pc + 1) (setUnit s b (siStep u' et))

def uAvscale (w : Nat) (u : NbUnit) : NbUnit :=
  foldUp 128 (fun v l => setAv v (uA w % 2) l (f32mul (av u (uA w % 2) l) (sa u (uB w)))) u
def uAvzero (w : Nat) (u : NbUnit) : NbUnit := foldUp 8 (fun v i => setLatch v (17 + 8 * (uA w % 2) + i) 0) u
def uSseti (w : Nat) (u : NbUnit) : NbUnit :=
  setSa u (uA w) (match uImm w % 4 with | 0 => 0 | 1 => 0xFF800000 | 2 => 0x3F800000 | _ => 0x7F800000)
def uSldp (w : Nat) (u : NbUnit) : NbUnit := setSa u (uA w) (lget 0 u.p (uB w) % 2 ^ 32)
def uSmov (w : Nat) (u : NbUnit) : NbUnit := setSa u (uA w) (sa u (uB w))
def uBin (f : Nat → Nat → Nat) (w : Nat) (u : NbUnit) : NbUnit := setSa u (uA w) (f (sa u (uB w)) (sa u (uC w)))
def uSexp2 (w : Nat) (u : NbUnit) : NbUnit := setSa u (uA w) (f32exp2 (sa u (uB w)))
def uSetac (w : Nat) (u : NbUnit) : NbUnit :=
  { u with ac := lset u.ac (uA w % 4) ((bits (lget 0 u.p (uB w)) 22 6 + uImm w) % 2 ^ 17) }
def uSetlc (w : Nat) (u : NbUnit) : NbUnit := { u with lc := lset u.lc (uA w % 4) (uImm w) }
def uSetlcp (w : Nat) (u : NbUnit) : NbUnit := { u with lc := lset u.lc (uA w % 4) (lget 0 u.p (uB w) % 65536) }

def doLoop (b w : Nat) (_u : NbUnit) (r : NbRun) (s : State) : State :=
  let u := nbUnit s b
  let c := lget 0 u.lc (uA w % 4) - 1
  uGoto b (if 0 < c then uImm w % 128 else r.pc + 1) (setUnit s b { u with lc := lset u.lc (uA w % 4) c })

def doBzlc (b w : Nat) (_u : NbUnit) (r : NbRun) (s : State) : State :=
  uGoto b (if lget 0 (nbUnit s b).lc (uA w % 4) = 0 then uImm w % 128 else r.pc + 1) s

/-- Whether column `col` lies in a range of 64-byte units. -/
def inRange (col lo len : Nat) : Bool := decide (lo ≤ col) && decide (col < lo + len)

/-- The next column of a step (R164, R167): it goes on in the open row, or opens a row once the last step has ended; it
takes a token. An access that its boundary let through goes first (R165). Answers whether the column issues. -/
def issueCol (b col : Nat) (r : NbRun) (s : State) : Bool × State :=
  let row := col / 16
  let fits := match r.step with
    | none => true
    | some (rw, n) => rw == row && decide (n < 16) && !r.cut
  if r.susp || (refrOf s b).busy || keptFree s b || !fits then (false, s)
  else
    let t := takeToken s b
    if !t.1 then (false, t.2)
    else
      let s := countCol t.2 b
      match (nbUnit s b).run with
      | none => (false, s)
      | some r => (true, setRunU s b { r with step := some (row, (match r.step with | some (_, n) => n + 1 | none => 1)) })

/-- AC[B] after a column access. -/
def acStep (u : NbUnit) (w : Nat) : NbUnit :=
  let i := uB w % 4
  let old : Nat := lget 0 u.ac i
  { u with ac := lset u.ac i (((old : Int) + sext 8 (uImm w % 256)) % 2 ^ 17).toNat }

/-- RDC (R152, R158, R170). -/
def doRdc (b w : Nat) (u : NbUnit) (r : NbRun) (s : State) : State :=
  let k := bits (uImm w) 13 8
  let col := lget 0 u.ac (uB w % 4)
  if 33 < k then nbStop s b 0x0806 r.pc
  else if !(inRange col r.inB r.inL || inRange col r.outB r.outL) then nbStop s b 0x0805 r.pc
  else
    let q := issueCol b col r s
    if !q.1 then q.2
    else
      let x := unitRead q.2 b col
      if x.st != 0 then nbStop x.s b x.st r.pc
      else
        let u := setLatch (acStep (nbUnit x.s b) w) k (leNat x.bytes)
        uGoto b (r.pc + 1) (setUnit x.s b (if k = 33 then { u with si := 0 } else u))

/-- WRC: a whole column, coded with the issued addresses of R152. -/
def doWrc (b w : Nat) (u : NbUnit) (r : NbRun) (s : State) : State :=
  let k := bits (uImm w) 13 8
  let col := lget 0 u.ac (uB w % 4)
  if 33 < k then nbStop s b 0x0806 r.pc
  else if !(inRange col r.outB r.outL) then nbStop s b 0x0805 r.pc
  else
    let q := issueCol b col r s
    if !q.1 then q.2
    else
      let h := unitReach q.2 b col true
      let a := h.2.1 + 64 * col
      if h.1 != 0 then nbStop h.2.2 b h.1 r.pc
      else
        let s := storeBytes (kvMark h.2.2 a 64 (unitJob s b)) a (leBytes 64 (latch u k))
        let s := setUnit s b (acStep (nbUnit s b) w)
        match (nbUnit s b).run with
        | none => s
        | some r => uGoto b (r.pc + 1) (setRunU s b { r with wrote := true })

/-- Bytes of latch units f to f + n − 1. -/
def latchBytes (u : NbUnit) (f n : Nat) : List Byte := (List.range n).flatMap (fun i => leBytes 64 (latch u (f + i)))

def mrgOf (s : State) (t : Nat) : Mrg := tget Mrg.init s.mrg t
def setMrg (s : State) (t : Nat) (m : Mrg) : State := { s with mrg := tput t m s.mrg }

/-- Give a record to a merge input while it has one of its 8 credits (R229). -/
def mergeSend (s : State) (c tag : Nat) (us : List Nat) : Option State :=
  let m := mrgOf s (c / 64)
  let q := tget [] m.inputs (c % 64)
  if 8 ≤ q.length then none
  else some (setMrg s (c / 64) { m with inputs := tput (c % 64) (q ++ [⟨tag, us⟩]) m.inputs })

/-- Whether a range reaches a bank whose unit runs (R161). -/
def runsIn (s : State) (a n : Nat) : Bool :=
  s.nb.any (fun e => e.2.run.isSome && (match bankBase s e.1 with | some base => overlaps a n base (2 ^ 23) | none => false))

/-- EMIT (R161): after the step in progress has ended, the record goes to memory or to the tower's merge unit. -/
def doEmit (b w : Nat) (u : NbUnit) (r : NbRun) (s : State) : State :=
  let n := bits (uImm w) 5 0
  let f := bits (uImm w) 11 6
  let d := bits (uImm w) 13 12
  let p := lget 0 u.p (uA w)
  if r.step.isSome then s
  else if n = 0 || decide (34 < f + n) || decide (2 ≤ d) then nbStop s b 0x0806 r.pc
  else if d = 1 then
    match mergeSend s (b / 512) (p % 2 ^ 32) ((List.range n).map (fun i => latch u (f + i))) with
    | none => s
    | some s => uGoto b (r.pc + 1) s
  else
    let a := p % 2 ^ 48
    let where_ := match spaceOf a with | .stack _ _ => true | .scratch _ _ => true | _ => false
    if !(mapped s a (64 * n)) then nbStop s b 0x0301 r.pc
    else if !where_ || a % 64 != 0 then nbStop s b 0x0806 r.pc
    else if runsIn s a (64 * n) then nbStop s b 0x0802 r.pc
    else
      let q := accWrite s ⟨b / 512, 6, r.cmd.job, true, false, 0, false⟩ a (latchBytes u f n)
      if q.1 != 0 then nbStop q.2 b q.1 r.pc else uGoto b (r.pc + 1) q.2

/-- END: the operation completes once the step in progress has ended (R151, R164). -/
def doEnd (b _w : Nat) (_u : NbUnit) (r : NbRun) (s : State) : State :=
  if r.step.isSome then s else nbStop s b 0 0

/-! ### Steps and tokens (R164–R168) -/

/-- A step ends: refresh first, then the queued accesses, then the unit goes on (R63, R165, R166). With no step in progress, an
access that let its turn pass holds the unit no longer (log entry 162). -/
def stepBoundary (b : Nat) (s : State) : State :=
  let u := nbUnit s b
  match u.run with
  | none => s
  | some r =>
    let s := if r.step.isNone then handBack s b else s
    let s := setUnit s b { u with run := some { r with step := none, cut := false } }
    let s := startRefresh b s
    if (refrOf s b).busy then s else flushOwed (unblock (serveHeld b s) b false)

/-- Issue cycles, of 64, a tower's own gate lets through: 1 when critical, an open duty when throttled (R416, R418; log
entry 1). -/
def towerDuty (s : State) (t : Nat) : Nat :=
  if fbit s .THM_TWR [t] Fld.THM_TWR_CRIT then 1
  else if fbit s .THM_TWR [t] Fld.THM_TWR_THROTTLED then tget 64 s.thm.duty t else 64

/-- NB_CAP.RATE_LIMIT: the governor's limit and the tower's thermal limit, each lowered as its gate is (R168, R372, R416). -/
def rateLimit (s : State) (t : Nat) : Nat :=
  let heat := if fbit s .THM_TWR [t] Fld.THM_TWR_CRIT then 1 else 128 * towerDuty s t / 64
  min (128 * (64 - s.pwr.gate) / 64) heat

/-- NB_CAP.RATE_EFF: the refill in force in a tower (R168). -/
def rateTower (s : State) (t : Nat) : Nat := min (max 1 (min 128 (fget s .NB_CAP [t] Fld.NB_CAP_RATE))) (rateLimit s t)

/-- Refill in force of a pillar: a cluster gated at its domain cap has less (R168, R366). -/
def rateEff (s : State) (c : Nat) : Nat := min (rateTower s (c / 64)) (128 * (64 - tget 0 s.pwr.capGate c) / 64)

/-- The bucket of a pillar refills, and waiting units take tokens in ascending order after the last served (R167). -/
def tokenRefill (c : Nat) (s : State) : State :=
  let k := bucketOf s c
  let waiting := (s.nb.filter (fun e => e.1 / 512 == c && (match e.2.run with | some r => r.wait && !r.token | none => false))).map
    (fun e => e.1 % 512)
  let s := if waiting.isEmpty then s else finc s .NB_PCNT_THR (tk c) Fld.NB_PCNT_THR_WAIT8 1
  let s := fset s .NB_CAP [c / 64] Fld.NB_CAP_RATE_EFF (rateTower s (c / 64))
  let have_ := max k.tokens (min (bucketDepth s c) (k.tokens + rateEff s c))
  let order := waiting.filter (fun x => decide (k.last < x)) ++ waiting.filter (fun x => decide (x ≤ k.last))
  let served := order.take have_
  let s := { s with bucket := tput c ⟨have_ - served.length, served.getLast?.getD k.last⟩ s.bucket }
  served.foldl (fun s x =>
    let b := 512 * c + x
    match (nbUnit s b).run with
    | some r => readDesc b (setRunU s b { r with token := true, wait := false })
    | none => s) s

/-! ### Rows -/

def execUnitNop (b : BankId) (s : State) : Res3 := s.run (uRow 0x00 (bankNum b) (uPure (fun _ u => u) (bankNum b)))
def execUnitEnd (b : BankId) (s : State) : Res3 := s.run (uRow 0x01 (bankNum b) (doEnd (bankNum b)))
def execSetac (b : BankId) (s : State) : Res3 := s.run (uRow 0x02 (bankNum b) (uPure uSetac (bankNum b)))
def execSetlc (b : BankId) (s : State) : Res3 := s.run (uRow 0x03 (bankNum b) (uPure uSetlc (bankNum b)))
def execSetlcp (b : BankId) (s : State) : Res3 := s.run (uRow 0x04 (bankNum b) (uPure uSetlcp (bankNum b)))
def execLoop (b : BankId) (s : State) : Res3 := s.run (uRow 0x05 (bankNum b) (doLoop (bankNum b)))
def execBzlc (b : BankId) (s : State) : Res3 := s.run (uRow 0x06 (bankNum b) (doBzlc (bankNum b)))
def execRdc (b : BankId) (s : State) : Res3 := s.run (uRow 0x08 (bankNum b) (doRdc (bankNum b)))
def execWrc (b : BankId) (s : State) : Res3 := s.run (uRow 0x09 (bankNum b) (doWrc (bankNum b)))
def execEmit (b : BankId) (s : State) : Res3 := s.run (uRow 0x0A (bankNum b) (doEmit (bankNum b)))
def execDot (b : BankId) (s : State) : Res3 := s.run (uRow 0x10 (bankNum b) (doDot (bankNum b)))
def execAxpy (b : BankId) (s : State) : Res3 := s.run (uRow 0x11 (bankNum b) (doAxpy (bankNum b)))
def execAvscale (b : BankId) (s : State) : Res3 := s.run (uRow 0x12 (bankNum b) (uPure uAvscale (bankNum b)))
def execAvzero (b : BankId) (s : State) : Res3 := s.run (uRow 0x13 (bankNum b) (uPure uAvzero (bankNum b)))
def execSseti (b : BankId) (s : State) : Res3 := s.run (uRow 0x18 (bankNum b) (uPure uSseti (bankNum b)))
def execSldp (b : BankId) (s : State) : Res3 := s.run (uRow 0x19 (bankNum b) (uPure uSldp (bankNum b)))
def execSmov (b : BankId) (s : State) : Res3 := s.run (uRow 0x1A (bankNum b) (uPure uSmov (bankNum b)))
def execSadd (b : BankId) (s : State) : Res3 := s.run (uRow 0x1B (bankNum b) (uPure (uBin f32add) (bankNum b)))
def execSsub (b : BankId) (s : State) : Res3 := s.run (uRow 0x1C (bankNum b) (uPure (uBin f32sub) (bankNum b)))
def execSmul (b : BankId) (s : State) : Res3 := s.run (uRow 0x1D (bankNum b) (uPure (uBin f32mul) (bankNum b)))
def execSmax (b : BankId) (s : State) : Res3 := s.run (uRow 0x1E (bankNum b) (uPure (uBin f32max) (bankNum b)))
def execSexp2 (b : BankId) (s : State) : Res3 := s.run (uRow 0x1F (bankNum b) (uPure uSexp2 (bankNum b)))
def execNbStepBoundary (b : BankId) (s : State) : Res3 := s.run (stepBoundary (bankNum b))
def execTokenRefill (c : Fin 1024) (s : State) : Res3 := s.run (tokenRefill c.val)
def execNbReadTimeout (b : BankId) (s : State) : Res3 := s.run (nbReadTimeout (bankNum b))

end Sys2Proof.Machine
end

