-- ==== Sys2Proof/Machine/KvMeta.lean ====
section
/-! DEFINITION. What the KV page manager keeps: the pool, page records and entries, retirement, and the metadata region
(R173–R185, R189, R195, R196, R224). -/

namespace Sys2Proof.Machine

/-! ### Pool (R175–R181) -/

/-- Rows of a frame, frames of a bank, and KiB of a slot, by class. -/
def clsRows (c : Nat) : Nat := match c with | 0 => 64 | 1 => 33 | _ => 17
def clsFrames (c : Nat) : Nat := match c with | 0 => 127 | 1 => 248 | _ => 481
def slotBytes (c : Nat) : Nat := match c with | 0 => 69632 | 1 => 36864 | _ => 20480
def slotsPerChunk (c : Nat) : Nat := match c with | 0 => 15 | 1 => 28 | _ => 51

def modKv (s : State) (f : Kv → Kv) : State := { s with kv := f s.kv }

/-- Banks of a class in list order: their first addresses. -/
def classList (s : State) (c : Nat) : List Nat := (s.kv.pool.filter (fun b => b.2 == c)).map (fun b => b.1)

/-- Frames of a class in use or retired. -/
def clsUsed (s : State) (c : Nat) : Nat :=
  (s.kv.frames.filter (fun a => s.kv.pool.any (fun b => b.2 == c && decide (b.1 ≤ a) && decide (a < b.1 + 2 ^ 23)))).length

def clsTotal (s : State) (c : Nat) : Nat := (classList s c).length * clsFrames c
def clsFree (s : State) (c : Nat) : Nat := clsTotal s c - clsUsed s c

/-- The lowest-numbered free frame of a bank. -/
def bankFrame (s : State) (c base : Nat) : Option Nat :=
  ((List.range (clsFrames c)).map (fun f => base + 1024 * clsRows c * f)).find? (fun a => !(s.kv.frames.contains a))

/-- Where a page is placed (R181). -/
def placeFrame (s : State) (c sq l h q : Nat) : Option Nat :=
  let bs := classList s c
  let start := (97 * sq + 31 * l + 13 * h + q) % bs.length
  (bs.drop start ++ bs.take start).findSome? (bankFrame s c)

/-- Assign classes along the bank list (R179): `left` banks follow, `given` counts per class. -/
def assignCls (n : List Nat) (b : Nat) : Nat → List Nat → List Nat
  | 0, _ => []
  | k + 1, given =>
    let i := b - (k + 1)
    let owed := fun c => lget 0 n c - lget 0 given c
    let c := match [0, 1, 2].find? (fun c => decide (lget 0 given c < (i + 1) * lget 0 n c / b)) with
      | some c => c
      | none => [1, 2].foldl (fun best c => if owed best < owed c then c else best) 0
    c :: assignCls n b k (lset given c (lget 0 given c + 1))

/-- The pool bank list: first addresses by bank, then die, then cluster (R178). -/
def poolBanks (s : State) (lfirst llast dies banks : Nat) : List Nat :=
  (List.range 32).flatMap (fun p => if !(tbit banks p) then [] else (List.range 16).flatMap (fun d =>
    if !(tbit dies d) then [] else (List.range (llast + 1 - lfirst)).filterMap (fun i =>
      if present s (lfirst + i) then some ((lfirst + i) * 2 ^ 32 + d * 2 ^ 28 + p * 2 ^ 23) else none)))

/-- A bank list with the classes of its entries, for so many banks of classes 1 and 2 (R179). -/
def poolFrom (bs : List Nat) (n1 n2 : Nat) : List (Nat × Nat) :=
  let b := bs.length
  let n1 := min b n1
  let n2 := min (b - n1) n2
  bs.zip (assignCls [b - n1 - n2, n1, n2] b b [0, 0, 0])

/-- The pool of the stored configuration, without banks in striped regions (R180). -/
def poolOf (s : State) : List (Nat × Nat) :=
  let f := fun r x => fget s r [] x
  let bs := poolBanks s (f .KV_POOL_CFG0 Fld.KV_POOL_CFG0_LFIRST) (f .KV_POOL_CFG0 Fld.KV_POOL_CFG0_LLAST)
    (f .KV_POOL_CFG0 Fld.KV_POOL_CFG0_DIEMASK) (f .KV_POOL_CFG1 Fld.KV_POOL_CFG1_BANKMASK)
  poolFrom (bs.filter (fun a => !(striped s (a / 2 ^ 30)))) (f .KV_POOL_CFG2 Fld.KV_POOL_CFG2_N1) (f .KV_POOL_CFG2 Fld.KV_POOL_CFG2_N2)

/-! ### Records, entries and retirement (R183, R184, R189, R196) -/

def recOf (s : State) (pid : Nat) : Option PageRec := tfind s.kv.recs pid
def setRec (s : State) (pid : Nat) (r : PageRec) : State := modKv s (fun k => { k with recs := tput pid r k.recs })

/-- A sequence that is not Free. -/
def seqOf (s : State) (i : Nat) : Option Seq := (tfind s.kv.seqs i).bind (fun q => if q.state = 0 then none else some q)
def setSeq (s : State) (i : Nat) (q : Seq) : State := modKv s (fun k => { k with seqs := tput i q k.seqs })

/-- Key of a page-table entry. -/
def pteKey (l h q : Nat) : Nat := (l * 64 + h) * 131072 + q

def pteValid (p : Nat) : Bool := tbit p 31
def pteEvicted (p : Nat) : Bool := tbit p 30
def ptePid (p : Nat) : Nat := p % 2 ^ 30

def pteOf (q : Seq) (l h i : Nat) : Nat := tget 0 q.ptes (pteKey l h i)

/-- Write a page-table entry. -/
def setPte (s : State) (i key v : Nat) : State :=
  match tfind s.kv.seqs i with
  | none => s
  | some q => setSeq s i { q with ptes := if v = 0 then tdel key q.ptes else tput key v q.ptes }

/-- Take a page's summary out of a sequence's coarse index. -/
def dropSum (s : State) (i key : Nat) : State :=
  match tfind s.kv.seqs i with
  | none => s
  | some q => setSeq s i { q with sums := tdel key q.sums }

/-- Layer record of a sequence's profile. -/
def layerRec (s : State) (q : Seq) (l : Nat) : Nat := lget 0 (tget ⟨0, 0, []⟩ s.kv.profiles q.profile).recs l
def seqHeads (s : State) (q : Seq) : Nat := (tget ⟨0, 0, []⟩ s.kv.profiles q.profile).heads
def seqLayers (s : State) (q : Seq) : Nat := (tget ⟨0, 0, []⟩ s.kv.profiles q.profile).layers

/-- Retire items together: stamped with E, which then increments (R196). -/
def retireAll (items : List (Nat × Nat)) (s : State) : State :=
  modKv s (fun k => { k with retired := k.retired ++ items.map (fun x => ⟨x.1, x.2, k.epoch⟩), epoch := (k.epoch + 1) % 2 ^ 64 })

/-- The stored form of a slot: its address with its class. -/
def slotKey (a c : Nat) : Nat := 4 * a + c

/-- Whether a page's slot is one of the swap area (R211): LOC 5, or on its way from there. -/
def inSwap (s : State) (r : PageRec) : Bool := s.kv.swaps.contains (slotKey r.addr r.cls)

/-- The item kind of a record's location: frame, spill slot or swap slot. -/
def locKind (s : State) (r : PageRec) : Nat := if r.loc = 1 ∨ r.loc = 4 then 0 else if inSwap s r then 2 else 1

/-- One page-table entry leaves a record: a count of 0 retires it with its frame or slot (R189). -/
def unref (pid : Nat) (s : State) : State :=
  match recOf s pid with
  | none => s
  | some r =>
    if 1 < r.refcnt then setRec s pid { r with refcnt := r.refcnt - 1 }
    else
      retireAll [(locKind s r, if r.loc = 1 ∨ r.loc = 4 then r.addr else slotKey r.addr r.cls), (3, pid)]
        (modKv s (fun k => { k with recs := tdel pid k.recs }))

/-- Page records in use or retired. -/
def pidsUsed (s : State) : List Nat :=
  s.kv.recs.map (fun r => r.1) ++ (s.kv.retired.filter (fun r => r.kind == 3)).map (fun r => r.addr)

/-- The lowest free page record (R184). -/
def freePid (s : State) : Nat :=
  ((List.range ((pidsUsed s).length + 1)).find? (fun p => !((pidsUsed s).contains p))).getD 0

/-- Distinct groups of so many neighbouring keys, over all sequences. -/
def keyGroups (s : State) (n : Nat) (keys : Seq → List Nat) : Nat :=
  s.kv.seqs.foldl (fun a e => a + ((keys e.2).map (fun k => k / n)).eraseDups.length) 0

/-! ### The metadata region (R182–R184, R224) -/

/-- Banks of the metadata region in bank-list order: first addresses (R178, R224). -/
def metaBanks (s : State) : List Nat :=
  (poolBanks s 0 1023 0xFFFF 0xFFFFFFFF).filter (fun a => decide (metaBase s ≤ a) && decide (a < metaBase s + metaSize s))

/-- Places for items of a kind in the whole region, or for index blocks in one bank (log entry 131). -/
def metaSlots (banks kind : Nat) : Nat :=
  match kind with | 0 => 8 * banks | 3 => 32768 * banks | 4 => 1024 | _ => 511 * banks

/-- The bank an index block lies in: consecutive blocks follow the bank list (R224). -/
def blockBank (s : State) (b : Nat) : Nat := let bs := metaBanks s; lget (metaBase s) bs (b % bs.length)

/-- Place j for an item of a kind (0 root, 1 directory, 2 leaf, 3 page record, 4 index block): of each bank, rows 0 to 4,095 hold
index blocks, 4,096 to 6,143 roots, 6,144 to 7,167 page records, and the rows up to 8,189 directories and leaves; row 8,191 is the
query area (R224; log entry 131). -/
def slotAt (s : State) (kind ix j : Nat) : Nat :=
  let bs := metaBanks s
  let n := bs.length
  let base := lget (metaBase s) bs (j % n)
  match kind with
  | 0 => base + 2 ^ 22 + j / n * 2 ^ 18
  | 3 => base + 3 * 2 ^ 21 + j / n * 32
  | 4 => blockBank s (ix % 2 ^ 14) + j * 4096
  | _ => base + 7 * 2 ^ 20 + j / n * 2048

/-- Key of an item in `Kv.places`: its kind and its index. -/
def itemKey (kind ix : Nat) : Nat := kind * 2 ^ 64 + ix

/-- Index of a head's directory, of a leaf of it, and of an index block (R183, R224). -/
def dirIx (i lh : Nat) : Nat := i * 2 ^ 14 + lh
def leafIx (i lh d : Nat) : Nat := dirIx i lh * 256 + d
def blockIx (i lh b : Nat) : Nat := dirIx i lh * 2 ^ 14 + b

/-- Where an item of the region lies. -/
def rootAt (s : State) (i : Nat) : Nat := tget (metaBase s) s.kv.places (itemKey 0 i)
def dirAt (s : State) (i lh : Nat) : Nat := tget (metaBase s) s.kv.places (itemKey 1 (dirIx i lh))
def leafAt (s : State) (i lh d : Nat) : Nat := tget (metaBase s) s.kv.places (itemKey 2 (leafIx i lh d))
def recAt (s : State) (pid : Nat) : Nat := tget (metaBase s) s.kv.places (itemKey 3 pid)
def blockAt (s : State) (i lh b : Nat) : Nat := tget (blockBank s b) s.kv.places (itemKey 4 (blockIx i lh b))

/-- Where a root's directory addresses begin: after its layers' lengths, on a 16-byte boundary (log entry 131). -/
def dirOff (layers : Nat) : Nat := (4 * layers + 15) / 16 * 16

/-- Bytes of a list of words, and the zeros that fill the last 16 bytes. -/
def wordsOf (n : Nat) (ws : List Nat) : List Byte :=
  let b := ws.flatMap (leBytes n)
  b ++ List.replicate ((16 - b.length % 16) % 16) 0

/-- The heads of a sequence that hold an entry, as layer × 64 + head, and the leaves of one. -/
def headsOf (q : Seq) : List Nat := (q.ptes.map (fun e => e.1 / 131072)).eraseDups
def leavesOf (q : Seq) (lh : Nat) : List Nat :=
  ((q.ptes.filter (fun e => e.1 / 131072 == lh)).map (fun e => e.1 % 131072 / 512)).eraseDups

/-- A root: the lengths, then the directory of each layer and KV head, 0 for none (R183). -/
def rootBytes (s : State) (i : Nat) (q : Seq) : List Byte :=
  let hs := seqHeads s q
  let have_ := headsOf q
  wordsOf 4 q.lens ++ wordsOf 8 ((List.range (q.lens.length * hs)).map (fun x =>
    let lh := x / hs * 64 + x % hs
    if have_.contains lh then dirAt s i lh else 0))

/-- A directory: its 256 leaf addresses, 0 for none (R183). -/
def dirBytes (s : State) (i : Nat) (q : Seq) (lh : Nat) : List Byte :=
  let have_ := leavesOf q lh
  wordsOf 8 ((List.range 256).map (fun d => if have_.contains d then leafAt s i lh d else 0))

/-- A leaf: its 512 page-table entries (R183). -/
def leafBytes (q : Seq) (lh d : Nat) : List Byte :=
  wordsOf 4 ((List.range 512).map (fun x => tget 0 q.ptes (lh * 131072 + d * 512 + x)))

/-- A page record (R184). -/
def pageRecBytes (r : PageRec) : List Byte :=
  wordsOf 8 [r.loc * 2 ^ 61 + r.cls * 2 ^ 59 + b2n r.sealed * 2 ^ 58 + r.fill * 2 ^ 50 + r.addr,
    r.refcnt * 2 ^ 48 + r.sealG, r.score * 2 ^ 32 + r.instep, r.lastG * 2 ^ 24]

/-- The blocks of a head that hold a summary. -/
def blocksOf (q : Seq) (lh : Nat) : List Nat :=
  ((q.sums.filter (fun e => e.1 / 131072 == lh)).map (fun e => e.1 % 131072 / 8)).eraseDups

/-- An index block: 8 summaries of 512 bytes, 0x7FC0 in a slot that has none (R223, R224). -/
def blockBytes (q : Seq) (lh b : Nat) : List Byte :=
  (List.range 8).flatMap (fun u => wordsOf 2 (tget (List.replicate 256 0x7FC0) q.sums (lh * 131072 + 8 * b + u)))

/-- What the region holds of a sequence: items by kind and index, with their bytes. -/
def seqItems (s : State) (i : Nat) (q : Seq) : List (Nat × Nat × List Byte) :=
  (0, i, rootBytes s i q) :: (headsOf q).flatMap (fun lh => (1, dirIx i lh, dirBytes s i q lh)
    :: (leavesOf q lh).map (fun d => (2, leafIx i lh d, leafBytes q lh d)))
  ++ ((q.sums.map (fun e => e.1 / 131072)).eraseDups).flatMap (fun lh =>
    (blocksOf q lh).map (fun b => (4, blockIx i lh b, blockBytes q lh b)))

/-- What the region holds: sequences and page records. -/
def metaItems (s : State) : List (Nat × Nat × List Byte) :=
  s.kv.seqs.flatMap (fun e => seqItems s e.1 e.2) ++ s.kv.recs.map (fun r => (3, r.1, pageRecBytes r.2))

/-- Find a place for an item that has none: the first free one from an open start (log entry 131). -/
def metaPlace (s : State) (kind ix : Nat) : Nat :=
  let n := metaSlots (metaBanks s).length kind
  (((List.range n).map (fun j => slotAt s kind ix ((Config.metaAt kind ix + j) % n))).find? (fun a =>
    !(s.kv.places.any (fun p => p.2 == a)))).getD (metaBase s)

/-- Keep the places of the items there are, and give new items theirs. -/
def placeItems (s : State) : State :=
  let now := (metaItems s).map (fun x => (x.1, x.2.1))
  let s := modKv s (fun k => { k with places := k.places.filter (fun p => now.any (fun x => itemKey x.1 x.2 == p.1)) })
  now.foldl (fun s x => if (tfind s.kv.places (itemKey x.1 x.2)).isSome then s
    else modKv s (fun k => { k with places := tput (itemKey x.1 x.2) (metaPlace s x.1 x.2) k.places })) s

/-- Whether the region has room for what the manager keeps: roots, directories, leaves of 512 entries, page records, and index
blocks of 8 summaries in their banks (R182–R184, R224; log entry 22). -/
def metaRoom (s : State) : Bool :=
  let dirs := keyGroups s 131072 (fun q => q.ptes.map (fun e => e.1))
  let leaves := keyGroups s 512 (fun q => q.ptes.map (fun e => e.1))
  let n := (metaBanks s).length
  let blocks := s.kv.seqs.flatMap (fun e => ((e.2.sums.map (fun x => x.1 / 8)).eraseDups).map (fun b => b % 2 ^ 14 % n))
  Config.metaFits (metaSize s / 2 ^ 30)
    [s.kv.seqs.length, dirs, leaves, (pidsUsed s).length, keyGroups s 8 (fun q => q.sums.map (fun e => e.1))]
  && (metaSize s == 0 || (decide (s.kv.seqs.length ≤ 8 * n) && decide (dirs + leaves ≤ 511 * n)
    && decide ((pidsUsed s).length ≤ 32768 * n) && (List.range n).all (fun k => decide ((blocks.filter (fun x => x == k)).length ≤ 1024))))

/-- The words of an item that differ from what the region held at its place before: (address, 16 bytes). -/
def newWords (old : List (Nat × List Byte)) (x : Nat × List Byte) : List (Nat × List Byte) :=
  let was : List Byte := match old.find? (fun y => y.1 == x.1) with | some y => y.2 | none => []
  (List.range (x.2.length / 16)).filterMap (fun j =>
    let w := (x.2.drop (16 * j)).take 16
    if decide (16 * j + 16 ≤ was.length) && (was.drop (16 * j)).take 16 == w then none else some (x.1 + 16 * j, w))

/-- Items at their places. -/
def itemsAt (s : State) : List (Nat × List Byte) := (metaItems s).map (fun x => (tget 0 s.kv.places (itemKey x.1 x.2.1), x.2.2))

/-- What is left of the items that went: a record no longer in use reads LOC 0 (R184), and an index block that has lost its last
summary holds empty slots (R224), unless another item has the place by now. -/
def goneItems (before after : State) : List (Nat × List Byte) :=
  (before.kv.places.filter (fun p => (p.1 / 2 ^ 64 == 3 || p.1 / 2 ^ 64 == 4) && (tfind after.kv.places p.1).isNone
    && !(after.kv.places.any (fun q => q.2 == p.2)))).map (fun p => (p.2, if p.1 / 2 ^ 64 = 3 then List.replicate 32 (0 : Byte)
      else (List.range 8).flatMap (fun _ => wordsOf 2 (List.replicate 256 0x7FC0))))

/-- What an operation changed in the tables is written into the region, in whole words (R182), each as soon as its bank lets it
(R155; log entry 131). -/
def metaSync (before after : State) : State :=
  if metaSize after = 0 || (before.kv.seqs == after.kv.seqs && before.kv.recs == after.kv.recs) then after
  else
    let t := placeItems after
    let w := (itemsAt t ++ goneItems before t).flatMap (newWords (itemsAt before))
    flushOwed (modKv t (fun k => { k with owed := k.owed.filter (fun x => !(w.any (fun y => y.1 == x.1))) ++ w }))

/-- A step of the manager, with what it changes written into the region. -/
def metaDo (f : State → State) (s : State) : State := metaSync s (f s)

/-- The words of the region that lead to a page of a sequence: root, directory, leaf and record (R183). -/
def walkWords (s : State) (i : Nat) (q : Seq) (key : Nat) : List Nat :=
  let lh := key / 131072
  let p := key % 131072
  let e := tget 0 q.ptes key
  [rootAt s i + (dirOff q.lens.length + 8 * (lh / 64 * seqHeads s q + lh % 64)) / 16 * 16,
   dirAt s i lh + p / 512 / 2 * 16, leafAt s i lh (p / 512) + p % 512 / 4 * 16]
  ++ if pteValid e then [recAt s (ptePid e), recAt s (ptePid e) + 16] else []

/-- Whether a retired item may return: no reader holds a pin of its stamp or lower (R196). -/
def mayReturn (s : State) (r : Retired) : Bool := s.kv.readers.all (fun p => decide (r.ret < p.2))

/-- Every item that may return goes back to its pool. -/
def returnRetired (s : State) : State :=
  let back := s.kv.retired.filter (mayReturn s)
  let of := fun (k : Nat) => (back.filter (fun r => r.kind == k)).map (fun r => r.addr)
  modKv s (fun k => { k with retired := k.retired.filter (fun r => !(back.contains r)),
                             frames := k.frames.filter (fun a => !((of 0).contains a)),
                             slots := k.slots.filter (fun a => !((of 1).contains a)),
                             swaps := k.swaps.filter (fun a => !((of 2).contains a)),
                             images := k.images.filter (fun a => !((of 2).any (fun x => x / 4 == a.1))) })

/-- Whether a reader slot is free (R195). Copies and moves take one and free it within their step. -/
def readerFree (s : State) : Bool := decide (s.kv.readers.length < 256)

end Sys2Proof.Machine
end

