-- ==== Sys2Proof/Machine/Clearing.lean ====
section
/-! DEFINITION. What a change of tenant, a compute reset and a cold reset clear (R105, R130, R132, R172, R215, R256, R317). -/

namespace Sys2Proof.Machine

/-- Every read-only cache is invalidated (R132). -/
def rocClearAll (s : State) : State := { s with clu := s.clu.map (fun p => (p.1, { p.2 with roc := [], rocErr := [] })) }

/-- Flush every tower cache with invalidate, clear its detectors and apply TC_WAY_EN (R256). -/
def cachesClear (s : State) : State :=
  foldUp 16 (fun s t =>
    let s := flushTower s t true
    setTc s t { Tc.init with wayCe := (tcOf s t).wayCe, wayEn := fget s .TC_WAY_EN [t] Fld.TC_WAY_EN_EN }) s

/-- The KV page manager loses its sequences, page records, index, spill and swap areas, counters E and G and reader slots. -/
def kvLose (s : State) : State :=
  { s with kv := { Kv.init with pool := s.kv.pool, lost := s.kv.lost, profiles := s.kv.profiles },
           attends := [], pageRuns := [], floor := [], mrg := [] }

/-- They are emptied, in the metadata region too (R215). -/
def kvClear (s : State) : State :=
  let t := kvLose s
  metaSync s (modKv t (fun k => { k with places := s.kv.places, owed := s.kv.owed }))

/-- A unit's tenant part is cleared (R172). DESIGN CHOICE (log entry 174): a tenant command that waits at the unit is dropped, one
that runs goes on. -/
def unitTenantClear (u : NbUnit) : NbUnit :=
  { u with latch := [], si := 0, ac := [0, 0, 0, 0], lc := [0, 0, 0, 0], p := List.replicate 16 0,
           g := List.replicate 4 0xFFF ++ u.g.drop 4, store := lset u.store 0 [], valid := lset u.valid 0 false,
           pendT := none }

/-- Whether an offset lies in a register of command slots 0 to 47 of a tower (R146). -/
def tenantSlotOff (o : Nat) : Bool :=
  decide (0x1000000 ≤ o) && decide (o < 0x2000000) && decide (0x80000 ≤ o % 0x100000) && decide (o % 0x100000 < 0x80000 + 48 * 0x400)

/-- A cluster after the clearing: registers, channels, queues and matrix state (R105, R130). -/
def cluClear (x : Clu) : Clu := { Clu.init with launch := x.launch, fixed := x.fixed }

/-- Every scratchpad is filled with zeros carrying valid codewords (R130). -/
def scratchClear (s : State) : State := zeroFill s spBase (apBase - spBase)

/-- The lines hosts hold are resolved (R317): `lost` are those whose BIRsp did not arrive, which are abandoned and logged.
Otherwise the step waits for the answers. -/
def resolveAll (lost : List Nat) (s : State) : State :=
  let gone := fun (t : Tracked) => lost.contains t.line || s.host.timed.contains t.line
  let s := (s.host.filter.filter gone).foldl (fun s t =>
    logEv s 0x0F 4 5 (2 * t.port) 0 0 (2 ^ 48 + 4 * t.line % 2 ^ 44)) s
  let rest := s.host.filter.filter (fun t => !(gone t))
  { s with host := { s.host with filter := rest, timed := [],
                                 hit := s.host.hit ++ rest.map (fun t => Need.snoop ⟨t.line, t.port, true⟩) } }

/-- Every halt of a matrix queue is cleared (R99). -/
def unhaltMatrix (s : State) : State :=
  foldUp 1024 (fun s c => if mxHalted s c then fset s .MX_STAT (tk c) Fld.MX_STAT_HALTED 0 else s) s

/-- The clearing of a change of tenant (R99, R124, R130 and the rules they name). -/
def tenantClear (s : State) : State :=
  let s := resolveAll [] s
  let s := cachesClear s
  let s := kvClear (scratchClear s)
  { s with clu := s.clu.map (fun p => (p.1, cluClear p.2)),
           nb := s.nb.map (fun p => (p.1, unitTenantClear p.2)),
           regs := s.regs.filter (fun e => !(tenantSlotOff e.1)),
           nbOut := s.nbOut.filter (fun e => decide (48 ≤ e.1 % 64)),
           groups := [], readies := [] } |> unhaltMatrix |> regsReset (fun r =>
    r == .CORE_STAT || r == .CORE_TRAP || r == .CORE_EPC || r == .CORE_TVAL || r == .CORE_QSTALL || r == .VX_STAT
      || r == .DMA_CH_PTR || r == .DMA_CH_STAT)

end Sys2Proof.Machine
end

