-- ==== Sys2Proof/Machine/Tarhel.lean ====
section
/-! DEFINITION. Queues, rings, command fetch and replies (R258–R273). -/

namespace Sys2Proof.Machine

/-! ### Queue registers -/

/-- Ring size as a power of two: 0 and 13–15 are treated as 1. -/
def qsz (s : State) (q : Nat) : Nat :=
  let z := fget s .QD_Q_CFG [q] Fld.QD_Q_CFG_QSZ
  if z = 0 ∨ 12 < z then 1 else z

def ringLen (s : State) (q : Nat) : Nat := 2 ^ qsz s q
def sqBase (s : State) (q : Nat) : Nat := fget s .QD_SQ_BASE [q] Fld.QD_SQ_BASE_BASE * 64
def cqBase (s : State) (q : Nat) : Nat := fget s .QD_CQ_BASE [q] Fld.QD_CQ_BASE_BASE * 64
def sqHead (s : State) (q : Nat) : Nat := fget s .QD_Q_PTR [q] Fld.QD_Q_PTR_SQ_HEAD
def sqTail (s : State) (q : Nat) : Nat := fget s .QD_Q_PTR [q] Fld.QD_Q_PTR_SQ_TAIL
def cqHead (s : State) (q : Nat) : Nat := fget s .QD_Q_PTR [q] Fld.QD_Q_PTR_CQ_HEAD
def cqTail (s : State) (q : Nat) : Nat := fget s .QD_Q_PTR [q] Fld.QD_Q_PTR_CQ_TAIL

/-- A difference of 16-bit counts. -/
def ptrDiff (a b : Nat) : Nat := (a + 65536 - b % 65536) % 65536

def sqAddr (s : State) (q e : Nat) : Nat := sqBase s q + 64 * (e % ringLen s q)
def cqAddr (s : State) (q c : Nat) : Nat := cqBase s q + 32 * (c % ringLen s q)

def qEnabled (s : State) (q : Nat) : Bool := fbit s .QD_Q_CTL [q] Fld.QD_Q_CTL_EN
def qError (s : State) (q : Nat) : Bool := fbit s .QD_Q_STAT [q] Fld.QD_Q_STAT_ERROR
def qFenced (s : State) (q : Nat) : Bool := fbit s .QD_Q_STAT [q] Fld.QD_Q_STAT_FENCED
def qResetting (s : State) (q : Nat) : Bool := fbit s .QD_Q_CTL [q] Fld.QD_Q_CTL_RESET
def qTenant (s : State) (q : Nat) : Bool := fbit s .QD_Q_CFG [q] Fld.QD_Q_CFG_OWNER

/-- Commands of a queue in flight, in ring order (R262). -/
def qCmds (s : State) (q : Nat) : List Cmd := s.cmds.filter (fun c => c.q == q)

/-- The agent of a queue's own work. -/
def qAgent (s : State) (q : Nat) : Agent := cmdAgent (queueJob s q)

/-! ### Commands -/

def cmdOf (s : State) (id : Nat) : Option Cmd := s.cmds.find? (fun c => c.id == id)

def setCmd (s : State) (c : Cmd) : State := { s with cmds := s.cmds.map (fun x => if x.id == c.id then c else x) }

/-- A command's outcome is known; its reply waits for its turn (R268). -/
def finish (s : State) (id st det : Nat) : State :=
  match cmdOf s id with
  | none => s
  | some c => if c.status.isSome then s else setCmd s { c with begun := true, status := some st, detail := det % 2 ^ 64 }

/-- A parameter field (R274). -/
def par (c : Cmd) (off size : Nat) : Nat := leNat ((c.par.drop off).take size)

/-- The job of a command's queue. -/
def cmdJob (s : State) (c : Cmd) : Nat := queueJob s c.q

/-- The agent of a command. -/
def agentOf (s : State) (c : Cmd) : Agent := { cmdAgent (cmdJob s c) with oper := !(qTenant s c.q) }

/-- Opcodes that wait as if BARRIER were set (R267). -/
def alwaysBarrier (opc : Nat) : Bool := opc == 0x02 || opc == 0x03 || opc == 0xA0 || opc == 0xA1

/-- Whether the unit that runs an opcode has no clock: the KV page manager, or the collective engine, which can also be gated
(R393, R395, R398). -/
def engineStops (s : State) (opc : Nat) : Bool :=
  (decide (0x30 ≤ opc ∧ opc ≤ 0x45) && noClock s 2104)
    || ((opc == 0x60 || opc == 0x61 || decide (0x70 ≤ opc ∧ opc ≤ 0x78)) && (noClock s 2103 || tbit (rget s .CLK_GATE []) 18))

/-- Whether a fetched command may start (R267): ring order, its barrier, no fence on its queue (R271), and, while the device is
Held, only COMPUTE_RESET and HELD_RELEASE, whose queues may be fenced (R345). -/
def canStart (s : State) (c : Cmd) : Bool :=
  let before := (qCmds s c.q).filter (fun x => decide (x.id < c.id))
  c.status.isNone && !c.begun && before.all (fun x => x.begun || x.status.isSome)
    && (before.isEmpty || !(tbit c.flags 0 || alwaysBarrier c.opc)) && !(qFenced s c.q)
    && (!(isHeld s) || c.opc == 0xA0 || c.opc == 0xA1) && !(engineStops s c.opc)

/-- Mark a command as begun. -/
def beginCmd (s : State) (c : Cmd) : State := setCmd s { c with begun := true }

/-- Start a command of an opcode when it may start. -/
def cmdStart (k opc : Nat) (f : Cmd → State → State) (s : State) : State :=
  match cmdOf s k with
  | none => s
  | some c => if c.opc = opc && canStart s c then f c (beginCmd s c) else s

/-- Start a command, or take a begun one further. -/
def cmdGo (k opc : Nat) (f : Cmd → State → State) (s : State) : State :=
  match cmdOf s k with
  | none => s
  | some c =>
    if c.opc ≠ opc then s
    else if canStart s c then f c (beginCmd s c)
    else if c.begun && c.status.isNone && !(qFenced s c.q) && !(isHeld s) then f c s else s

/-! ### Fetch (R262, R263, R265) -/

/-- The parameter fields of an opcode as (offset, size), and whether it is Operator-only (R274). `layers` is the LAYERS field
of a KV_PROFILE_SET. -/
def opFields (opc layers : Nat) : Option (List (Nat × Nat) × Bool) :=
  match opc with
  | 0x00 => some ([], false)
  | 0x01 => some ([(0, 1), (8, 8)], false)
  | 0x02 => some ([(0, 8), (8, 8)], false)
  | 0x03 => some ([(0, 1)], true)
  | 0x10 => some ([(0, 8), (8, 8)], false)
  | 0x11 => some ([(0, 8), (8, 8), (16, 8), (24, 8), (32, 4), (36, 1)], false)
  | 0x20 => some ([(0, 8), (8, 8), (16, 2), (18, 2)], false)
  | 0x21 => some ([(0, 8), (8, 2)], false)
  | 0x30 => some ([(0, 2), (2, 2), (4, 2), (8, 4), (12, 4), (16, 4), (24, 8), (32, 2)], true)
  | 0x31 => some ([(0, 1), (1, 1), (2, 2), (8, 8 * layers)], false)
  | 0x32 => some ([(0, 1), (2, 2)], false)
  | 0x33 => some ([(0, 2), (4, 4)], false)
  | 0x34 => some ([(0, 2)], false)
  | 0x35 => some ([(0, 2), (4, 4)], false)
  | 0x36 => some ([(0, 1), (1, 1), (2, 2), (8, 8), (16, 8)], false)
  | 0x37 => some ([(0, 2), (2, 1), (3, 1), (4, 1), (5, 1), (8, 4), (12, 4), (16, 8)], false)
  | 0x38 => some ([(0, 1), (1, 1), (2, 1), (4, 2), (6, 2), (8, 4), (16, 8), (24, 8)], false)
  | 0x40 => some ([(0, 8), (8, 4)], true)
  | 0x41 => some ([(0, 8), (8, 4)], true)
  | 0x42 => some ([(0, 2), (2, 1), (3, 1), (4, 4), (8, 4)], false)
  | 0x43 => some ([(0, 2), (2, 1), (3, 1), (4, 4), (8, 4)], false)
  | 0x44 => some ([(0, 2)], false)
  | 0x45 => some ([(0, 2)], false)
  | 0x50 => some ([(0, 2), (2, 2), (4, 1), (8, 8), (16, 8)], false)
  | 0x51 => some ([(0, 2)], false)
  | 0x52 => some ([(0, 2), (2, 1), (8, 8), (16, 8), (24, 8)], true)
  | 0x53 => some ([(0, 2)], true)
  | 0x60 => some ([(0, 32)], false)
  | 0x61 => some ([(0, 8), (8, 4)], false)
  | 0x78 => some ([(0, 2), (2, 2), (8, 8)], false)
  | 0x80 => some ([(0, 8), (8, 4), (12, 4), (16, 4)], true)
  | 0x81 => some ([(0, 8), (8, 1), (10, 2)], true)
  | 0x82 => some ([(0, 4), (4, 4)], true)
  | 0x90 => some ([(0, 8), (8, 4), (12, 2)], false)
  | 0x91 => some ([(0, 8), (8, 1)], false)
  | 0x92 => some ([], true)
  | 0xA0 => some ([], true)
  | 0xA1 => some ([], true)
  | _ =>
    if 0x70 ≤ opc ∧ opc ≤ 0x77 then some ([(0, 2), (2, 1), (3, 1), (8, 8), (16, 8), (24, 8), (32, 8)], false)
    else if 0xF0 ≤ opc ∧ opc ≤ 0xFF then some ([], true) else none

/-- Whether every parameter byte that no field covers is 0. -/
def gapsZero (fs : List (Nat × Nat)) (par : List Byte) : Bool :=
  (List.range par.length).all (fun i => lget 0 par i == 0 || fs.any (fun f => decide (f.1 ≤ i) && decide (i < f.1 + f.2)))

/-- The fetch checks of R265: the refusing status, or none. -/
def fetchCheck (s : State) (q hdr : Nat) (par : List Byte) : Option Nat :=
  let opc := bits hdr 7 0
  match opFields opc (leNat ((par.drop 2).take 2)) with
  | none => some 0x0101
  | some (fs, op) =>
    if bits hdr 31 24 != 0 || bits hdr 15 10 != 0 || !(gapsZero fs par)
        || fs.any (fun f => decide (par.length < f.1 + f.2)) then some 0x0101
    else if op && qTenant s q then some 0x0701
    else if 0x10 ≤ opc ∧ opc ≤ 0x7F ∧ queueJob s q = 0 then some 0x0105
    else none

/-- The status a command reports without starting because its queue is FENCED or the device Held (R271, R273, R345). -/
def stoppedStatus (s : State) (q opc : Nat) : Option Nat :=
  if qFenced s q then some (if isHeld s then 0x0602 else 0x0601)
  else if isHeld s && !(opc == 0xA0 || opc == 0xA1) then some 0x0602 else none

/-- Put a command in flight. -/
def pushCmd (s : State) (q hdr : Nat) (par : List Byte) (st : Option Nat) : State :=
  let c : Cmd := { id := s.nextCmd, q := q, tag := bits hdr 63 32, opc := bits hdr 7 0, flags := bits hdr 15 8, par := par,
                   begun := st.isSome, status := st, detail := 0 }
  { s with cmds := s.cmds ++ [c], nextCmd := s.nextCmd + 1 }

/-- A queue stops fetching and sets ERROR (R263). -/
def queueError (s : State) (q : Nat) : State :=
  fset (fset s .QD_Q_STAT [q] Fld.QD_Q_STAT_ERROR 1) .QD_Q_STAT [q] Fld.QD_Q_STAT_ENABLED 0

/-- Whether fetching goes on at all: it stops while a compute reset or re-verify runs (R439). -/
def fetchRuns (s : State) : Bool := !(s.rcv.stage == 4 || s.rcv.stage == 5)

/-- Whether a queue may fetch, its next command's LEN apart (R262). -/
def fetchOpen (s : State) (q : Nat) : Bool :=
  qEnabled s q && !(qError s q) && !(qResetting s q) && fetchRuns s
    && decide ((qCmds s q).length < 64) && decide (s.cmds.length < 1024)
    && decide (ptrDiff (cqTail s q) (cqHead s q) + (qCmds s q).length < ringLen s q)

/-- Whether the Owl has something to serve at a queue. -/
def fetchReady (s : State) (q : Nat) : Bool := fetchOpen s q && ptrDiff (sqTail s q) (sqHead s q) != 0

/-- Whether it is a queue's turn: no queue between the one served last and this has anything (R262). -/
def fetchTurn (s : State) (q : Nat) : Bool :=
  (List.range ((q + 2 * nQueues - s.turn - 1) % nQueues)).all (fun i => !(fetchReady s ((s.turn + 1 + i) % nQueues)))

/-- The Owl serves a queue: one command, round-robin (R262). A header that cannot be read leaves its TAG and opcode open. -/
def fetch (q : Nat) (s : State) : State :=
  let av := ptrDiff (sqTail s q) (sqHead s q)
  if !(fetchReady s q) || !(fetchTurn s q) then s
  else
    let s := { s with turn := q }
    let k := qAgent s q
    let h := accRead s k (sqAddr s q (sqHead s q)) 64
    if h.st != 0 then
      let f := free h.s
      queueError (pushCmd f.2 q (f.1 % 2 ^ 64) [] (some h.st)) q
    else
      let hdr := leNat (h.bytes.take 8)
      let len := bits hdr 23 16
      if len = 0 || decide (64 < len) || decide (ringLen s q < len) then queueError (pushCmd h.s q hdr [] (some 0x0101)) q
      else if av < len then s
      else
        let r := (List.range (len - 1)).foldl (fun (acc : Nat × List Byte × State) i =>
          if acc.1 != 0 then acc
          else
            let x := accRead acc.2.2 k (sqAddr s q (sqHead s q + 1 + i)) 64
            (x.st, acc.2.1 ++ x.bytes, x.s)) (0, h.bytes.drop 8, h.s)
        if r.1 != 0 then queueError (pushCmd r.2.2 q hdr [] (some r.1)) q
        else
          let s := fset r.2.2 .QD_Q_PTR [q] Fld.QD_Q_PTR_SQ_HEAD (sqHead s q + len)
          let st := match stoppedStatus s q (bits hdr 7 0) with
            | some x => some x
            | none => fetchCheck s q hdr r.2.1
          pushCmd s q hdr r.2.1 st

/-! ### Replies (R263, R266, R268, R269) -/

/-- The 32 bytes of a reply (R266). -/
def replyBytes (s : State) (c : Cmd) (st : Nat) : List Byte :=
  let n := rget s .QD_Q_COUNT [c.q] + 1
  let phase := 1 - ((n - 1) / ringLen s c.q) % 2
  leBytes 8 (c.tag * 2 ^ 32 + st % 2 ^ 16 * 2 ^ 16 + c.opc * 2 ^ 8 + phase)
    ++ leBytes 8 ((qdOf s c.q).fence * 2 ^ 32 + sqHead s c.q) ++ leBytes 8 n ++ leBytes 8 c.detail

/-- Signal a queue's interrupt (R269). -/
def queueIrq (s : State) (q : Nat) : State :=
  let p := fget s .QD_Q_CFG [q] Fld.QD_Q_CFG_PORT
  if portRole s p = 1 then emit s (.msix p (fget s .QD_Q_CFG [q] Fld.QD_Q_CFG_VEC)) else s

/-- Every WAIT_QUEUE that watches a queue and reached its count completes; with `gone`, every one is abandoned (R274). -/
def wakeWaits (q : Nat) (gone : Bool) (s : State) : State :=
  let n := rget s .QD_Q_COUNT [q]
  { s with cmds := s.cmds.map (fun c =>
      if c.opc = 0x01 && c.begun && c.status.isNone && par c 0 1 = q then
        (if gone then { c with status := some 0x0103, detail := n }
         else if par c 8 8 ≤ n then { c with status := some 0, detail := n } else c)
      else c) }

/-- A queue reset completes once no command of the queue is in flight (R263). -/
def resetDone (q : Nat) (s : State) : State :=
  if qResetting s q && (qCmds s q).isEmpty then
    let s := wakeWaits q true s
    let s := rput (rput s .QD_Q_PTR [q] 0) .QD_Q_COUNT [q] 0
    let s := [Fld.QD_Q_STAT_ERROR, Fld.QD_Q_STAT_CQ_ERR, Fld.QD_Q_STAT_FENCED, Fld.QD_Q_STAT_ENABLED].foldl
      (fun s f => fset s .QD_Q_STAT [q] f 0) s
    fset (fset s .QD_Q_CTL [q] Fld.QD_Q_CTL_RESET 0) .QD_Q_CTL [q] Fld.QD_Q_CTL_EN 0
  else s

/-- Post the oldest command's reply of a queue when its outcome is known (R268); while the device is Held that of `heldStatus`. -/
def postOne (q : Nat) (s : State) : State :=
  match qCmds s q with
  | [] => s
  | c :: _ =>
    match if isHeld s then heldStatus s c else c.status with
    | none => s
    | some st =>
      let b := replyBytes s (if c.status == some st then c else { c with detail := 0 }) st
      let w := accWrite s (qAgent s q) (cqAddr s q (cqTail s q)) b
      let s := { w.2 with cmds := w.2.cmds.filter (fun x => x.id != c.id) }
      let s := rput s .QD_Q_COUNT [q] (rget s .QD_Q_COUNT [q] + 1)
      let s := fset s .QD_Q_PTR [q] Fld.QD_Q_PTR_CQ_TAIL (cqTail s q + 1)
      let x := qdOf s q
      let newF := decide (x.fence ≠ 0) && decide (x.told ≠ x.fence)
      let s := { s with qd := tput q { x with told := x.fence } s.qd }
      let s := if w.1 != 0 then fset (queueError s q) .QD_Q_STAT [q] Fld.QD_Q_STAT_CQ_ERR 1 else s
      let s := if w.1 != 0 || tbit c.flags 1 || newF then queueIrq s q else s
      resetDone q (wakeWaits q false s)

/-- Post every reply of a queue whose turn has come. -/
def postAll (q : Nat) (s : State) : State := foldUp (qCmds s q).length (fun s _ => postOne q s) s

/-- Whether a compute reset is under way: by command from its start, else from the compute reset stage to ready (R273, R347). -/
def resetRuns (s : State) : Bool :=
  decide (4 ≤ s.rcv.stage ∧ s.rcv.stage ≤ 5) || (s.rcv.byCommand && decide (1 ≤ s.rcv.stage ∧ s.rcv.stage ≤ 5))

/-- Whether a queue's replies are held back: from a fault of its job to the drain, which posts them under R271 (R338; log
entry 133); on a JOB 0 queue during a compute reset, whose own reply comes first (R273). A queue with the waiting COMPUTE_RESET
may post what stands before it, which had finished (R267). -/
def replyHeld (s : State) (q : Nat) : Bool :=
  if queueJob s q = 0 then resetRuns s && !((qCmds s q).any (fun c => s.rcv.waiters.contains c.id))
  else (s.rcv.stage == 1 || s.rcv.stage == 2) && s.rcv.jobs.contains (queueJob s q)

/-- Finish a command and post the replies of its queue whose turn has come: the rows whose replies post with them. -/
def finishPost (s : State) (c : Cmd) (st det : Nat) : State :=
  let t := finish s c.id st det
  if replyHeld t c.q then t else postAll c.q t

/-! ### Queue control (R259–R261, R263, R272) -/

/-- Whether a ring lies wholly in stack DRAM, the host window range or the remote window range (R258). -/
def ringOk (a n : Nat) : Bool :=
  decide (a + n ≤ spBase) || (decide (0x200000000000 ≤ a) && decide (a + n ≤ 0x400000000000))
    || (decide (0x400000000000 ≤ a) && decide (a + n ≤ 0x800000000000))

/-- A write of EN = 1 (R259). -/
def queueEnable (q : Nat) (s : State) : State :=
  if qEnabled s q then s
  else if !(ringOk (sqBase s q) (64 * ringLen s q)) || !(ringOk (cqBase s q) (32 * ringLen s q)) then
    fset s .QD_Q_STAT [q] Fld.QD_Q_STAT_CFG_ERR 1
  else
    let s := rput (rput s .QD_Q_PTR [q] 0) .QD_Q_COUNT [q] 0
    let s := fset (fset s .QD_Q_STAT [q] Fld.QD_Q_STAT_CFG_ERR 0) .QD_Q_STAT [q] Fld.QD_Q_STAT_ENABLED (b2n (!(qError s q)))
    fset { s with qd := tput q ⟨0, 0⟩ s.qd } .QD_Q_CTL [q] Fld.QD_Q_CTL_EN 1

/-- A write of EN = 0 (R259): fetching stops, and waits on the queue are abandoned (R274). -/
def queueDisable (q : Nat) (s : State) : State :=
  if !(qEnabled s q) then s
  else wakeWaits q true (fset (fset s .QD_Q_CTL [q] Fld.QD_Q_CTL_EN 0) .QD_Q_STAT [q] Fld.QD_Q_STAT_ENABLED 0)

/-- A write of RESET (R263). -/
def queueReset (q : Nat) (s : State) : State :=
  let s := fset (fset s .QD_Q_CTL [q] Fld.QD_Q_CTL_RESET 1) .QD_Q_STAT [q] Fld.QD_Q_STAT_ENABLED 0
  resetDone q (wakeWaits q true s)

/-- A write of FENCE_ACK: it clears FENCED once the device has reported ready after the queue's last fence (R272). -/
def fenceAck (q : Nat) (s : State) : State :=
  if (s.rcv.acked + 2 ^ 32 - fget s .QD_Q_STAT [q] Fld.QD_Q_STAT_FENCE) % 2 ^ 32 < 2 ^ 31 then
    fset s .QD_Q_STAT [q] Fld.QD_Q_STAT_FENCED 0
  else s

/-- A write of QD_DB_SQ (R261). -/
def doorbellSq (q v : Nat) (s : State) : State :=
  if ringLen s q < ptrDiff (v % 65536) (sqHead s q) then fset s .QD_Q_STAT [q] Fld.QD_Q_STAT_DB_ERR 1
  else fset s .QD_Q_PTR [q] Fld.QD_Q_PTR_SQ_TAIL v

/-- A write of QD_DB_CQ (R261). -/
def doorbellCq (q v : Nat) (s : State) : State :=
  if ringLen s q < ptrDiff (cqTail s q) (v % 65536) then fset s .QD_Q_STAT [q] Fld.QD_Q_STAT_DB_ERR 1
  else fset s .QD_Q_PTR [q] Fld.QD_Q_PTR_CQ_HEAD v

/-! ### Plain commands (R274) -/

/-- WAIT_QUEUE. -/
def waitQueue (c : Cmd) (s : State) : State :=
  let q := par c 0 1
  let n := rget s .QD_Q_COUNT [q]
  if q = c.q then finishPost s c 0x0103 n
  else if par c 8 8 ≤ n then finishPost s c 0 n
  else if !(qEnabled s q) then finishPost s c 0x0103 n else s

/-- SIGNAL (R69). -/
def signal (c : Cmd) (s : State) : State :=
  let a := par c 0 8
  if a % 8 != 0 then finishPost s c 0x0101 0
  else
    let w := accWrite s (agentOf s c) a (leBytes 8 (par c 8 8))
    finishPost w.2 c w.1 0

/-- TENANT_SWITCH. -/
def tenantSwitch (c : Cmd) (s : State) : State :=
  let busy := (List.range nQueues).any (fun q => qTenant s q && (qEnabled s q || !(qCmds s q).isEmpty))
  if fget s .LCS_TENANT [] Fld.LCS_TENANT_TENANT_MAX < par c 0 1 then finishPost s c 0x0701 0
  else if busy then finishPost s c 0x0104 0
  else finishPost { tenantClear s with tenant := par c 0 1 } c 0 s.tenant

def execReplyPost (q : Fin 256) (s : State) : Res3 := s.run (fun s => if replyHeld s q.val then s else postOne q.val s)
def execTarhelNop (k : Nat) (s : State) : Res3 := s.run (cmdStart k 0x00 (fun c s => finishPost s c 0 0))
def execWaitQueue (k : Nat) (s : State) : Res3 := s.run (cmdStart k 0x01 waitQueue)
def execSignal (k : Nat) (s : State) : Res3 := s.run (cmdStart k 0x02 signal)
def execTenantSwitch (k : Nat) (s : State) : Res3 := s.run (cmdStart k 0x03 tenantSwitch)
def execVendorTest (k : Nat) (s : State) : Res3 :=
  s.run (fun s => match cmdOf s k with
    | some c => if 0xF0 ≤ c.opc then cmdStart k c.opc (fun c s => finishPost s c 0x0101 0) s else s
    | none => s)

end Sys2Proof.Machine
end

