-- ==== Sys2Proof/Machine/Launch.lean ====
section
/-! DEFINITION. Code loading, launches, graphs and the local copy channels (R118, R141–R143, R270, R275–R278, R280). -/

namespace Sys2Proof.Machine

/-! ### Code and model loading -/

/-- Fields of a code object's header (R141). -/
structure CodeHdr where
  magic   : Nat
  version : Nat
  codeLen : Nat
  entry   : Nat
  handler : Nat
  spNeed  : Nat
  argLen  : Nat
  crc     : Nat
  deriving DecidableEq, Repr

def codeHdr (b : List Byte) : CodeHdr :=
  let f := fun off n => leNat ((b.drop off).take n)
  ⟨f 0 4, f 4 2, f 8 4, f 12 4, f 16 4, f 20 4, f 24 4, f 28 4⟩

/-- The first failing check of R275 before the CRC; 0 when all pass. -/
def hdrCheck (h : CodeHdr) : Nat :=
  if h.magic ≠ 0x57524853 then 1
  else if h.version ≠ 1 then 2
  else if h.codeLen % 4 ≠ 0 ∨ 2 ^ 24 < h.codeLen then 3
  else if h.entry % 4 ≠ 0 ∨ h.codeLen ≤ h.entry ∨ h.handler % 4 ≠ 0 ∨ h.codeLen ≤ h.handler then 4
  else if 4096 < h.argLen then 5 else 0

/-- CODE_LOAD (R275). -/
def codeLoad (c : Cmd) (s : State) : State :=
  let src := par c 0 8
  let dst := par c 8 8
  let done := fun (s : State) st det => finish (rocClearAll s) c.id st det
  if src % 64 != 0 || dst % 64 != 0 || decide (spBase ≤ dst) then done s 0x0130 0
  else
    let h := accRead s (agentOf s c) src 64
    if h.st != 0 then done h.s h.st 0
    else
      let x := codeHdr h.bytes
      let k := hdrCheck x
      if k != 0 then done h.s 0x0130 k
      else if !(mapped h.s src (64 + x.codeLen)) || !(mapped h.s dst (64 + x.codeLen)) then done h.s 0x0301 0
      else
        let r := accRead h.s (agentOf s c) (src + 64) x.codeLen
        if r.st != 0 then done r.s r.st 0
        else if crc32c r.bytes ≠ x.crc then done r.s 0x0130 6
        else
          let w := accWrite r.s (agentOf s c) dst (h.bytes ++ r.bytes)
          done w.2 w.1 (if w.1 = 0 then x.codeLen else 0)

/-- MODEL_LOAD with CONV 0, or with a reserved CONV (R276). -/
def modelLoad (c : Cmd) (s : State) : State :=
  let src := par c 0 8
  let dst := par c 16 8
  let n := par c 32 4
  let done := fun (s : State) st det => finish (rocClearAll s) c.id st det
  if par c 36 1 != 0 || dst % 16 != 0 || n % 16 != 0 || par c 8 8 != 0 || par c 24 8 != 0
      || decide (spBase < dst + n) then done s 0x0134 0
  else if !(mapped s src n) || !(mapped s dst n) then done s 0x0301 0
  else
    let r := accRead s (agentOf s c) src n
    if r.st != 0 then done r.s r.st 0
    else
      let w := accWrite r.s (agentOf s c) dst r.bytes
      done w.2 w.1 0

/-- Start a MODEL_LOAD whose CONV is, or is not, a conversion. -/
def loadStart (conv : Bool) (k : Nat) (f : Cmd → State → State) (s : State) : State :=
  match cmdOf s k with
  | none => s
  | some c => if (decide (1 ≤ par c 36 1) && decide (par c 36 1 ≤ 4)) == conv then cmdStart k 0x11 f s else s

/-! ### Launches -/

/-- Whether a launch of a header on a range of clusters is invalid (R277). -/
def launchBad (s : State) (h : CodeHdr) (lfirst lcount : Nat) : Bool :=
  h.magic != 0x57524853 || h.version != 1 || decide (4096 < h.argLen) || decide (2 ^ 22 < h.spNeed + 4096) || lcount == 0
    || decide (grade s < lfirst + lcount) || (List.range lcount).any (fun r => !(present s (lfirst + r)))

def launchOf (s : State) (id : Nat) : Option Launch := s.launches.find? (fun l => l.id == id)

def setLaunch (s : State) (l : Launch) : State := { s with launches := s.launches.map (fun x => if x.id == l.id then l else x) }

/-- Identity of a launch: its command and node. -/
def launchId (cmd node : Nat) : Nat := 8192 * cmd + node

/-- LAUNCH (R277): checked, it claims its clusters. -/
def launch (c : Cmd) (s : State) : State :=
  let h := accRead s (agentOf s c) (par c 0 8) 64
  if h.st != 0 then finish h.s c.id h.st 0
  else
    let x := codeHdr h.bytes
    if launchBad h.s x (par c 16 2) (par c 18 2) then finish h.s c.id 0x0131 0
    else
      let l : Launch := { id := launchId c.id 0, cmd := c.id, node := 0, graph := false, code := par c 0 8, args := par c 8 8,
                          lfirst := par c 16 2, lcount := par c 18 2, started := false, ended := none,
                          entry := x.entry, handler := x.handler, argLen := x.argLen }
      { h.s with launches := h.s.launches ++ [l] }

/-- The logical clusters of a launch. -/
def launchSet (l : Launch) : List Nat := (List.range l.lcount).map (fun r => l.lfirst + r)

/-- Clusters, as (first, count), that a command claims for launches or nodes that have not begun (R270). A graph not yet read
claims those of its records, and every cluster where they lie outside stack DRAM (log entry 144). -/
def claimsOf (s : State) (c : Cmd) : List (Nat × Nat) :=
  if c.status.isSome then []
  else if c.opc = 0x20 then (if c.begun then [] else [(par c 16 2, par c 18 2)])
  else if c.opc ≠ 0x21 then []
  else match s.graphs.find? (fun g => g.cmd == c.id) with
    | some g => (g.nodes.filter (fun x => x.state == 0)).map (fun x => (x.lfirst, x.lcount))
    | none =>
      if c.begun then []
      else
        let n := min 4096 (par c 8 2)
        let a := par c 0 8
        if a + 64 * n ≤ spBase then (List.range n).map (fun i => let b := cohBytes s (a + 64 * i + 16) 4
          (leNat (b.take 2), leNat (b.drop 2)))
        else [(0, 1024)]

/-- Whether a launch may start (R270): none of its clusters runs a kernel or is claimed by a launch fetched earlier. -/
def launchFree (s : State) (l : Launch) : Bool :=
  !(s.cmds.any (fun c => decide (c.id < l.cmd) && (claimsOf s c).any (fun x =>
      decide (x.1 < l.lfirst + l.lcount) && decide (l.lfirst < x.1 + x.2)))) &&
  !(s.launches.any (fun x => (x.started || decide (x.id < l.id)) && x.id != l.id && x.ended.isNone
      && decide (x.lfirst < l.lfirst + l.lcount) && decide (l.lfirst < x.lfirst + x.lcount)))
    && (launchSet l).all (fun i => match physOf s i with
      | none => false
      | some c => !(fbit s .CORE_STAT (tk c) Fld.CORE_STAT_RUN) && (clu s c).launch.isNone)

/-- The state a participating cluster begins in (R142); the scratchpad's port mode is sampled here (R129). -/
def startCluster (l : Launch) (s : State) (r : Nat) : State :=
  match physOf s (l.lfirst + r) with
  | none => s
  | some c =>
    let job := match cmdOf s l.cmd with | some x => cmdJob s x | none => 0
    let s := { s with jobOf := tput (l.lfirst + r) job s.jobOf }
    let g := (List.range 32).map (fun i => (match i with
      | 1 => BitVec.ofNat 64 l.code | 2 => 0x3FF000#64 | 3 => BitVec.ofNat 64 (l.lfirst + r)
      | 4 => BitVec.ofNat 64 l.lcount | 5 => BitVec.ofNat 64 r | _ => 0#64 : Word))
    let s := modClu s c (fun x =>
      { x with pc := BitVec.ofNat 64 (l.code + 64 + l.entry), tvec := BitVec.ofNat 64 (l.code + 64 + l.handler), g := g,
               start := s.tick, cyc := 0, fixed := fbit s .SP_CFG (tk c) Fld.SP_CFG_FIXED, lcount := l.lcount, rank := r, launch := some l.id, held := [], twait := none, group := none, load := none,
               store := none, stall := none, tokens := List.replicate 32 0,
               mx := { x.mx with queue := [], pipe := [], sync := none },
               vx := x.vx.map (fun v => { v with queue := [], sync := none }), dma := List.replicate 16 DmaCh.init })
    let s := fset s .MX_STAT (tk c) Fld.MX_STAT_HALTED 0
    let s := foldUp 4 (fun s v => fset s .VX_STAT (tk c ++ [v]) Fld.VX_STAT_HALTED 0) s
    let s := foldUp 16 (fun s ch => rput (fset s .DMA_CH_STAT (tk c ++ [ch]) Fld.DMA_CH_STAT_HALTED 0) .DMA_CH_PTR (tk c ++ [ch]) 0) s
    let s := [Fld.CORE_STAT_STOPPED, Fld.CORE_STAT_HALTED, Fld.CORE_STAT_INTRAP].foldl (fun s f => fset s .CORE_STAT (tk c) f 0) s
    fset s .CORE_STAT (tk c) Fld.CORE_STAT_RUN 1

/-- DETAIL of a launch or graph (R277). -/
def launchDetail (exit rank node done : Nat) : Nat := exit * 2 ^ 48 + rank * 2 ^ 32 + node * 2 ^ 16 + done

/-- A launch is over: a LAUNCH completes its command, a node is noted in its graph. -/
def launchOver (l : Launch) (st exit rank : Nat) (s : State) : State :=
  let s := { s with launches := s.launches.filter (fun x => x.id != l.id) }
  if !l.graph then finish s l.cmd st (launchDetail exit rank 0 (b2n (st == 0)))
  else
    { s with graphs := s.graphs.map (fun (g : Graph) => if g.cmd == l.cmd then
        { g with nodes := (g.nodes.zip (List.range g.nodes.length)).map (fun (p : GNode × Nat) => if p.2 == l.node then
            { p.1 with state := if st = 0 then 2 else 3, status := st, rank := rank, exit := exit } else p.1) } else g) }

/-- Start a launch whose clusters are free: the argument blocks, then the clusters (R143, R270); none of a job in the fault set
(R338). -/
def launchGo (l : Launch) (s : State) : State :=
  if l.started || !(launchFree s l) || jobStopped s (match cmdOf s l.cmd with | some x => cmdJob s x | none => 0) then s
  else
    let job := match cmdOf s l.cmd with | some x => cmdJob s x | none => 0
    let k := match cmdOf s l.cmd with | some x => agentOf s x | none => cmdAgent 0
    let s := (launchSet l).foldl (fun s i => { s with jobOf := tput i job s.jobOf }) s
    let a := if l.argLen = 0 then (⟨0, 0, [], s⟩ : RangeRead) else accRead s k l.args l.argLen
    if a.st != 0 then launchOver l a.st 0 0 a.s
    else
      let w := (launchSet l).foldl (fun (acc : Nat × State) i =>
        if acc.1 != 0 || a.bytes.isEmpty then acc else accWrite acc.2 k (spAddr i 0x3FF000) a.bytes) (0, a.s)
      if w.1 != 0 then launchOver l w.1 0 0 w.2
      else (List.range l.lcount).foldl (startCluster l) (setLaunch w.2 { l with started := true })

/-- Whether a cluster's kernel is complete (R118). -/
def kernelDone (s : State) (c : Nat) : Bool :=
  let x := clu s c
  let st := fun f => fbit s .CORE_STAT (tk c) f
  (st Fld.CORE_STAT_HALTED || st Fld.CORE_STAT_STOPPED)
    && x.mx.pipe.isEmpty && x.mx.sync.isNone && (srcHalted s c 0 || x.mx.queue.isEmpty)
    && (List.range 4).all (fun v =>
        let u := lget Vx.init x.vx v; u.sync.isNone && (srcHalted s c (v + 1) || u.queue.isEmpty))
    && (List.range 16).all (fun ch => dmaHalted s c ch || ((dmaCh s c ch).runs.isEmpty && dmaHead s c ch == dmaTail s c ch))

/-- KERNEL_COMPLETE: a launch all of whose kernels are complete is over (R118, R277). -/
def kernelComplete (id : Nat) (s : State) : State :=
  match launchOf s id with
  | none => s
  | some l =>
    let cs := (launchSet l).filterMap (fun i => physOf s i)
    if !l.started || !(cs.all (kernelDone s)) then s
    else
      let s := cs.foldl (fun s c => modClu s c (fun x => { x with launch := none })) s
      let exits := cs.map (fun c => fget s .CORE_STAT (tk c) Fld.CORE_STAT_EXIT)
      match (exits.zip (List.range exits.length)).find? (fun p => p.1 != 0) with
      | some (e, r) => launchOver l 0x0133 e r s
      | none => launchOver l 0 0 0 s

/-! ### Graphs (R278) -/

/-- A node record. -/
def nodeOf (b : List Byte) : GNode :=
  let f := fun off n => leNat ((b.drop off).take n)
  { code := f 0 8, args := f 8 8, lfirst := f 16 2, lcount := f 18 2, preds := [f 24 2, f 26 2, f 28 2, f 30 2],
    state := 0, status := 0, rank := 0, exit := 0, entry := 0, handler := 0, argLen := 0 }

/-- Check the nodes in ascending order: the failing status and node, or the nodes with their headers. -/
def graphCheck (k : Agent) (b : List Byte) (n : Nat) (s : State) : Nat × Nat × List GNode × State :=
  (List.range n).foldl (fun (acc : Nat × Nat × List GNode × State) i =>
    if acc.1 != 0 then acc
    else
      let r := (b.drop (64 * i)).take 64
      let x := nodeOf r
      let resv := (r.drop 20).take 4 ++ r.drop 32
      if resv.any (fun v => v != 0) || x.preds.any (fun p => p != 0xFFFF && decide (i ≤ p)) then (0x0132, i, [], acc.2.2.2)
      else
        let h := accRead acc.2.2.2 k x.code 64
        if h.st != 0 then (h.st, 0, [], h.s)
        else
          let y := codeHdr h.bytes
          if launchBad h.s y x.lfirst x.lcount then (0x0132, i, [], h.s)
          else (0, 0, acc.2.2.1 ++ [{ x with entry := y.entry, handler := y.handler, argLen := y.argLen }], h.s)) (0, 0, [], s)

/-- GRAPH_LAUNCH. -/
def graphLaunch (c : Cmd) (s : State) : State :=
  let n := par c 8 2
  if n = 0 ∨ 4096 < n then finish s c.id 0x0132 (0xFFFF * 2 ^ 16)
  else
    let r := accRead s (agentOf s c) (par c 0 8) (64 * n)
    if r.st != 0 then finish r.s c.id r.st 0
    else
      let g := graphCheck (agentOf s c) r.bytes n r.s
      if g.1 != 0 then finish g.2.2.2 c.id g.1 (g.2.1 * 2 ^ 16)
      else { g.2.2.2 with graphs := g.2.2.2.graphs ++ [⟨c.id, g.2.2.1⟩] }

/-- A graph whose nodes have all completed or been skipped completes its command. -/
def graphDone (id : Nat) (s : State) : State :=
  match s.graphs.find? (fun g => g.cmd == id) with
  | none => s
  | some g =>
    if g.nodes.all (fun x => decide (2 ≤ x.state)) then
      let s := { s with graphs := s.graphs.filter (fun x => x.cmd != id) }
      let done := (g.nodes.filter (fun x => x.state == 2)).length
      match (g.nodes.zip (List.range g.nodes.length)).find? (fun p => p.1.state == 3) with
      | some (x, i) => finish s id x.status (launchDetail x.exit x.rank i done)
      | none => finish s id 0 (launchDetail 0 0 0 done)
    else s

/-- LAUNCH_START: a launch, or a node that waits for its clusters; one that fails may be the last of its graph. -/
def launchStart (id : Nat) (s : State) : State :=
  match launchOf s id with
  | none => s
  | some l => if l.graph then graphDone l.cmd (launchGo l s) else launchGo l s

/-- GRAPH_NODE_START: a node whose predecessors are settled is skipped, or claims its clusters and starts when they are free.
-/
def nodeStart (id i : Nat) (s : State) : State :=
  match s.graphs.find? (fun g => g.cmd == id), cmdOf s id with
  | some g, some c =>
    (match g.nodes[i]? with
     | none => s
     | some x =>
       let ps := (x.preds.filter (fun p => p != 0xFFFF)).filterMap (fun p => g.nodes[p]?)
       if x.state != 0 || c.status.isSome || qFenced s c.q then s
       else if ps.any (fun p => decide (3 ≤ p.state)) then
         graphDone id { s with graphs := s.graphs.map (fun (y : Graph) => if y.cmd == id then
           { y with nodes := y.nodes.set i { x with state := 4 } } else y) }
       else if !(ps.all (fun p => p.state == 2)) then s
       else
         let l : Launch := { id := launchId id i, cmd := id, node := i, graph := true, code := x.code, args := x.args,
                             lfirst := x.lfirst, lcount := x.lcount, started := false, ended := none,
                             entry := x.entry, handler := x.handler, argLen := x.argLen }
         let s := { s with launches := s.launches ++ [l], graphs := s.graphs.map (fun (y : Graph) => if y.cmd == id then
           { y with nodes := y.nodes.set i { x with state := 1 } } else y) }
         graphDone id (launchGo l s))
  | _, _ => s

/-! ### Local copy channels (R280) -/

/-- The agent of copy channel i for a command. -/
def copyWho (s : State) (c : Cmd) (i : Nat) (hint : Nat) : DmaWho :=
  ⟨⟨1026, 4, cmdJob s c, true, true, hint, !(qTenant s c.q)⟩, srcId (ownId s) 1023 15, fun r => .chan i r, [], none⟩

def setChan (s : State) (i : Nat) (x : Option Chan) : State := { s with chans := s.chans.set i x }

/-- The channel a command holds. -/
def chanOf (s : State) (id : Nat) : Option (Nat × Chan) :=
  (List.range 8).findSome? (fun i => match lget none s.chans i with
    | some ch => if ch.cmd == id then some (i, ch) else none
    | none => none)

/-- Descriptors a DMA command runs, and whether TOK or FENCE refuse one (R280). -/
def listLen (c : Cmd) : Nat := if c.opc = 0x60 then 1 else par c 8 4

/-- Write a STATUS into a DMA_LIST's descriptor (R69, R280). -/
def listStatus (k : Agent) (c : Cmd) (i st : Nat) (s : State) : Nat × State :=
  if c.opc = 0x60 then (0, s) else accWrite s k (par c 0 8 + 32 * i + 14) (leBytes 2 st)

/-- The list stops at descriptor `i` with a status: later STATUS fields become 0x0601 where they can be written. -/
def listStop (k : Agent) (c : Cmd) (ci i st : Nat) (s : State) : State :=
  let s := (List.range (listLen c - (i + 1))).foldl (fun s j => (listStatus k c (i + 1 + j) 0x0601 s).2) s
  finish (setChan s ci none) c.id st (if c.opc = 0x60 then 0 else i)

/-- Run a channel's descriptors as far as they go. -/
def chanRun (c : Cmd) (ci : Nat) : Nat → State → State
  | 0, s => s
  | f + 1, s =>
    match lget none s.chans ci with
    | none => s
    | some ch =>
      let k := (copyWho s c ci 0).agent
      match ch.run with
      | none =>
        if listLen c ≤ ch.idx then finish (setChan s ci none) c.id 0 (if c.opc = 0x60 then 0 else listLen c)
        else
          let e := if c.opc = 0x60 then (⟨0, 0, c.par.take 32, s⟩ : RangeRead) else accRead s k (par c 0 8 + 32 * ch.idx) 32
          if e.st != 0 then
            let q := listStatus k c ch.idx e.st e.s
            listStop k c ci ch.idx (if q.1 != 0 then q.1 else e.st) q.2
          else
            let w := entryWords e.bytes
            let q := if dTok w then ({ dmaRunOf ch.idx w with status := 0x0102 }, e.s)
              else startDesc (copyWho e.s c ci (dHint w)) ch.idx w e.s
            chanRun c ci f (setChan q.2 ci (some { ch with run := some q.1 }))
      | some r =>
        let q := advanceRun (copyWho s c ci (dHint r.words)) r s
        if q.1.phase != 3 then setChan q.2 ci (some { ch with run := some q.1 })
        else
          let w := listStatus k c ch.idx q.1.status q.2
          if w.1 != 0 then listStop k c ci ch.idx w.1 w.2
          else if q.1.status != 0 then listStop k c ci ch.idx q.1.status w.2
          else chanRun c ci f (setChan w.2 ci (some { ch with idx := ch.idx + 1, run := none }))

/-- Fuel that carries a list to its end: three calls per descriptor. -/
def chanFuel (c : Cmd) : Nat := 3 * listLen c + 4

/-- Commands that wait for a channel, in fetch order: those begun without one, and those that may start (R280). -/
def chanWaiters (s : State) : List Cmd :=
  s.cmds.filter (fun c => (c.opc == 0x60 || c.opc == 0x61)
    && (canStart s c || (c.begun && c.status.isNone && (chanOf s c.id).isNone && !(qFenced s c.q) && !(isHeld s))))

/-- Give a command the lowest free channel. -/
def takeChan (c : Cmd) (s : State) : State :=
  match (List.range 8).find? (fun i => (lget none s.chans i).isNone) with
  | none => s
  | some i => chanRun c i (chanFuel c) (setChan s i (some ⟨c.id, 0, none⟩))

/-- DMA_DESC and DMA_LIST: refused, given a channel, or carried on (R280). -/
def dmaCmd (c : Cmd) (s : State) : State :=
  let w := entryWords (c.par.take 32)
  if c.opc = 0x60 && (dTok w || dFence w) then finish s c.id 0x0102 0
  else match chanOf s c.id with
    | some (i, _) => chanRun c i (chanFuel c) s
    | none => if (chanWaiters s).all (fun x => decide (c.id ≤ x.id)) then takeChan c s else s

/-- DMA_CHANNEL_GRANT: the command waiting longest takes a free channel. -/
def chanGrant (s : State) : State :=
  match chanWaiters s with
  | [] => s
  | c :: _ => if c.begun then takeChan c s else dmaCmd c (beginCmd s c)

def execCodeLoad (k : Nat) (s : State) : Res3 := s.run (cmdStart k 0x10 codeLoad)
def execModelLoad (k : Nat) (s : State) : Res3 :=
  s.run (loadStart false k modelLoad)
def execLaunch (k : Nat) (s : State) : Res3 := s.run (cmdStart k 0x20 launch)
def execLaunchStart (l : Nat) (s : State) : Res3 := s.run (launchStart l)
def execGraphLaunch (k : Nat) (s : State) : Res3 := s.run (cmdStart k 0x21 graphLaunch)
def execGraphNodeStart (k node : Nat) (s : State) : Res3 := s.run (nodeStart k node)
def execKernelComplete (l : Nat) (s : State) : Res3 := s.run (fun s => graphDone (l / 8192) (kernelComplete l s))
def execDmaDesc (k : Nat) (s : State) : Res3 := s.run (cmdGo k 0x60 dmaCmd)
def execDmaList (k : Nat) (s : State) : Res3 := s.run (cmdGo k 0x61 dmaCmd)
def execDmaChannelGrant (s : State) : Res3 := s.run chanGrant

end Sys2Proof.Machine
end

