-- ==== Sys2Proof/Machine/Codec.lean ====
section
/-! DEFINITION. The codec units: quantization, dequantization, page summaries and the conversion of loaded weights
(R176, R202–R205, R223). -/

namespace Sys2Proof.Machine

/-- Position of the leading bit of a non-zero finite value. -/
def leadOf : FVal → Option Int
  | .fin _ m e => if m = 0 then none else some ((Nat.log2 m : Int) + e)
  | _ => none

/-- A value of an element in units of 2^s, rounded to nearest even and clamped to ±top (R202). -/
def quantElem (s : Int) (top : Int) : FVal → Int
  | .fin neg m e =>
    let x : Int := ishiftRne (sgn neg m) (e - s)
    max (-top) (min top x)
  | _ => 0

/-- Quantize a block of 32 exact values (R202): its scale byte and its elements; `wide` selects INT8, else INT4. -/
def quantBlock (wide : Bool) (xs : List FVal) : Nat × List Int :=
  if xs.any (fun x => match x with | .nan => true | .inf _ => true | _ => false) then (0xFF, xs.map (fun _ => 0))
  else match xs.filterMap leadOf with
    | [] => (0, xs.map (fun _ => 0))
    | l :: ls =>
      let e := ls.foldl max l
      let e8 : Int := max 0 (e - (if wide then 6 else 2) + 127)
      (e8.toNat, xs.map (quantElem (e8 - 127) (if wide then 127 else 7)))

/-- Two's complement elements packed in order, INT8 or INT4 (R176). -/
def packElems (wide : Bool) (qs : List Int) : List Byte :=
  if wide then qs.map (fun q => BitVec.ofNat 8 (wrap 8 q))
  else (List.range (qs.length / 2)).map (fun i =>
    BitVec.ofNat 8 (wrap 4 (lget 0 qs (2 * i)) + 16 * wrap 4 (lget 0 qs (2 * i + 1))))

/-- Blocks of 32. -/
def blocks32 {α : Type} (xs : List α) : List (List α) := (List.range (xs.length / 32)).map (fun i => (xs.drop (32 * i)).take 32)

/-- The BF16 patterns of a vector. -/
def bf16s (b : List Byte) : List Nat := (List.range (b.length / 2)).map (fun i => leNat ((b.drop (2 * i)).take 2))

/-- Bytes of a stored vector of a class, and of its scales (R176). -/
def vecBytes (cls : Nat) : Nat := match cls with | 0 => 256 | 1 => 128 | _ => 64
def sclBytes (cls : Nat) : Nat := if cls = 0 then 0 else 4

/-- Store a BF16 vector in a class: its data and its scales (R202). -/
def encodeVec (cls : Nat) (b : List Byte) : List Byte × List Byte :=
  if cls = 0 then (b, [])
  else
    let q := (blocks32 (bf16s b)).map (fun x => quantBlock (cls == 1) (x.map (fdec .bf16)))
    (q.flatMap (fun x => packElems (cls == 1) x.2), q.map (fun x => BitVec.ofNat 8 x.1))

/-- The exact elements of a stored vector (R159, R203). -/
def decodeVec (cls : Nat) (d sc : List Byte) : List FVal :=
  if cls = 0 then (bf16s d).map (fdec .bf16)
  else (List.range 128).map (fun i =>
    let e8 := (lget 0 sc (i / 32)).toNat
    if e8 = 0xFF then .nan
    else
      let q : Int := if cls = 1 then sext 8 (lget 0 d i).toNat else sext 4 ((lget 0 d (i / 2)).toNat / 16 ^ (i % 2))
      .ofInt q ((e8 : Int) - 127))

/-- A stored vector as BF16 (R203). -/
def vecToBf16 (cls : Nat) (d sc : List Byte) : List Byte :=
  if cls = 0 then d else (decodeVec cls d sc).flatMap (fun v => leBytes 2 (fenc .bf16 v))

/-! ### Summaries (R223) -/

/-- The next BF16 pattern above, or below, a pattern that is not NaN. -/
def nextBf16 (up : Bool) (p : Nat) : Nat :=
  let neg := tbit p 15
  if p % 2 ^ 15 = 0 then (if up then 1 else 0x8001)
  else if neg == up then p - 1 else p + 1

/-- A value rounded to BF16 toward +infinity or −infinity. -/
def dirBf16 (up : Bool) (v : FVal) : Nat :=
  let p := fenc .bf16 v
  match fcmp (fdec .bf16 p) v with
  | some c => if (if up then decide (c < 0) else decide (0 < c)) then nextBf16 up p else p
  | none => p

/-- Largest and smallest of a column of values; none when one is NaN, where the manual names no largest value. -/
def extreme (up : Bool) (xs : List FVal) : Option Nat :=
  if xs.any (fun x => x == .nan) then none
  else match xs with
    | [] => none
    | x :: r => some (dirBf16 up (r.foldl (if up then fmax else fmin) x))

/-- The summary of 128 keys: max of each element, then min (256 BF16 patterns); an open element takes a free value. -/
def summaryOf (keys : List (List FVal)) (s : State) : List Nat × State :=
  (List.range 256).foldl (fun (acc : List Nat × State) j =>
    match extreme (decide (j < 128)) (keys.map (fun k => lget FVal.nan k (j % 128))) with
    | some p => (acc.1 ++ [p], acc.2)
    | none => let f := free acc.2; (acc.1 ++ [f.1 % 65536], f.2)) ([], s)

/-! ### Conversion of loaded weights (R204, R276) -/

/-- A 6-bit float without NaN or infinity. -/
def fdec6 (eb fb bias p : Nat) : FVal :=
  let neg := tbit p 5
  let ex := bits p (eb + fb - 1) fb
  let fr := p % 2 ^ fb
  if ex = 0 then .fin neg fr (1 - (bias : Int) - fb) else .fin neg (2 ^ fb + fr) ((ex : Int) - bias - fb)

/-- Element i of a source record of conversion `conv` (1 E4M3, 2 E5M2, 3 E3M2, 4 E2M3; 6-bit elements packed). -/
def srcElem (conv : Nat) (rec : List Byte) (i : Nat) : FVal :=
  let six := leNat ((rec.drop (6 * i / 8)).take 2) / 2 ^ (6 * i % 8) % 64
  match conv with
  | 1 => fdec .e4m3 (lget 0 rec i).toNat
  | 2 => fdec .e5m2 (lget 0 rec i).toNat
  | 3 => fdec6 3 2 3 six
  | _ => fdec6 2 3 1 six

/-- Convert a record of 128 elements with its 4 source scales: output scales and elements. -/
def convRecord (conv : Nat) (rec sc : List Byte) : List (Nat × List Int) :=
  (List.range 4).map (fun b =>
    let x := (lget 0 sc b).toNat
    if x = 0xFF then (0xFF, List.replicate 32 0)
    else quantBlock true ((List.range 32).map (fun i => fscale ((x : Int) - 127) (srcElem conv rec (32 * b + i)))))

/-- MODEL_LOAD with CONV 1 to 4. -/
def modelConvert (c : Cmd) (s : State) : State :=
  let src := par c 0 8
  let ssrc := par c 8 8
  let dst := par c 16 8
  let sdst := par c 24 8
  let n := par c 32 4
  let conv := par c 36 1
  let z := if conv ≤ 2 then 128 else 96
  let done := fun (s : State) st det => finish (rocClearAll s) c.id st det
  if dst % 16 != 0 || sdst % 16 != 0 || decide (spBase < dst + 128 * n) || decide (spBase < sdst + 4 * n) then
    done s 0x0134 0
  else if !(mapped s src (z * n)) || !(mapped s ssrc (4 * n)) || !(mapped s dst (128 * n)) || !(mapped s sdst (4 * n)) then
    done s 0x0301 0
  else
    let k := agentOf s c
    let r := accRead s k src (z * n) [] (some 4)
    if r.st != 0 then done r.s r.st 0
    else
      let q := accRead r.s k ssrc (4 * n) [] (some 4)
      if q.st != 0 then done q.s q.st 0
      else
        let out := (List.range n).flatMap (fun i => convRecord conv ((r.bytes.drop (z * i)).take z) ((q.bytes.drop (4 * i)).take 4))
        let w := accWrite q.s k dst (out.flatMap (fun x => packElems true x.2))
        if w.1 != 0 then done w.2 w.1 0
        else
          let v := accWrite w.2 k sdst (out.map (fun x => BitVec.ofNat 8 x.1))
          done v.2 v.1 (out.filter (fun x => x.1 == 0xFF)).length

def execModelLoadConvert (k : Nat) (s : State) : Res3 := s.run (loadStart true k modelConvert)

end Sys2Proof.Machine
end

