-- ==== Sys2Proof/Machine/Kv.lean ====
section
/-! DEFINITION. The KV page manager: sequences, appends, epochs, eviction, spill and swap (R173–R203, R206–R216). -/

namespace Sys2Proof.Machine

/-! ### Pool and profiles (R178, R185) -/

/-- LFIRST and LLAST as KV_POOL_CFG0 holds them: 10 bits each, so that a range past cluster 1,023 is stored as the clusters it
reaches (log entry 141). -/
def clusterRange (lf ll : Nat) : Nat × Nat := if 1024 ≤ lf then (1023, 0) else (lf, min ll 1023)

/-- KV_POOL_SET (R178). -/
def kvPoolSet (c : Cmd) (s : State) : State :=
  let bs := poolBanks s (par c 0 2) (par c 2 2) (par c 4 2) (par c 8 4)
  let mb := par c 24 8
  let ms := par c 32 2 * 2 ^ 30
  if !(mapped s mb ms) || decide (spBase < mb + ms) then finish s c.id 0x0301 0
  else if s.kv.seqs.any (fun q => q.2.state != 0) || decide (bs.length < par c 12 4 + par c 16 4) || mb % 2 ^ 30 != 0
      || bs.any (fun a => striped s (a / 2 ^ 30)) || bs.any (fun a => overlaps a (2 ^ 23) mb ms) then finish s c.id 0x0122 0
  else
    let r := clusterRange (par c 0 2) (par c 2 2)
    let s := rput s .KV_POOL_CFG0 [] (r.1 * 2 ^ 54 + r.2 * 2 ^ 44 + par c 4 2 * 2 ^ 28)
    let s := rput s .KV_POOL_CFG1 [] (par c 8 4 * 2 ^ 32)
    let s := rput s .KV_POOL_CFG2 [] (par c 16 4 * 2 ^ 32 + par c 12 4)
    let s := rput s .KV_META [] (par c 32 2 * 2 ^ 48 + mb / 2 ^ 30 * 2 ^ 30)
    finish (modKv s (fun k => { k with pool := poolFrom bs (par c 12 4) (par c 16 4), lost := [] })) c.id 0 0

/-- KV_PROFILE_SET (R185). -/
def kvProfileSet (c : Cmd) (s : State) : State :=
  let p := par c 0 1
  let n := par c 2 2
  let recs := (List.range n).map (fun l => par c (8 + 8 * l) 8)
  let bad := fun r => r % 4 == 3 || (tbit r 2 && decide (bits r 31 16 ≤ bits r 7 4 + bits r 15 8))
  if 15 < p ∨ n = 0 ∨ 256 < n ∨ par c 1 1 = 0 ∨ 64 < par c 1 1 ∨ recs.any bad
      ∨ s.kv.seqs.any (fun q => q.2.state != 0 && q.2.profile == p) then finish s c.id 0x0121 0
  else finish (modKv s (fun k => { k with profiles := tput p ⟨n, par c 1 1, recs⟩ k.profiles })) c.id 0 0

/-! ### Outcomes of the manager's work -/

/-- What a piece of the manager's work comes to: done, failed with a status, waiting for a frame of a class for a page (R210), or held
until a unit or a reader slot is free (R194, R195). -/
inductive Kout where
  | ok (s : State)
  | fail (st : Nat) (s : State)
  | wait (cls page : Nat)
  | hold

def kbind (x : Kout) (f : State → Kout) : Kout :=
  match x with
  | .ok s => f s
  | y => y

/-- Undo a failed piece of work, but for the faults it raised, what it counted and what it sent (R191: an entry succeeds or
fails as a whole). -/
def undoTo (before s : State) : State :=
  { before with regs := s.regs, log := s.log, rcv := s.rcv, ecc := s.ecc, freeCtr := s.freeCtr, out := s.out, host := s.host,
                qd := s.qd, syn := s.syn, ready := s.ready, nbBlock := s.nbBlock }

/-- A KV_FAULT report (R214, R354): job, status and page record. -/
def kvFault (s : State) (st job pid : Nat) : State := raiseFault s job [] (mkRep s 0x0D 3 8 0 st job (pid % 2 ^ 30))

/-- The manager's agent for a command; its queue says which view it has (R40). -/
def kvAgentOf (s : State) (c : Cmd) : Agent := { kvAgent (cmdJob s c) with oper := !(qTenant s c.q) }

/-- Read the region's words that lead to pages of a sequence; a failing read raises the fence and gives its status (R183,
R214). -/
def walk (k : Agent) (i : Nat) (keys : List Nat) (s : State) : Nat × State :=
  match seqOf s i with
  | none => (0, s)
  | some q =>
    if metaSize s = 0 then (0, s)
    else ((keys.flatMap (walkWords s i q)).eraseDups).foldl (fun (acc : Nat × State) a =>
      if acc.1 != 0 then acc
      else
        let r := accRead acc.2 k a 16
        (r.st, if r.st = 0 || isWordFault r.st then r.s else kvFault r.s r.st k.job 0)) (0, s)

/-- Every key a sequence has an entry for. -/
def allKeys (s : State) (i : Nat) : List Nat := match seqOf s i with | some q => q.ptes.map (fun e => e.1) | none => []

/-! ### Commands under way (R173, R210) -/

def runOf (s : State) (id : Nat) : KvRun :=
  (s.kv.runs.find? (fun r => r.cmd == id)).getD ⟨id, 0, 0, 0, [], [], [], [], none, none, none⟩

/-- Note a command's progress; it keeps its place in the order of arrival. -/
def setKvRun (s : State) (r : KvRun) : State :=
  modKv s (fun k => { k with runs := if k.runs.any (fun x => x.cmd == r.cmd) then k.runs.map (fun x => if x.cmd == r.cmd then r else x)
                                     else k.runs ++ [r] })

def endRun (s : State) (id : Nat) : State := modKv s (fun k => { k with runs := k.runs.filter (fun x => x.cmd != id) })

/-- A command that names sequences reaches the manager (R173). -/
def kvArrive (id : Nat) (names : List Nat) (s : State) : State :=
  if s.kv.runs.any (fun r => r.cmd == id) then s else setKvRun s { runOf s id with names := names, left := names }

/-- Whether a command that reached the manager before is still to carry out an operation on a sequence (R173), or the sequence is
on its way back from a swap that failed (R186). -/
def seqBusy (s : State) (id i : Nat) : Bool :=
  (s.kv.runs.takeWhile (fun r => r.cmd != id)).any (fun r => r.left.contains i)
  || s.kv.runs.any (fun r => r.cmd != id && (match r.back with | some b => b.seq == i | none => false))

/-- A command of the manager is over. -/
def kvFinish (s : State) (id st det : Nat) : State := finish (endRun s id) id st det

/-- Note the status of a fault that a command's work raised between two states (R271). -/
def kvNote (before s : State) (id st : Nat) : State :=
  if s.rcv == before.rcv then s else modKv s (fun k => { k with faults := tput id st k.faults })

/-- A command's step of the manager: what it changes is written into the region, and a command that ends with the status of a
fault it raised is noted. -/
def kvDo (id : Nat) (f : State → State) (s : State) : State :=
  let t := metaSync s (f s)
  match (cmdOf t id).bind (fun c => c.status) with
  | some st => if st = 0 || st = 0x0208 then t else kvNote s t id st
  | none => t

/-! ### Pages as bytes (R176, R206) -/

/-- Offset of token t's key, value, key scales and value scales in a frame. -/
def tokOffs (c t : Nat) : List (Nat × Nat) :=
  match c with
  | 0 => [(256 * t, 256), (32768 + 256 * t, 256)]
  | 1 => [(128 * t, 128), (16384 + 128 * t, 128), (32768 + 4 * t, 4), (33280 + 4 * t, 4)]
  | _ => [(64 * t, 64), (8192 + 64 * t, 64), (16384 + 4 * t, 4), (16896 + 4 * t, 4)]

/-- The parts of a frame that hold tokens t to t + n − 1. -/
def tokParts (c t n : Nat) : List (Nat × Nat) := if n = 0 then [] else (tokOffs c t).map (fun p => (p.1, p.2 * n))

/-- Read parts of a frame. -/
def readParts (k : Agent) (a : Nat) (ps : List (Nat × Nat)) (s : State) (cnt : Option Nat := none) : Nat × List (List Byte) × State :=
  ps.foldl (fun (acc : Nat × List (List Byte) × State) p =>
    if acc.1 != 0 then acc
    else
      let r := accRead acc.2.2 k (a + p.1) p.2 [] cnt
      (r.st, acc.2.1 ++ [r.bytes], r.s)) (0, [], s)

/-- Write parts of a frame. -/
def writeParts (k : Agent) (a : Nat) (ps : List (Nat × Nat)) (ds : List (List Byte)) (s : State) : Nat × State :=
  (ps.zip ds).foldl (fun (acc : Nat × State) p => if acc.1 != 0 then acc else accWrite acc.2 k (a + p.1.1) p.2) (0, s)

/-- The trailer of a page image at a slot: one CRC-32C per row (R206). -/
def trailer (slot : Nat) (b : List Byte) : List Byte :=
  (List.range (b.length / 1024)).flatMap (fun r =>
    leBytes 4 (crc32c ((b.drop (1024 * r)).take 1024 ++ leBytes 8 (slot + 1024 * r))))

/-- Read a page image: its status (0x0306 for a trailer mismatch) and the frame's bytes (R206, R211, R214). -/
def readImage (k : Agent) (pid : Nat) (r : PageRec) (s : State) : Nat × List Byte × State :=
  let n := 1024 * clsRows r.cls
  let m := n + 4 * clsRows r.cls
  let x : Nat × List Byte × State :=
    if inSwap s r then
      if hostIssue s r.addr m != 0 then (hostIssue s r.addr m, [], s)
      else
        let y := outsideRead s k.job r.addr m
        (y.1, tget [] s.kv.images r.addr, y.2)
    else
      let y := accRead s k r.addr m
      (y.st, y.bytes, y.s)
  if x.1 != 0 then (x.1, [], if isWordFault x.1 then x.2.2 else kvFault x.2.2 x.1 k.job pid)
  else if x.2.1.drop n != trailer r.addr (x.2.1.take n) then (0x0306, [], kvFault x.2.2 0x0306 k.job pid)
  else (0, x.2.1.take n, x.2.2)

/-- Keys and values as a job gets them: open once its other work has written the pool or the metadata region (R17, R182). -/
def openParts (job : Nat) (ps : List (List Byte)) (s : State) : List (List Byte) × State :=
  if !(s.kv.undef.contains job) then (ps, s)
  else ps.foldl (fun (acc : List (List Byte) × State) p =>
    let f := freeBytes acc.2 p.length
    (acc.1 ++ [f.1], f.2)) ([], s)

/-- Read tokens t to t + n − 1 of a record's page from where it lies. -/
def readTokens (k : Agent) (pid : Nat) (r : PageRec) (t n : Nat) (s : State) (cnt : Option Nat := none) :
    Nat × List (List Byte) × State :=
  let x : Nat × List (List Byte) × State :=
    if r.loc = 1 ∨ r.loc = 4 then readParts k r.addr (tokParts r.cls t n) s cnt
    else
      let y := readImage k pid r s
      (y.1, (tokParts r.cls t n).map (fun p => (y.2.1.drop p.1).take p.2), y.2.2)
  if x.1 != 0 then x
  else
    let o := openParts k.job x.2.1 x.2.2
    (0, o.1, o.2)

/-! ### New pages and appends (R191–R194) -/

/-- A new record and frame for page q of a head; 0x0206 when the metadata region is full (R182). -/
def newPage (s : State) (cls sq l h q fill : Nat) : Except Kout (Nat × State) :=
  match placeFrame s cls sq l h q with
  | none => .error (.wait cls (pteKey l h q))
  | some a =>
    let pid := freePid s
    let r : PageRec := { loc := 1, cls := cls, sealed := false, fill := fill, addr := a, refcnt := 1, sealG := 0, score := 0,
                         instep := 0, lastG := 0 }
    let t := setPte (modKv s (fun k => { k with frames := a :: k.frames, recs := tput pid r k.recs })) sq (pteKey l h q)
      (2 ^ 31 + pid)
    if metaRoom t then .ok (pid, t) else .error (.fail 0x0206 s)

/-- Keys of a page as exact vectors, from its key and key-scale parts. -/
def keysOf (cls n : Nat) (parts : List (List Byte)) : List (List FVal) :=
  let d := lget [] parts 0
  let sc := lget [] parts 2
  (List.range n).map (fun t => decodeVec cls ((d.drop (vecBytes cls * t)).take (vecBytes cls)) ((sc.drop (4 * t)).take (sclBytes cls)))

def kvG32 (s : State) : Nat := s.kv.g % 2 ^ 32

/-- Sealed pages of a head, in page order: (page, record number, record). -/
def sealedPages (s : State) (q : Seq) (l h : Nat) : List (Nat × Nat × PageRec) :=
  (q.ptes.filter (fun e => e.1 / 131072 == l * 64 + h && pteValid e.2)).filterMap (fun e =>
    (recOf s (ptePid e.2)).bind (fun r => if r.sealed then some (e.1 % 131072, ptePid e.2, r) else none))

/-- Score decay shift between two counters (R199). -/
def decay (s : State) (lastG : Nat) : Nat :=
  let hl := fget s .KV_CFG [] Fld.KV_CFG_HL
  min 32 (s.kv.g / 2 ^ hl - lastG / 2 ^ hl)

def effScore (s : State) (r : PageRec) : Nat := r.score / 2 ^ decay s r.lastG

/-- The page eviction takes (R200). -/
def victimPage (s : State) (ps : List (Nat × Nat × PageRec)) (sink recent : Nat) : Option (Nat × Nat) :=
  let cand := (ps.take (ps.length - recent)).filter (fun p => decide (sink ≤ p.1))
  let old := cand.filter (fun p => decide (p.2.2.sealG + 16 ≤ s.kv.g))
  match old with
  | [] => cand.head?.map (fun p => (p.1, p.2.1))
  | p :: r =>
    let b := r.foldl (fun b x => if effScore s x.2.2 < effScore s b.2.2 then x else b) p
    some (b.1, b.2.1)

/-- Eviction is checked after a sealing (R200, R201). -/
def evictCheck (sq l h : Nat) (s : State) : State :=
  match seqOf s sq with
  | none => s
  | some q =>
    let rec_ := layerRec s q l
    let ps := sealedPages s q l h
    if tbit rec_ 2 && bits rec_ 31 16 != 0 && decide (bits rec_ 31 16 < ps.length) then
      match victimPage s ps (bits rec_ 7 4) (bits rec_ 15 8) with
      | none => s
      | some (page, pid) =>
        let s := dropSum (setPte s sq (pteKey l h page) (2 ^ 30)) sq (pteKey l h page)
        finc (unref pid s) .KV_CNT [0] Fld.KV_CNT_COUNT 1
    else s

/-- A page is sealed (R193). -/
def sealPage (k : Agent) (sq l h q pid : Nat) (s : State) : Kout :=
  match recOf s pid, seqOf s sq with
  | some r, some x =>
    let s := setRec s pid { r with sealed := true, sealG := s.kv.g, score := 0, lastG := s.kv.g,
                                   instep := (kvG32 s + 2 ^ 32 - 1) % 2 ^ 32 }
    if tbit (layerRec s x l) 3 then
      let p := readTokens k pid r 0 128 s (some 4)
      if p.1 != 0 then .fail p.1 p.2.2
      else
        let u := summaryOf (keysOf r.cls 128 p.2.1) p.2.2
        (match seqOf u.2 sq with
         | some y =>
           let t := setSeq u.2 sq { y with sums := tput (pteKey l h q) u.1 y.sums }
           if metaRoom t then .ok (evictCheck sq l h t) else .fail 0x0206 u.2
         | none => .ok u.2)
    else .ok (evictCheck sq l h s)
  | _, _ => .ok s

/-- Whether a frame lies in the IN or OUT range of a running near-bank command (R194). -/
def frameHeld (s : State) (cls a : Nat) : Bool := nbTouch s a (1024 * clsRows cls) true

/-- The record a token is written into: the open page itself, or a new page with the tokens below it copied (R192). A page
that was evicted below the token leaves those tokens open. The copy waits while its frame is held (R194), and the page's summary,
if it had one, goes (R193). -/
def writeTarget (k : Agent) (sq l h cls q f : Nat) (s : State) : Except Kout (Nat × State) :=
  match seqOf s sq with
  | none => .error (.fail 0x0120 s)
  | some x =>
    let e := pteOf x l h q
    let old := if pteValid e then (recOf s (ptePid e)).map (fun r => (ptePid e, r)) else none
    match old with
    | some (pid, r) =>
      if r.refcnt = 1 ∧ r.loc = 1 ∧ !r.sealed ∧ r.fill = f then .ok (pid, s)
      else if !(readerFree s) then .error .hold
      else
        let c := readTokens k pid r 0 f s
        if c.1 != 0 then .error (.fail c.1 c.2.2)
        else match newPage c.2.2 cls sq l h q f with
          | .error e => .error e
          | .ok (y, s) =>
            match recOf s y with
            | none => .ok (y, s)
            | some n =>
              if frameHeld s cls n.addr then .error .hold
              else
                let w := writeParts k n.addr (tokParts cls 0 f) c.2.1 s
                if w.1 != 0 then .error (.fail w.1 w.2)
                else .ok (y, finc (unref pid (dropSum w.2 sq (pteKey l h q))) .KV_CNT [3] Fld.KV_CNT_COUNT 1)
    | none =>
      match newPage s cls sq l h q f with
      | .error e => .error e
      | .ok (y, s) =>
        match recOf s y with
        | none => .ok (y, s)
        | some n =>
          if frameHeld s cls n.addr then .error .hold
          else
          let r := (tokParts cls 0 f).foldl (fun (s : State) p => let b := freeBytes s p.2; cacheBytes b.2 (n.addr + p.1) b.1) s
          .ok (y, r)

/-- Write one token of a head: `ds` are its stored key, value and scales in the order of the frame's parts. -/
def writeToken (k : Agent) (sq l h cls pos : Nat) (ds : List (List Byte)) (s : State) : Kout :=
  let q := pos / 128
  let f := pos % 128
  match writeTarget k sq l h cls q f s with
  | .error e => e
  | .ok (pid, s) =>
    match recOf s pid with
    | none => .ok s
    | some r =>
      if frameHeld s cls r.addr then .hold
      else
        let w := writeParts k r.addr (tokOffs cls f) ds s
        if w.1 != 0 then .fail w.1 w.2
        else
          let s := setRec w.2 pid { r with fill := f + 1 }
          if f + 1 = 128 then sealPage k sq l h q pid s else .ok s

/-- The stored parts of one head's token from its staging bytes. -/
def stageParts (raw : Bool) (cls : Nat) (kb vb : List Byte) : List (List Byte) :=
  let f := fun b => if raw then (b.take (vecBytes cls), b.drop (vecBytes cls)) else encodeVec cls b
  let x := f kb
  let y := f vb
  if cls = 0 then [x.1, y.1] else [x.1, y.1, x.2, y.2]

/-- The status that refuses work on a sequence; 0 when it is Active (R186). -/
def seqCheck (s : State) (i : Nat) : Nat :=
  match seqOf s i with
  | none => 0x0120
  | some q => if i > 1023 then 0x0120 else if q.state = 1 then 0 else 0x0123

/-- One entry of a KV_APPEND (R191). -/
def appendEntry (k : Agent) (l : Nat) (raw : Bool) (sq n stage : Nat) (s : State) : Kout :=
  let st := seqCheck s sq
  if st != 0 then .fail st s
  else match seqOf s sq with
    | none => .fail 0x0120 s
    | some x =>
      if seqLayers s x = 0 then .fail 0x0121 s
      else if seqLayers s x ≤ l then .fail 0x0124 s
      else if 16777216 < lget 0 x.lens l + n then .fail 0x0204 s
      else
        let cls := layerRec s x l % 4
        let hs := seqHeads s x
        let vb := if raw then vecBytes cls + sclBytes cls else 256
        let v := walk k sq (((List.range hs).map (fun h => pteKey l h (lget 0 x.lens l / 128))).filter (fun y => (tfind x.ptes y).isSome)) s
        if v.1 != 0 then .fail v.1 v.2 else
        let r := accRead v.2 k stage (n * 2 * hs * vb) [] (if raw then none else some 4)
        if r.st != 0 then .fail r.st r.s
        else
          let at_ := fun i => (r.bytes.drop (i * vb)).take vb
          let base := lget 0 x.lens l
          kbind ((List.range n).foldl (fun acc j => (List.range hs).foldl (fun acc h => kbind acc (fun s =>
              writeToken k sq l h cls (base + j) (stageParts raw cls (at_ (j * 2 * hs + h)) (at_ (j * 2 * hs + hs + h))) s)) acc)
            (.ok r.s)) (fun s => match seqOf s sq with
              | some y => .ok (setSeq s sq { y with lens := lset y.lens l (base + n), last := s.tick })
              | none => .ok s)

/-! ### Waits for a frame (R206, R210) -/

def areaBase (s : State) (r : RegId) (f : Fld) : Nat := fget s r [] f * 2 ^ 30

/-- Whether the spill area is set, and its base and size; likewise the swap area. -/
def spillArea (s : State) : Nat × Nat :=
  (areaBase s .KV_SPILL_AREA Fld.KV_SPILL_AREA_BASE, areaBase s .KV_SPILL_AREA Fld.KV_SPILL_AREA_SIZE)
def swapArea (s : State) : Nat × Nat :=
  (areaBase s .KV_SWAP_AREA Fld.KV_SWAP_AREA_BASE, areaBase s .KV_SWAP_AREA Fld.KV_SWAP_AREA_SIZE)

/-- A free slot of a class in an area (R206): in a chunk of the class, else the first slot of an empty chunk. -/
def freeSlot (area : Nat × Nat) (used : List Nat) (cls : Nat) : Option Nat :=
  let mine := fun i => used.filter (fun k => decide (k / 4 / 2 ^ 20 = area.1 / 2 ^ 20 + i))
  let chunks := List.range (area.2 / 2 ^ 20)
  let at_ := fun i => ((List.range (slotsPerChunk cls)).map (fun j => area.1 + 2 ^ 20 * i + slotBytes cls * j)).find?
    (fun a => !(used.contains (slotKey a cls)))
  let full := fun i => decide (slotsPerChunk cls ≤ (mine i).length)
  match chunks.findSome? (fun i => match mine i with
    | k :: _ => if k % 4 = cls && !(full i) then at_ i else none
    | [] => none) with
  | some a => some a
  | none => chunks.findSome? (fun i => if (mine i).isEmpty then at_ i else none)

/-- The status of an allocation that found no frame in time (R210). -/
def noFrame (s : State) (cls : Nat) : Nat :=
  if (spillArea s).2 != 0 && (freeSlot (spillArea s) s.kv.slots cls).isNone then 0x0203 else 0x0201

/-- The allocation of an entry of a command that waits; 0 is the entry of a command without entries. -/
def waitOf (s : State) (id entry : Nat) : Option KvWait := (runOf s id).waits.find? (fun w => w.entry == entry)

def setWait (s : State) (id : Nat) (w : KvWait) : State :=
  let r := runOf s id
  let ws := if r.waits.any (fun x => x.entry == w.entry) then r.waits.map (fun x => if x.entry == w.entry then w else x)
    else r.waits ++ [w]
  setKvRun s { r with waits := ws }

/-- An allocation begins to wait; each is counted once (R210). -/
def allocWait (s : State) (id entry cls page : Nat) : State :=
  match waitOf s id entry with
  | some w => if w.cls = cls ∧ w.page = page then s
    else setWait (finc s .KV_CNT [6] Fld.KV_CNT_COUNT 1) id ⟨entry, cls, page, none, 0⟩
  | none => setWait (finc s .KV_CNT [6] Fld.KV_CNT_COUNT 1) id ⟨entry, cls, page, none, 0⟩

/-- The allocation of an entry waits no longer. -/
def noWait (s : State) (id entry : Nat) : State :=
  if (waitOf s id entry).isNone then s
  else setKvRun s { runOf s id with waits := (runOf s id).waits.filter (fun w => w.entry != entry) }

/-- What a piece of work for an entry of a command comes to: its status, or none while it waits, and the state. Work that fails or
waits leaves nothing of what it had done (log entry 142). -/
def settleOut (before : State) (id entry : Nat) (x : Kout) : Option Nat × State :=
  match x with
  | .ok s => (some 0, noWait s id entry)
  | .fail st s => (some st, kvNote before (noWait (undoTo before s) id entry) id st)
  | .wait cls page =>
    match (waitOf before id entry).bind (fun w => if w.cls = cls ∧ w.page = page then w.ended else none) with
    | some st => (some (if st = 0 then noFrame before cls else st), noWait before id entry)
    | none => (none, allocWait before id entry cls page)
  | .hold => (none, before)

/-- Settle a piece of work: on success `good`, on a failure `bad`. -/
def settleKv (before : State) (id entry : Nat) (x : Kout) (good : State → State) (bad : Nat → State → State) : State :=
  match settleOut before id entry x with
  | (some 0, s) => good s
  | (some st, s) => bad st s
  | (none, s) => s

/-- Store an entry's result byte; a failing write ends the command with its status. -/
def resultByte (k : Agent) (a st : Nat) (s : State) : Nat × State := accWrite s k a [BitVec.ofNat 8 st]

/-- KV_APPEND, entry after entry (R191). -/
def appendGo (c : Cmd) (list : List Byte) : Nat → State → State
  | 0, s => s
  | f + 1, s =>
    let r := runOf s c.id
    let k := kvAgentOf s c
    if par c 2 2 ≤ r.next then kvFinish s c.id (if r.failed = 0 then 0 else 0x0208) r.failed
    else
      let e := (list.drop (16 * r.next)).take 16
      let sq := leNat (e.take 2)
      if seqBusy s c.id sq then s
      else
        let next := fun (st : Nat) (s : State) =>
          let w := resultByte k (par c 16 8 + r.next) st s
          if w.1 != 0 then kvFinish w.2 c.id w.1 0
          else
            let x := runOf w.2 c.id
            appendGo c list f (setKvRun w.2 { x with next := r.next + 1, failed := r.failed + b2n (st != 0), left := x.left.drop 1 })
        settleKv s c.id 0 (appendEntry k (par c 0 1) (par c 1 1 != 0) sq (leNat ((e.drop 4).take 4)) (leNat ((e.drop 8).take 8)) s)
          (next 0) next

/-- KV_APPEND: its list is read, and its entries go one after another (R191). -/
def kvAppend (c : Cmd) (s : State) : State :=
  let n := par c 2 2
  if !(mapped s (par c 8 8) (16 * n)) || !(mapped s (par c 16 8) n) then kvFinish s c.id 0x0301 0
  else
    let r := accRead s { agentOf s c with reader := 10 } (par c 8 8) (16 * n)
    if r.st != 0 then kvFinish r.s c.id r.st 0
    else appendGo c r.bytes (n + 1) (kvArrive c.id ((List.range n).map (fun i => leNat ((r.bytes.drop (16 * i)).take 2))) r.s)

/-! ### Sequences (R187–R190) -/

/-- SEQ_CREATE. -/
def seqCreate (c : Cmd) (s : State) : State :=
  match tfind s.kv.profiles (par c 0 1) with
  | none => finish s c.id 0x0121 0
  | some p =>
    match (List.range 1024).find? (fun i => (seqOf s i).isNone) with
    | none => finish s c.id 0x0202 0
    | some i =>
      let t := setSeq s i { state := 1, profile := par c 0 1, prio := par c 2 2, lens := List.replicate p.layers 0, ptes := [],
                            sums := [], last := 0 }
      if metaRoom t then finish t c.id 0 i else finish s c.id 0x0206 0

/-- SEQ_FORK (R188). A summary is taken over only for a page that lies wholly below T. -/
def seqFork (c : Cmd) (s : State) : State :=
  let a := par c 0 2
  let t := par c 4 4
  let s := kvArrive c.id [a] s
  let st := seqCheck s a
  if seqBusy s c.id a then s
  else if st != 0 then kvFinish s c.id st 0
  else match seqOf s a with
    | none => kvFinish s c.id 0x0120 0
    | some x =>
      let w := walk (kvAgentOf s c) a ((allKeys s a).filter (fun y => decide (y % 131072 * 128 < t))) s
      if x.lens.any (fun l => decide (l < t)) then kvFinish s c.id 0x0124 0
      else match (List.range 1024).find? (fun i => (seqOf s i).isNone) with
        | none => kvFinish s c.id 0x0202 0
        | some i =>
          if w.1 != 0 then kvFinish w.2 c.id w.1 0 else
          let s := w.2
          let ptes := x.ptes.filter (fun e => decide (e.1 % 131072 * 128 < t))
          let u := ptes.foldl (fun s e => if pteValid e.2 then
              (match recOf s (ptePid e.2) with
               | some r => setRec s (ptePid e.2) { r with refcnt := r.refcnt + 1 }
               | none => s) else s) s
          let u := setSeq u i { x with lens := x.lens.map (fun _ => t), ptes := ptes,
                                       sums := x.sums.filter (fun e => decide ((e.1 % 131072 + 1) * 128 ≤ t)), last := 0 }
          if metaRoom u then kvFinish u c.id 0 i else kvFinish s c.id 0x0206 0

/-- SEQ_FREE (R189). -/
def seqFree (c : Cmd) (s : State) : State :=
  let i := par c 0 2
  let s := kvArrive c.id [i] s
  if seqBusy s c.id i then s
  else match seqOf s i with
    | none => kvFinish s c.id 0x0120 0
    | some x =>
      if x.state != 1 && x.state != 3 then kvFinish s c.id 0x0123 0
      else
        let w := walk (kvAgentOf s c) i (allKeys s i) s
        if w.1 != 0 then kvFinish w.2 c.id w.1 0
        else
          let s := (x.ptes.filter (fun e => pteValid e.2)).foldl (fun s e => unref (ptePid e.2) s) w.2
          kvFinish (modKv s (fun k => { k with seqs := tdel i k.seqs })) c.id 0 0

/-- Cut one entry of a truncated sequence: dropped when its page lies wholly at or beyond T; the page T cuts is shortened
when it is exclusive and not spilled (R190). -/
def cutEntry (i t : Nat) (s : State) (e : Nat × Nat) : State :=
  let q := e.1 % 131072
  if t ≤ 128 * q then
    let s := dropSum (setPte s i e.1 0) i e.1
    if pteValid e.2 then unref (ptePid e.2) s else s
  else if 128 * (q + 1) ≤ t || !(pteValid e.2) then s
  else match recOf s (ptePid e.2) with
    | none => s
    | some r =>
      if r.refcnt = 1 ∧ r.loc = 1 then
        dropSum (setRec s (ptePid e.2) { r with fill := min r.fill (t - 128 * q),
                                                sealed := r.sealed && decide (r.fill ≤ t - 128 * q) }) i e.1
      else s

/-- SEQ_TRUNCATE (R190). -/
def seqTruncate (c : Cmd) (s : State) : State :=
  let i := par c 0 2
  let t := par c 4 4
  let s := kvArrive c.id [i] s
  let st := seqCheck s i
  if seqBusy s c.id i then s
  else if st != 0 then kvFinish s c.id st 0
  else match seqOf s i with
    | none => kvFinish s c.id 0x0120 0
    | some x =>
      if x.lens.all (fun l => decide (l < t)) then kvFinish s c.id 0x0124 0
      else
        let w := walk (kvAgentOf s c) i ((allKeys s i).filter (fun y => decide (t < (y % 131072 + 1) * 128))) s
        if w.1 != 0 then kvFinish w.2 c.id w.1 0
        else
          let s := x.ptes.foldl (cutEntry i t) w.2
          (match seqOf s i with
           | some y => kvFinish (setSeq s i { y with lens := x.lens.map (fun l => min l t) }) c.id 0 0
           | none => kvFinish s c.id 0 0)

/-! ### Export (R279) -/

/-- Pages of a sequence that the layers and positions of a command name, as (layer, head, page, record). -/
def namedPages (x : Seq) (lf ll pos np : Nat) : List (Nat × Nat × Nat × Nat) :=
  if np = 0 then []
  else (x.ptes.filter (fun e =>
    let l := e.1 / 131072 / 64
    let q := e.1 % 131072
    pteValid e.2 && decide (lf ≤ l) && decide (l ≤ ll) && decide (pos / 128 ≤ q) && decide (q ≤ (pos + np - 1) / 128))).map (fun e =>
      (e.1 / 131072 / 64, e.1 / 131072 % 64, e.1 % 131072, ptePid e.2))

/-- One head's key and value of a position: the bytes written, and whether the token was evicted. -/
def exportVec (raw : Bool) (cls : Nat) (parts : List (List Byte)) : List Byte × List Byte :=
  let f := fun i => if raw then lget [] parts i ++ (if cls = 0 then [] else lget [] parts (i + 2))
    else vecToBf16 cls (lget [] parts i) (lget [] parts (i + 2))
  (f 0, f 1)

/-- The positions of an export, one after another: the status, the positions with an evicted token, and the state. -/
def exportRows (k : Agent) (x : Seq) (raw : Bool) (cls vb l h0 hn pos np dst : Nat) (s : State) : Nat × Nat × State :=
  (List.range np).foldl (fun (acc : Nat × Nat × State) j =>
    if acc.1 != 0 then acc
    else
      let p := pos + j
      let t := (List.range hn).foldl (fun (a : Nat × Bool × List Byte × List Byte × State) h =>
        if a.1 != 0 then a
        else
          let e := pteOf x l (h0 + h) (p / 128)
          let z := List.replicate vb (0 : Byte)
          match (if pteValid e then recOf a.2.2.2.2 (ptePid e) else none) with
          | none => (0, true, a.2.2.1 ++ z, a.2.2.2.1 ++ z, a.2.2.2.2)
          | some rc =>
            let d := readTokens k (ptePid e) rc (p % 128) 1 a.2.2.2.2 (if raw then none else some 4)
            let v := exportVec raw cls d.2.1
            (d.1, a.2.1, a.2.2.1 ++ v.1, a.2.2.2.1 ++ v.2, d.2.2)) (0, false, [], [], acc.2.2)
      if t.1 != 0 then (t.1, acc.2.1, t.2.2.2.2)
      else
        let w := accWrite t.2.2.2.2 k (dst + j * 2 * hn * vb) (t.2.2.1 ++ t.2.2.2.1)
        (w.1, acc.2.1 + b2n t.2.1, w.2)) (0, 0, s)

/-- KV_EXPORT. -/
def kvExport (c : Cmd) (s : State) : State :=
  let i := par c 0 2
  let l := par c 2 1
  let raw := par c 3 1 != 0
  let h0 := par c 4 1
  let hn := par c 5 1
  let pos := par c 8 4
  let np := par c 12 4
  let dst := par c 16 8
  let k := kvAgentOf s c
  let s := kvArrive c.id [i] s
  let st := seqCheck s i
  if seqBusy s c.id i || !(readerFree s) then s
  else if st != 0 then kvFinish s c.id st 0
  else match seqOf s i with
    | none => kvFinish s c.id 0x0120 0
    | some x =>
      if seqLayers s x ≤ l ∨ seqHeads s x < h0 + hn ∨ lget 0 x.lens l < pos + np then kvFinish s c.id 0x0124 0
      else
        let cls := layerRec s x l % 4
        let vb := if raw then vecBytes cls + sclBytes cls else 256
        if !(mapped s dst (np * 2 * hn * vb)) then kvFinish s c.id 0x0301 0
        else
          let w := walk k i ((namedPages x l l pos np).filterMap (fun p =>
            if decide (h0 ≤ p.2.1) && decide (p.2.1 < h0 + hn) then some (pteKey p.1 p.2.1 p.2.2.1) else none)) s
          if w.1 != 0 then kvFinish w.2 c.id w.1 0
          else
            let r := exportRows k x raw cls vb l h0 hn pos np dst w.2
            kvFinish r.2.2 c.id r.1 (if r.1 = 0 then r.2.1 * 2 ^ 32 + np else 0)

/-! ### Spill, prefetch and swap (R206–R213) -/

/-- KV_SPILL_SET. -/
def kvSpillSet (c : Cmd) (s : State) : State :=
  let b := par c 0 8
  let n := par c 8 4
  -- a page is spilled from LOC 2 until it is back, so also at LOC 3
  if s.kv.recs.any (fun r => !(r.2.loc == 1 || r.2.loc == 4) && !(inSwap s r.2)) || b % 2 ^ 30 != 0 || decide (16384 < n) then finish s c.id 0x0122 0
  else if n != 0 && (!(match spaceOf b with | .spill _ => true | _ => false) || !(mapped s b (n * 2 ^ 30))) then
    finish s c.id 0x0301 0
  else finish (rput s .KV_SPILL_AREA [] (n * 2 ^ 48 + b % 2 ^ 48)) c.id 0 0

/-- KV_SWAP_SET. -/
def kvSwapSet (c : Cmd) (s : State) : State :=
  let b := par c 0 8
  let n := par c 8 4
  if s.kv.seqs.any (fun q => q.2.state == 3 || q.2.state == 4) || b % 2 ^ 30 != 0 || decide (16384 < n) then finish s c.id 0x0122 0
  else if n != 0 && (hwinParts s 257 b (n * 2 ^ 30)).isNone then finish s c.id 0x0402 0
  else finish (rput s .KV_SWAP_AREA [] (n * 2 ^ 48 + b % 2 ^ 48)) c.id 0 0

/-- Move a page out to a spill slot, or with `swap` to a swap slot (R208, R211): the status, 0xFFFF for no free slot. A failing
move is reported with its record: one of the manager's own whatever its status, a command's where the fence of R214 follows. A host's
copy that does not come back in time raises none (R316). -/
def moveOut (k : Agent) (swap : Bool) (pid : Nat) (s : State) : Nat × State :=
  match recOf s pid with
  | none => (0, s)
  | some r =>
    match freeSlot (if swap then swapArea s else spillArea s) (if swap then s.kv.swaps else s.kv.slots) r.cls with
    | none => (0xFFFF, s)
    | some a =>
      let n := 1024 * clsRows r.cls
      let x := accRead s k r.addr n
      if x.st != 0 then (x.st, if k.job != 0 then x.s
        else if x.st = 0x0405 then logEv x.s 0x0D 3 8 0 x.st 0 (pid % 2 ^ 30) else kvFault x.s x.st 0 pid)
      else
        let img := x.bytes ++ trailer a x.bytes
        let w : Nat × State :=
          if swap then
            let i := hostIssue x.s a img.length
            if i != 0 then (i, x.s)
            else
              let o := outsideWrite x.s k.job a img
              (o.1, modKv o.2 (fun q => { q with images := tput a img q.images }))
          else accWrite x.s k a img
        if w.1 != 0 then (w.1, kvFault w.2 w.1 k.job pid)
        else
          let s := modKv w.2 (fun q => if swap then { q with swaps := slotKey a r.cls :: q.swaps }
            else { q with slots := slotKey a r.cls :: q.slots })
          (0, retireAll [(0, r.addr)] (setRec s pid { r with addr := a, loc := if swap then 5 else 2 }))

/-- A page begins to move in: LOC 3 (R209); and one whose move is given up keeps its slot. -/
def moveMark (pid : Nat) (s : State) : State :=
  match recOf s pid with
  | some r => if r.loc = 2 ∨ r.loc = 5 then setRec s pid { r with loc := 3 } else s
  | none => s
def moveGive (pid : Nat) (s : State) : State :=
  match recOf s pid with
  | some r => if r.loc = 3 then setRec s pid { r with loc := if inSwap s r then 5 else 2 } else s
  | none => s

/-- Move a page in for page q of a head of a sequence (R209, R212). -/
def moveIn (k : Agent) (pid sq l h q : Nat) (s : State) : Kout :=
  match recOf s pid with
  | none => .ok s
  | some r =>
    if r.loc = 1 ∨ r.loc = 4 then .ok s
    else match placeFrame s r.cls sq l h q with
    | none => .wait r.cls (pteKey l h q)
    | some a =>
      if frameHeld s r.cls a then .hold
      else
        let x := readImage k pid r s
        if x.1 != 0 then .fail x.1 x.2.2
        else
          let w := accWrite x.2.2 k a x.2.1
          if w.1 != 0 then .fail w.1 w.2
          else
            let s := modKv w.2 (fun q => { q with frames := a :: q.frames })
            .ok (retireAll [(locKind s r, slotKey r.addr r.cls)] (setRec s pid { r with addr := a, loc := 1, instep := kvG32 s }))

/-- Note the page record a command is moving in. -/
def setMine (s : State) (id : Nat) (m : Option Nat) : State := setKvRun s { runOf s id with mine := m }

/-- Bring pages in, one after another: none while one waits, else the failing status and its record (0 when all are in). -/
def fetchPages (id : Nat) (k : Agent) (i : Nat) (todo : List (Nat × Nat × Nat × Nat)) (count : State → State) (s : State) :
    Option (Nat × Nat) × State :=
  todo.foldl (fun (acc : Option (Nat × Nat) × State) p =>
    match acc.1 with
    | some (0, _) =>
      let pid := p.2.2.2
      let s := setMine (moveMark pid acc.2) id (some pid)
      match settleOut s id 0 (moveIn k pid i p.1 p.2.1 p.2.2.1 s) with
      | (some 0, t) =>
        let t := count t
        (some (0, 0), setKvRun t { runOf t id with moved := (runOf t id).moved + 1, pages := (runOf t id).pages ++ [pid], mine := none })
      | (some st, t) => (some (st, pid), setMine t id none)
      | (none, t) => (none, t)
    | _ => acc) (some (0, 0), s)

/-- Whether a page is to be brought in for a command: it is spilled, or on its way for this very command (R209). -/
def toFetch (s : State) (id pid : Nat) : Bool :=
  match recOf s pid with
  | some r => !(inSwap s r) && (r.loc == 2 || (r.loc == 3 && (runOf s id).mine == some pid))
  | none => false

/-- KV_PREFETCH (R209). -/
def kvPrefetch (c : Cmd) (s : State) : State :=
  let i := par c 0 2
  let k := kvAgentOf s c
  let s := kvArrive c.id [i] s
  let st := seqCheck s i
  if seqBusy s c.id i || !(readerFree s) then s
  else if st != 0 then kvFinish s c.id st 0
  else match seqOf s i with
    | none => kvFinish s c.id 0x0120 0
    | some x =>
      if seqLayers s x ≤ par c 3 1 ∨ seqLayers s x ≤ par c 2 1 then kvFinish s c.id 0x0124 0
      else
        let named := namedPages x (par c 2 1) (par c 3 1) (par c 4 4) (par c 8 4)
        let w := walk k i (named.map (fun p => pteKey p.1 p.2.1 p.2.2.1)) s
        if w.1 != 0 then kvFinish w.2 c.id w.1 0
        else
          let go := fetchPages c.id k i (named.filter (fun p => toFetch s c.id p.2.2.2)) (fun s => finc s .KV_CNT [2] Fld.KV_CNT_COUNT 1) w.2
          match go with
          | (some (0, _), s) => kvFinish s c.id 0 (runOf s c.id).moved
          | (some (st, pid), s) => kvFinish (moveGive pid s) c.id st (runOf s c.id).moved
          | (none, s) => s

/-- A move of its own goes on: a page that LATE = 1 left out is brought in for a later step (R209, R222). One that fails keeps
its slot. -/
def moveGo (id : Nat) (s : State) : State :=
  match (runOf s id).move with
  | none => s
  | some m =>
    if (recOf s m.pid).isNone then endRun s id
    else if !(readerFree s) then s
    else settleKv s id 0 (moveIn (kvAgent m.job) m.pid m.seq m.layer m.head m.page s)
      (fun s => endRun (finc s .KV_CNT [2] Fld.KV_CNT_COUNT 1) id) (fun _ s => endRun (moveGive m.pid s) id)

/-- Number of a move of its own (log entry 142). -/
def moveId (pid : Nat) : Nat := 2 ^ 32 + pid

/-- Start a move of its own for a spilled page. -/
def moveStart (m : KvMove) (s : State) : State :=
  moveGo (moveId m.pid) (setKvRun (moveMark m.pid s) { runOf s (moveId m.pid) with move := some m })

/-- Spill the named pages that are sealed and resident: the first failing status, the pages moved, and the state. -/
def spillNamed (k : Agent) (ps : List (Nat × Nat × Nat × Nat)) (s : State) : Nat × Nat × State :=
  ps.foldl (fun (acc : Nat × Nat × State) p =>
    if acc.1 != 0 then acc
    else match recOf acc.2.2 p.2.2.2 with
      | some r =>
        if r.sealed && r.loc == 1 then
          let w := moveOut k false p.2.2.2 acc.2.2
          (w.1, acc.2.1 + b2n (w.1 == 0), if w.1 = 0 then finc w.2 .KV_CNT [1] Fld.KV_CNT_COUNT 1 else w.2)
        else acc
      | none => acc) (0, 0, s)

/-- KV_SPILL_PAGES (R208): it stops when no slot is free. -/
def kvSpillPages (c : Cmd) (s : State) : State :=
  let i := par c 0 2
  let k := kvAgentOf s c
  let s := kvArrive c.id [i] s
  let st := seqCheck s i
  if seqBusy s c.id i || !(readerFree s) then s
  else if st != 0 then kvFinish s c.id st 0
  else match seqOf s i with
    | none => kvFinish s c.id 0x0120 0
    | some x =>
      if seqLayers s x ≤ par c 3 1 ∨ seqLayers s x ≤ par c 2 1 then kvFinish s c.id 0x0124 0
      else
        let named := namedPages x (par c 2 1) (par c 3 1) (par c 4 4) (par c 8 4)
        let w := walk k i (named.map (fun p => pteKey p.1 p.2.1 p.2.2.1)) s
        if w.1 != 0 then kvFinish w.2 c.id w.1 0
        else
          let r := spillNamed k named w.2
          if r.1 = 0xFFFF then kvFinish (finc r.2.2 .KV_CNT [7] Fld.KV_CNT_COUNT 1) c.id 0 r.2.1
          else kvFinish r.2.2 c.id r.1 r.2.1

/-- Pages of a sequence that a swap moves: those it alone holds, in stack DRAM (R211). -/
def swapPages (s : State) (x : Seq) : List (Nat × Nat) :=
  (x.ptes.filter (fun e => pteValid e.2 && (match recOf s (ptePid e.2) with | some r => r.refcnt == 1 && r.loc == 1 | none => false))).map
    (fun e => (e.1, ptePid e.2))

/-- Pages of a sequence in swap slots, or on their way from them: (layer, head, page, record). -/
def swappedPages (s : State) (x : Seq) : List (Nat × Nat × Nat × Nat) :=
  (x.ptes.filter (fun e => pteValid e.2 && (match recOf s (ptePid e.2) with
    | some r => (r.loc == 5 || r.loc == 3) && inSwap s r
    | none => false))).map (fun e => (e.1 / 131072 / 64, e.1 / 131072 % 64, e.1 % 131072, ptePid e.2))

def seqState (s : State) (i st : Nat) : State := match seqOf s i with | some y => setSeq s i { y with state := st } | none => s

/-- Work of the manager on a sequence ends: a command with its status, a return of its own without one. -/
def backEnd (id st : Nat) (s : State) : State := if (cmdOf s id).isSome then kvFinish s id st 0 else endRun s id

/-- The pages a swap-in had moved return to the swap area: those still in stack DRAM. One that finds no free slot waits while
slots are on their way back to their pool, and else stays where it is (log entry 142). The sequence is Swapped then (R212). -/
def giveBack (id : Nat) (k : Agent) (b : KvBack) (s : State) : State :=
  let r := (runOf s id).pages.foldl (fun (acc : List Nat × State) p =>
    if (match recOf acc.2 p with | some x => x.loc == 1 | none => false) then
      let w := moveOut k true p acc.2
      if w.1 = 0xFFFF ∧ w.2.kv.retired.any (fun x => x.kind == 2) then (acc.1 ++ [p], w.2) else (acc.1, w.2)
    else acc) ([], s)
  if r.1.isEmpty then backEnd id b.status (seqState r.2 b.seq 3)
  else setKvRun r.2 { runOf r.2 id with pages := r.1, back := some { b with out := true } }

/-- The pages a failed swap-out had moved come back under R212, each waiting for its frame; then the sequence is Active again
(R211). When one finds none in time, all return to the swap area. -/
def backGo (id : Nat) (s : State) : State :=
  match (runOf s id).back with
  | none => s
  | some b =>
    let k := match cmdOf s id with | some c => kvAgentOf s c | none => kvAgent b.job
    if !(readerFree s) then s
    else if b.out then giveBack id k b s
    else match seqOf s b.seq with
      | none => backEnd id b.status s
      | some x =>
        match fetchPages id k b.seq (swappedPages s x) (fun s => s) s with
        | (some (0, _), s) => backEnd id b.status (seqState s b.seq 1)
        | (some (_, pid), s) => giveBack id k b (moveGive pid s)
        | (none, s) => s

/-- A swap of a sequence fails: what it had moved goes back where it was (R211, R212). -/
def swapFail (id i st job : Nat) (out : Bool) (s : State) : State :=
  backGo id (setKvRun s { runOf s id with back := some ⟨i, st, job, out⟩ })

/-- Swap a sequence out (R211): the status, 0xFFFF for no free slot, the pages moved and the state. A sequence whose swap fails is
left Swapping out, with the pages moved so far in the swap area. -/
def swapOut (k : Agent) (i : Nat) (s : State) : Nat × Nat × State :=
  match seqOf s i with
  | none => (0x0120, 0, s)
  | some x =>
    let r := (swapPages s x).foldl (fun (acc : Nat × Nat × State) p =>
      if acc.1 != 0 then acc
      else
        let w := moveOut k true p.2 acc.2.2
        (w.1, acc.2.1 + b2n (w.1 == 0), w.2)) (0, 0, setSeq s i { x with state := 2 })
    if r.1 = 0 then (0, r.2.1, finc (seqState r.2.2 i 3) .KV_CNT [4] Fld.KV_CNT_COUNT 1) else r

/-- SEQ_SWAP_OUT. -/
def seqSwapOut (c : Cmd) (s : State) : State :=
  let i := par c 0 2
  let k := kvAgentOf s c
  let s := kvArrive c.id [i] s
  let st := seqCheck s i
  if (runOf s c.id).back.isSome then backGo c.id s
  else if seqBusy s c.id i || !(readerFree s) then s
  else if st != 0 then kvFinish s c.id st 0
  else
    let w := walk k i (allKeys s i) s
    if w.1 != 0 then kvFinish w.2 c.id w.1 0
    else
      let r := swapOut k i w.2
      if r.1 = 0 then kvFinish r.2.2 c.id 0 r.2.1
      else
        let st := if r.1 = 0xFFFF then 0x0205 else r.1
        swapFail c.id i st k.job false (kvNote w.2 r.2.2 c.id st)

/-- SEQ_SWAP_IN (R212): STATE 4 while the pages of the sequence in swap slots come back, one after another, then Active. An Active
sequence has none (R186). -/
def seqSwapIn (c : Cmd) (s : State) : State :=
  let i := par c 0 2
  let k := kvAgentOf s c
  let s := kvArrive c.id [i] s
  if (runOf s c.id).back.isSome then backGo c.id s
  else if seqBusy s c.id i || !(readerFree s) then s
  else match seqOf s i with
    | none => kvFinish s c.id 0x0120 0
    | some x =>
      if x.state = 1 then kvFinish s c.id 0 0
      else
        let w := walk k i (allKeys s i) s
        if w.1 != 0 then swapFail c.id i w.1 k.job true (kvNote s w.2 c.id w.1)
        else match fetchPages c.id k i (swappedPages s x) (fun s => s) (setSeq w.2 i { x with state := 4 }) with
          | (some (0, _), s) => kvFinish (seqState s i 1) c.id 0 (runOf s c.id).moved
          | (some (st, pid), s) => swapFail c.id i st k.job true (moveGive pid s)
          | (none, s) => s

/-- Watermarks of a class (KV_WM). -/
def wmLow (s : State) (c : Nat) : Nat :=
  let v := fget s .KV_WM [c] Fld.KV_WM_LOW
  if v = 0 then clsTotal s c / 64 else v
def wmHigh (s : State) (c : Nat) : Nat :=
  let v := fget s .KV_WM [c] Fld.KV_WM_HIGH
  max (wmLow s c) (if v = 0 then clsTotal s c / 32 else v)

/-- Pages the watermarks may spill, oldest first (R207). -/
def spillCands (s : State) (c : Nat) : List Nat :=
  let cs := s.kv.recs.filter (fun r => r.2.cls == c && r.2.sealed && r.2.loc == 1 && r.2.instep != kvG32 s)
  let ins := fun (acc : List (Nat × PageRec)) (x : Nat × PageRec) =>
    acc.takeWhile (fun y => decide (y.2.sealG ≤ x.2.sealG)) ++ [x] ++ acc.dropWhile (fun y => decide (y.2.sealG ≤ x.2.sealG))
  (cs.foldl ins []).map (fun r => r.1)

/-- Spill pages one after another until one fails. -/
def spillEach (ps : List Nat) (s : State) : Bool × State :=
  ps.foldl (fun (acc : Bool × State) p =>
    if acc.1 then acc
    else
      let w := moveOut (kvAgent 0) false p acc.2
      if w.1 = 0 then (false, finc w.2 .KV_CNT [1] Fld.KV_CNT_COUNT 1)
      else if w.1 = 0xFFFF then (true, finc w.2 .KV_CNT [7] Fld.KV_CNT_COUNT 1)
      else (true, w.2)) (false, s)

/-- SPILL_START (R207): spill until HIGH would be reached; frames come back as they are retired. A failing move is logged
with its record (R214). -/
def spillStart (c : Nat) (s : State) : State :=
  if clsFree s c ≥ wmLow s c ∨ (spillArea s).2 = 0 ∨ !(readerFree s) then s
  else
    let gone := (s.kv.retired.filter (fun r => r.kind == 0 && s.kv.pool.any (fun b =>
      b.2 == c && decide (b.1 ≤ r.addr) && decide (r.addr < b.1 + 2 ^ 23)))).length
    let need := wmHigh s c - (clsFree s c + gone)
    (spillEach ((spillCands s c).take need) s).2

/-- The sequence pre-emption takes (R213). -/
def preemptPick (s : State) (cls : Nat) : Option Nat :=
  let named := fun i => s.kv.runs.any (fun r => r.names.contains i)
  let has := fun (x : Seq) => x.ptes.any (fun e => pteValid e.2 && (match recOf s (ptePid e.2) with
    | some r => r.cls == cls | none => false))
  let cs := s.kv.seqs.filter (fun q => q.2.state == 1 && !(named q.1) && has q.2)
  let less := fun (a b : Nat × Seq) =>
    decide (a.2.prio < b.2.prio) || (a.2.prio == b.2.prio && (decide (a.2.last < b.2.last) || (a.2.last == b.2.last && decide (b.1 < a.1))))
  match cs with
  | [] => none
  | q :: r => some (r.foldl (fun b x => if less x b then x else b) q).1

/-- Number of a return of its own (log entry 142). -/
def backId (i : Nat) : Nat := 2 ^ 33 + i

/-- A wait for a frame has reached SPILL_WAIT without one (R210, R213): pre-empt a sequence for the work of an agent, or mark the
wait as over. A pre-emption is a reader, which waits for its slot (R195). One that fails leaves its status to the wait (R214). -/
def waitExpire (id : Nat) (k : Agent) (w : KvWait) (s : State) : State :=
  if !(fbit s .KV_CFG [] Fld.KV_CFG_AUTO_PREEMPT && (swapArea s).2 != 0 && decide (w.preempt < 4)) then setWait s id { w with ended := some 0 }
  else match preemptPick s w.cls with
    | none => setWait s id { w with ended := some 0 }
    | some i =>
      if !(readerFree s) then s
      else
        let r := swapOut k i s
        if r.1 = 0 then
          let s := finc r.2.2 .KV_CNT [5] Fld.KV_CNT_COUNT 1
          returnRetired (setWait (logEv s 0x20 0 8 0 0 0 (2 * 2 ^ 48 + i)) id { w with preempt := w.preempt + 1 })
        else
          let st := if r.1 = 0xFFFF then 0 else r.1
          swapFail (backId i) i st k.job false (setWait (kvNote s r.2.2 id st) id { w with ended := some st })

def execKvPoolSet (k : Nat) (s : State) : Res3 := s.run (cmdStart k 0x30 kvPoolSet)
def execKvProfileSet (k : Nat) (s : State) : Res3 := s.run (cmdStart k 0x31 kvProfileSet)
def execSeqCreate (k : Nat) (s : State) : Res3 := s.run (kvDo k (cmdStart k 0x32 seqCreate))
def execSeqFork (k : Nat) (s : State) : Res3 := s.run (kvDo k (cmdGo k 0x33 seqFork))
def execSeqFree (k : Nat) (s : State) : Res3 := s.run (kvDo k (cmdGo k 0x34 seqFree))
def execSeqTruncate (k : Nat) (s : State) : Res3 := s.run (kvDo k (cmdGo k 0x35 seqTruncate))
def execKvAppend (k : Nat) (s : State) : Res3 := s.run (kvDo k (cmdGo k 0x36 kvAppend))
def execKvExport (k : Nat) (s : State) : Res3 := s.run (kvDo k (cmdGo k 0x37 kvExport))
def execKvSpillSet (k : Nat) (s : State) : Res3 := s.run (cmdStart k 0x40 kvSpillSet)
def execKvSwapSet (k : Nat) (s : State) : Res3 := s.run (cmdStart k 0x41 kvSwapSet)
def execKvPrefetch (k : Nat) (s : State) : Res3 := s.run (kvDo k (cmdGo k 0x42 kvPrefetch))
def execKvSpillPages (k : Nat) (s : State) : Res3 := s.run (kvDo k (cmdGo k 0x43 kvSpillPages))
def execSeqSwapOut (k : Nat) (s : State) : Res3 := s.run (kvDo k (cmdGo k 0x44 seqSwapOut))
def execSeqSwapIn (k : Nat) (s : State) : Res3 := s.run (kvDo k (cmdGo k 0x45 seqSwapIn))
def execSpillStart (cls : Fin 3) (s : State) : Res3 := s.run (metaDo (spillStart cls.val))
def execRetiredReturn (s : State) : Res3 := s.run returnRetired

end Sys2Proof.Machine
end

