-- ==== Sys2Proof/Machine/Attend.lean ====
section
/-! DEFINITION. Attention passes: reader slots, prescaling, selection, page runs, the merge units and the output
(R195, R198, R199, R217–R237). -/

namespace Sys2Proof.Machine

/-! ### Commands, entries and their places -/

def attOf (s : State) (id : Nat) : Option Attend := s.attends.find? (fun a => a.cmd == id)

def setEntry (s : State) (id : Nat) (e : AttEntry) : State :=
  { s with attends := s.attends.map (fun a => if a.cmd == id then
      { a with entries := a.entries.map (fun x => if x.idx == e.idx then e else x) } else a) }

def attEntry (s : State) (id idx : Nat) : Option AttEntry := (attOf s id).bind (fun a => a.entries.find? (fun e => e.idx == idx))

def cmdJobId (s : State) (id : Nat) : Nat := match cmdOf s id with | some c => cmdJob s c | none => 0

/-- The holder number of an entry's reader slot. -/
def attHolder (id idx : Nat) : Nat := id * 2048 + idx

/-- Merge tag of a context (R228). -/
def mrgTag (kind sq pair : Nat) : Nat := kind * 2 ^ 31 + sq % 1024 * 2 ^ 21 + pair % 64 * 2 ^ 15

def tagOf (e : AttEntry) (w : AttWork) : Nat := mrgTag w.kind e.seq (if w.kind = 1 then w.head else w.pair)

/-- The manager's agent for a pass. -/
def attAgent (s : State) (id : Nat) : Agent := match cmdOf s id with | some c => kvAgentOf s c | none => kvAgent 0

/-- The bank address that serves a run. -/
def workBank (s : State) (e : AttEntry) (w : AttWork) : Nat :=
  if w.kind = 1 then blockBank s w.page
  else match e.pages.find? (fun p => p.head == w.head && p.page == w.page) with
    | some p => p.addr / 2 ^ 23 * 2 ^ 23
    | none => 0

def towerOf (s : State) (a : Nat) : Nat := match bankOf s a with | some b => b / 512 / 64 | none => 0

/-- Close an entry's merge contexts without output (R237). -/
def closeCtxs (id idx : Nat) (s : State) : State :=
  let mine := fun (c : MrgCtx) => c.cmd == id && c.entry == idx
  { s with mrg := s.mrg.map (fun m => (m.1, { m.2 with ctxs := m.2.ctxs.filter (fun c => !(mine c)),
                                                       out := m.2.out.filter (fun c => !(mine c)) })),
           floor := s.floor.filter (fun c => !(c.cmd == id && c.entry == idx)) }

/-- Free an entry's reader slot, or take it out of the line for one. -/
def dropReader (h : Nat) (s : State) : State :=
  modKv s (fun k => { k with readers := k.readers.filter (fun p => p.1 != h), waiting := k.waiting.filter (fun x => x != h) })

/-- The command is over once every entry is (R218). -/
def attDone (id : Nat) (s : State) : State :=
  match attOf s id with
  | none => s
  | some a =>
    if a.entries.all (fun e => e.stage == 2) then
      let bad := (a.entries.filter (fun e => e.status != 0)).length
      finish (endRun { s with attends := s.attends.filter (fun x => x.cmd != id) } id) id (if bad = 0 then 0 else 0x0208) bad
    else s

/-- End a command's whole pass with a status. -/
def attAbort (id st : Nat) (s : State) : State :=
  match attOf s id with
  | none => s
  | some a =>
    let s := a.entries.foldl (fun s e => dropReader (attHolder id e.idx) (closeCtxs id e.idx s)) s
    finish (endRun { s with attends := s.attends.filter (fun x => x.cmd != id),
                            pageRuns := s.pageRuns.filter (fun r => r.cmd != id) } id) id st 0

/-- The drain of a pass: every unfinished entry reports 0x0601 in its result byte, and the command as a whole (R237). -/
def attDrain (id : Nat) (s : State) : State :=
  match attOf s id with
  | none => s
  | some a => attAbort id 0x0601 ((a.entries.filter (fun e => e.stage != 2)).foldl (fun s e =>
      (resultByte (attAgent s id) (a.raddr + e.idx) 0x0601 s).2) s)

/-- An entry ends with its status: its result byte is written and its slot freed (R191, R219). -/
def entryEnd (id idx st : Nat) (s : State) : State :=
  match attOf s id, attEntry s id idx with
  | some a, some e =>
    let s := dropReader (attHolder id idx) (closeCtxs id idx s)
    let s := setKvRun s { runOf s id with left := (runOf s id).left.erase e.seq }
    let s := if isWordFault st then modKv s (fun k => { k with faults := tput id st k.faults }) else s
    let s := if st = 0 then finc s .KV_ATT_CNT [0] Fld.KV_ATT_CNT_COUNT 1 else s
    let s := setEntry s id { e with stage := 2, status := st, work := [], pages := [], open_ := [], mass := [], outs := [] }
    let w := resultByte (attAgent s id) (a.raddr + idx) st s
    if w.1 != 0 then attAbort id w.1 w.2 else attDone id w.2
  | _, _ => s

/-! ### Queries (R220) -/

/-- scale × log2 e, rounded once to FP32. -/
def preScale (scale : Nat) : Nat :=
  match fdec .fp32 scale with
  | .fin n m e => froundRat .fp32 n (m * pow2 e * 2 ^ 224) (pow2 (-e) * ln2Fix)
  | x => fenc .fp32 x

/-- Query vectors as BF16 patterns, prescaled. -/
def preQuery (c : Nat) (b : List Byte) (qh : Nat) : List (List Nat) :=
  (List.range qh).map (fun j => (bf16s ((b.drop (256 * j)).take 256)).map (fun x =>
    fencOr .bf16 32 [x, c] ((fdec .bf16 x).isNan || (fdec .fp32 c).isNan) (fmul (fdec .bf16 x) (fdec .fp32 c))))

/-- Exact sum of values. -/
def fsum (xs : List FVal) : FVal := xs.foldl fadd (.fin false 0 0)

/-- The mean of BF16 elements, rounded to BF16; a sum that does not exist is open (log entry 9). -/
def meanBf16 (xs : List Nat) : Nat :=
  let vs := xs.map (fdec .bf16)
  match fsum vs with
  | .fin neg m e => froundRat .bf16 neg (m * pow2 e) (pow2 (-e) * xs.length)
  | x => fencOr .bf16 38 [leNat (xs.flatMap (leBytes 2))] (vs.any FVal.isNan) x

/-- The selector query of a KV head. -/
def selQuery (g : Nat) (q : List (List Nat)) (h : Nat) : List Nat :=
  let mine := (List.range g).map (fun j => lget [] q (h * g + j))
  if g = 1 then lget [] mine 0
  else (List.range 128).map (fun i => meanBf16 (mine.map (fun v => lget 0 v i)))

/-! ### Resolution and selection (R218–R224) -/

/-- Pages of a KV head as the entry resolves them, with the candidates of R221. -/
def resolveHead (s : State) (x : Seq) (l h : Nat) : List AttPage :=
  let len := lget 0 x.lens l
  let rec_ := layerRec s x l
  let raw : List AttPage := (x.ptes.filter (fun e => e.1 / 131072 == l * 64 + h && pteValid e.2)).filterMap (fun e =>
    let q := e.1 % 131072
    (recOf s (ptePid e.2)).map (fun r =>
      { head := h, page := q, pid := ptePid e.2, fill := min r.fill (len - 128 * q), cls := r.cls, addr := r.addr,
        sealed := r.sealed && decide (128 * (q + 1) ≤ len), cand := false, pick := false, late := r.loc == 2 || r.loc == 3,
        skip := false }))
  let done := raw.filter (fun p => p.sealed)
  let newest := (done.drop (done.length - bits rec_ 15 8)).map (fun p => p.page)
  raw.map (fun p => { p with cand := p.sealed && decide (bits rec_ 7 4 ≤ p.page) && !(newest.contains p.page) })

/-- Settle the set of a head that needs no scoring; another head keeps its fixed pages and stays open (R221). -/
def fixHead (topp : Nat) (index : Bool) (ps : List AttPage) : Bool × List AttPage :=
  if !index || topp = 0 || decide ((ps.filter (fun p => p.cand)).length ≤ topp) then (false, ps.map (fun p => { p with pick := true }))
  else (true, ps.map (fun p => { p with pick := !p.cand }))

/-- Index runs of a head: the blocks that hold a candidate (R228). -/
def indexWork (s : State) (h : Nat) (ps : List AttPage) : List AttWork :=
  (((ps.filter (fun p => p.cand)).map (fun p => p.page / 8)).eraseDups).map (fun b => ⟨1, 0, h, b, towerOf s (blockBank s b)⟩)

/-- Pairs that hold a query head of a KV head (R227). -/
def headPairs (g h : Nat) : List Nat := (List.range' (h * g / 2) ((h * g + g - 1) / 2 + 1 - h * g / 2))

/-- Pages in ascending order of their index, those of one index by KV head. -/
def byPage (ps : List AttPage) : List AttPage :=
  ps.foldl (fun acc p => acc.takeWhile (fun x => decide (x.page ≤ p.page)) ++ [p] ++ acc.dropWhile (fun x => decide (x.page ≤ p.page))) []

/-- List an entry's page runs: pair by pair, the pages of a pair ascending, of both its KV heads where it has two (R227, R232). -/
def pageWork (s : State) (g qh : Nat) (ps : List AttPage) : List AttWork :=
  (List.range ((qh + 1) / 2)).flatMap (fun r =>
    (byPage (ps.filter (fun p => p.pick && !p.skip && decide (0 < p.fill) && (headPairs g p.head).contains r))).map (fun p =>
      ⟨0, r, p.head, p.page, towerOf s p.addr⟩))

/-- What the late pages of an entry come to (R222), page after page; an error is the state, what the page waits for or fails with,
and its record. Under LATE = 1 a prefetch of each is started and goes on by itself. -/
def settleLate (k : Agent) (e : AttEntry) (late1 : Bool) (ps : List AttPage) (s : State) :
    Except (State × Kout × Nat) (List AttPage × State) :=
  ps.foldl (fun acc p =>
    match acc with
    | .error x => .error x
    | .ok (done, s) =>
      let loc := match recOf s p.pid with | some r => r.loc | none => 1
      if !(p.pick && p.late) then .ok (done ++ [p], s)
      else if late1 then
        let s := finc s .KV_ATT_CNT [4] Fld.KV_ATT_CNT_COUNT 1
        .ok (done ++ [{ p with skip := true }],
          if loc = 2 then moveStart ⟨p.pid, e.seq, e.layer, p.head, p.page, k.job⟩ s else s)
      else
        let here := fun (s : State) => match recOf s p.pid with | some r => r.addr | none => p.addr
        if loc = 1 ∨ loc = 4 then .ok (done ++ [{ p with late := false, addr := here s }], s)
        else if !(readerFree s) then .error (s, .hold, p.pid)
        else
          let s := moveMark p.pid s
          match moveIn k p.pid e.seq e.layer p.head p.page s with
          | .ok t => .ok (done ++ [{ p with late := false, addr := here t }],
              finc (finc t .KV_CNT [2] Fld.KV_CNT_COUNT 1) .KV_ATT_CNT [3] Fld.KV_ATT_CNT_COUNT 1)
          | x => .error (s, x, p.pid)) (.ok ([], s))

/-! ### Output and mass (R235, R236, R199) -/

/-- o ÷ L rounded to a format; a division by zero and a quotient of infinities are open (log entry 9). -/
def fdivEnc (f : Fmt) (ob lb : Nat) : Nat :=
  let openv := Config.openFloat 33 ob lb 0 % 2 ^ f.width
  match fdec .fp32 ob, fdec .fp32 lb with
  | .fin n m e, .fin k d g => if d = 0 then openv else froundRat f (n != k) (m * pow2 (e - g)) (d * pow2 (g - e))
  | .inf n, .fin k d _ => if d = 0 then openv else fenc f (.inf (n != k))
  | .fin n _ _, .inf k => fenc f (.fin (n != k) 0 0)
  | .inf _, .inf _ => openv
  | _, _ => f.qnan

/-- log2 of a value before rounding, none where it has none. -/
def flog2Val : FVal → Option FVal
  | .fin n m e => if m = 0 ∨ n then none else some (log2Val (m * pow2 e) (pow2 (-e)))
  | .inf n => if n then none else some (.inf false)
  | .nan => some .nan

/-- M + log2 L, rounded once; open where it does not exist (log entry 9). -/
def logSum (m l : Nat) : Nat :=
  let x := fdec .fp32 m
  match flog2Val (fdec .fp32 l) with
  | none => if x.isNan then Fmt.fp32.qnan else Config.openFloat 34 m l 0 % 2 ^ 32
  | some y => fencOr .fp32 34 [m, l] (x.isNan || y.isNan) (fadd x y)

/-- The bytes of a head's output and of its log-sum; a head with no partial keeps open values. -/
def headOut (fp32 : Bool) (p : Option Partial) (s : State) : List Byte × List Byte × State :=
  let f := if fp32 then Fmt.fp32 else Fmt.bf16
  let w := if fp32 then 4 else 2
  match p with
  | none =>
    let x := freeBytes s (128 * w)
    let y := freeBytes x.2 4
    (x.1, y.1, y.2)
  | some p =>
    let nan := fdec .fp32 p.m == .nan || p.o.any (fun x => fdec .fp32 x == .nan)
    ((List.range 128).flatMap (fun i => leBytes w (if nan then f.qnan else fdivEnc f (lget 0 p.o i) p.l)),
     leBytes 4 (logSum p.m p.l), s)

/-- A finite value as a rational. -/
def fratOf : FVal → Option Rat
  | .fin n m e => some ((sgn n m * (pow2 e : Int) : Int) / ((pow2 (-e) : Nat) : Rat))
  | _ => none

/-- The weight of a page in a head's result: l × 2^(m − M) ÷ L (R236); none where it is no number. -/
def massWeight (m l gm gl : Nat) : Option Rat :=
  match fadd (fdec .fp32 m) (fneg (fdec .fp32 gm)), fratOf (fdec .fp32 l), fratOf (fdec .fp32 gl) with
  | .fin n x e, some a, some b =>
    (fratOf (exp2Val (sgn n x * (pow2 e : Int)) (-e).toNat)).bind (fun p => if b = 0 then none else some (a * p / b))
  | .inf true, some _, some _ => some 0
  | _, _, _ => none

/-- min(2^24, mass × 2^24 to nearest even) (R199). -/
def massQ (x : Rat) : Nat := min (2 ^ 24) (divRne (x.num.toNat * 2 ^ 24) x.den)

/-- Add a pass's mass to a page's score (R199). -/
def scoreAdd (pid mq : Nat) (s : State) : State :=
  match recOf s pid with
  | none => s
  | some r => setRec s pid { r with score := min (2 ^ 32 - 1) (r.score / 2 ^ decay s r.lastG + mq), lastG := s.kv.g }

/-- Report the masses of an entry's attended sealed pages. -/
def reportMass (g : Nat) (e : AttEntry) (s : State) : State :=
  (e.pages.filter (fun p => p.pick && !p.skip && p.sealed)).foldl (fun s p =>
    let ws := (List.range g).map (fun j =>
      let h := p.head * g + j
      match e.mass.find? (fun x => lget 0 x 0 == p.pid && lget 0 x 1 == p.page && lget 0 x 2 == h), tfind e.outs h with
      | some x, some r => massWeight (lget 0 x 3) (lget 0 x 4) r.m r.l
      | _, _ => some 0)
    if ws.any (fun w => w.isNone) then let f := free s; scoreAdd p.pid (f.1 % (2 ^ 24 + 1)) f.2
    else scoreAdd p.pid (massQ ((ws.foldl (fun a w => a + w.getD 0) 0) / (g : Rat))) s) s

/-- Write an entry's output, then its mass and its result (R235, R236). -/
def entryOut (id idx : Nat) (s : State) : State :=
  match attOf s id, attEntry s id idx with
  | some a, some e =>
    let qh := e.q.length
    let r := (List.range qh).foldl (fun (acc : List Byte × List Byte × State) j =>
      let o := headOut (tbit a.flg 3) (tfind e.outs j) acc.2.2
      (acc.1 ++ o.1, acc.2.1 ++ o.2.1, o.2.2)) ([], [], s)
    let w := accWrite r.2.2 (attAgent s id) e.oaddr (r.1 ++ if tbit a.flg 4 then r.2.1 else [])
    if w.1 != 0 then entryEnd id idx w.1 w.2 else entryEnd id idx 0 (reportMass a.group e w.2)
  | _, _ => s

/-- Once an entry has no run left and no merge open, its output is written. -/
def entryCheck (id idx : Nat) (s : State) : State :=
  match attEntry s id idx with
  | some e =>
    if e.stage = 1 && e.planned && e.work.isEmpty && !(s.floor.any (fun c => c.cmd == id && c.entry == idx)) then entryOut id idx s
    else s
  | none => s

/-- Once every selection of an entry is made, its late pages are settled and its page runs listed (R222). -/
def entryPlan (id idx : Nat) (s : State) : State :=
  match attOf s id, attEntry s id idx with
  | some a, some e =>
    if e.stage != 1 || e.planned || !e.open_.isEmpty || !e.work.isEmpty then s
    else
      match settleLate (attAgent s id) e (tbit a.flg 0) e.pages s with
      | .ok (ps, s) =>
        let s := noWait s id idx
        entryCheck id idx (setEntry s id { e with pages := ps, planned := true, work := pageWork s a.group e.q.length ps })
      | .error (before, x, pid) => settleKv before id idx x (fun s => s) (fun st s => entryEnd id idx st (moveGive pid s))
  | _, _ => s

/-! ### Starting (R195, R217–R219) -/

/-- An entry that holds its slot resolves its sequence (R218, R219). -/
def entryStart (id idx : Nat) (s : State) : State :=
  match attOf s id, attEntry s id idx with
  | some a, some e =>
    let k := attAgent s id
    -- R218: an entry whose sequence is not Active, a Free one among them, has 0x0123
    let st := if e.seq > 1023 then 0x0120 else if seqCheck s e.seq != 0 then 0x0123 else 0
    if st != 0 then entryEnd id idx st s
    else match seqOf s e.seq with
      | none => entryEnd id idx 0x0123 s
      | some x =>
        let l := e.layer
        let hs := seqHeads s x
        let qh := hs * a.group
        let index := tbit (layerRec s x l) 3
        if seqLayers s x ≤ l then entryEnd id idx 0x0124 s
        else if 128 < qh then entryEnd id idx 0x0125 s
        else if index && a.topp != 0 && (List.range (metaSize s / 2 ^ 30)).any (fun i => striped s (metaBase s / 2 ^ 30 + i)) then
          entryEnd id idx 0x0803 s
        else
          let v := walk k e.seq ((allKeys s e.seq).filter (fun y => y / 131072 / 64 == l)) s
          if v.1 != 0 then entryEnd id idx v.1 (kvNote s v.2 id v.1) else
          let r := accRead v.2 k e.qaddr (256 * qh) [] (some 4)
          if r.st != 0 then entryEnd id idx r.st r.s
          else if lget 0 x.lens l = 0 then
            let w := accWrite r.s k e.oaddr (List.replicate (qh * 128 * (if tbit a.flg 3 then 4 else 2)) 0
              ++ if tbit a.flg 4 then (List.range qh).flatMap (fun _ => leBytes 4 0xFF800000) else [])
            entryEnd id idx w.1 w.2
          else
            let q := preQuery (preScale a.scale) r.bytes qh
            let hd := (List.range hs).map (fun h => (h, fixHead a.topp index (resolveHead r.s x l h)))
            let opens := (hd.filter (fun p => p.2.1)).map (fun p => p.1)
            let e : AttEntry :=
              { e with stage := 1, q := q, sel := (List.range hs).map (selQuery a.group q), pages := hd.flatMap (fun p => p.2.2),
                       open_ := opens, work := (hd.filter (fun p => p.2.1)).flatMap (fun p => indexWork r.s p.1 p.2.2) }
            entryPlan id idx (setEntry r.s id e)
  | _, _ => s

/-- An entry takes a reader slot and starts, or waits in line (R195). -/
def entryAsk (id : Nat) (s : State) (e : AttEntry) : State :=
  let h := attHolder id e.idx
  match attEntry s id e.idx with
  | none => s
  | some e =>
    if e.stage != 0 || seqBusy s id e.seq || s.kv.waiting.contains h then s
    else if s.kv.waiting.isEmpty && readerFree s then
      entryStart id e.idx (modKv s (fun k => { k with readers := k.readers ++ [(h, k.epoch)] }))
    else modKv s (fun k => { k with waiting := k.waiting ++ [h] })

/-- Take a pass further: entries that wait, and entries whose late pages wait for frames. -/
def attGo (id : Nat) (s : State) : State :=
  match attOf s id with
  | none => s
  | some a => a.entries.foldl (fun s e => entryPlan id e.idx (entryAsk id s e)) s

/-- KV_ATTEND (R217, R218). -/
def kvAttend (c : Cmd) (s : State) : State :=
  if (attOf s c.id).isSome then attGo c.id s
  else
    let n := par c 6 2
    let g := par c 1 1
    if !(mapped s (par c 16 8) (24 * n)) || !(mapped s (par c 24 8) n) then finish s c.id 0x0301 0
    else
      let r := accRead s { agentOf s c with reader := 10 } (par c 16 8) (24 * n)
      if r.st != 0 then finish r.s c.id r.st 0
      else
        let f := fun i off sz => leNat ((r.bytes.drop (24 * i + off)).take sz)
        let seqs := (List.range n).map (fun i => f i 0 2)
        if g = 0 || decide (16 < g) || decide (256 < par c 4 2) || decide (32 ≤ par c 2 1) || seqs.eraseDups.length != n then
          finish r.s c.id 0x0125 0
        else
          let s := if tbit (par c 2 1) 2 then modKv r.s (fun k => { k with g := (k.g + 1) % 2 ^ 40 }) else r.s
          let es : List AttEntry := (List.range n).map (fun i =>
            { idx := i, seq := f i 0 2, qaddr := f i 8 8, oaddr := f i 16 8, stage := 0, status := 0, layer := par c 0 1, q := [],
              sel := [], pages := [], open_ := [], planned := false, work := [], mass := [], outs := [] })
          let a : Attend := ⟨c.id, g, par c 4 2, par c 2 1, par c 8 4, par c 24 8, es⟩
          attDone c.id (attGo c.id (kvArrive c.id seqs { s with attends := s.attends ++ [a] }))

/-- Work of the manager's own goes on: a page move, or the return of a sequence. -/
def ownGo (id : Nat) (s : State) : State :=
  if (cmdOf s id).isSome then s else if (runOf s id).move.isSome then moveGo id s else backGo id s

/-- READER_SLOT_GRANT: the oldest waiting reader takes a free slot (R195); work of the manager's own goes on. -/
def readerGrant (s : State) : State :=
  let s := s.kv.runs.foldl (fun s r => ownGo r.cmd s) s
  match s.kv.waiting with
  | [] => s
  | h :: r =>
    if !(readerFree s) then s
    else entryStart (h / 2048) (h % 2048) (modKv s (fun k => { k with waiting := r, readers := k.readers ++ [(h, k.epoch)] }))

/-! ### Runs (R225–R230) -/

/-- Dot products over columns of `w` elements, each rounded and added with one rounding (R225, R227). -/
def colDots (w : Nat) (q k : List FVal) (acc : Nat) : Nat :=
  (List.range (q.length / w)).foldl (fun t c =>
    let d := fenc .fp32 (fsum (List.zipWith fmul ((q.drop (c * w)).take w) ((k.drop (c * w)).take w)))
    f32add t d) acc

/-- The bound of a summary (R225). -/
def boundOf (sel : List Nat) (u : List Nat) : Nat :=
  let v := sel.map (fdec .bf16)
  let z := fun b => FVal.fin b 0 0
  let d := u.map (fdec .bf16)
  colDots 32 (v.map (fun x => fmin x (z true))) (d.drop 128) (colDots 32 (v.map (fun x => fmax x (z false))) (d.take 128) 0)

/-- An accumulator of R227. -/
structure RunAcc where
  m : Nat
  l : Nat
  o : List Nat

/-- One token of a page run (R227). -/
def runToken (w : Nat) (q : List FVal) (acc : RunAcc) (kv : List FVal × List FVal) : RunAcc :=
  let t := colDots w q kv.1 0
  let mn := f32max acc.m t
  let r := f32exp2 (f32sub acc.m mn)
  let p := f32exp2 (f32sub t mn)
  { m := mn, l := f32add (f32mul acc.l r) p,
    o := List.zipWith (fun x v => fenc .fp32 (fadd (fdec .fp32 (f32mul x r)) (fmul (fdec .fp32 p) v))) acc.o kv.2 }

/-- The partial of one query head over a page's tokens. -/
def runHead (cls : Nat) (q : List Nat) (toks : List (List FVal × List FVal)) : Partial :=
  let r := toks.foldl (runToken (match cls with | 0 => 32 | 1 => 64 | _ => 128) (q.map (fdec .bf16))) ⟨0xFF800000, 0, List.replicate 128 0⟩
  ⟨r.m, r.l, r.o⟩

/-- The partial of a head that does not attend the page: ignored by every merge (R228). -/
def noPartial : Partial := ⟨0xFF800000, 0, List.replicate 128 0⟩

/-- FP32 lanes packed into latch units (R145). -/
def packLanes (xs : List Nat) : List Nat :=
  (List.range ((xs.length + 15) / 16)).map (fun i => leNat (((xs.drop (16 * i)).take 16).flatMap (fun x => leBytes 4 x)))

/-- Lane i of a record's units. -/
def unitLane (us : List Nat) (i : Nat) : Nat := lget 0 us (i / 16) / 2 ^ (32 * (i % 16)) % 2 ^ 32

/-- A partial record (R228). -/
def partialUnits (pid page : Nat) (p0 : Partial) (p1 : Option Partial) : List Nat :=
  let h1 := p1.getD noPartial
  packLanes ([p0.m, p0.l, h1.m, h1.l, pid, page] ++ List.replicate 10 0 ++ p0.o ++ match p1 with | some x => x.o | none => [])

/-- The first column of a bank's row 8,191: the attention descriptor, with the queries in the eight after it (R177, R224, R226). -/
def descCol : Nat := 8191 * 16

/-- The descriptor of a run: VALID, its IN range, and the query columns as its OUT range, which it does not write; P10 to P15 are
the firmware's own and open (R153; log entry 143). -/
def descBytes (range : Nat × Nat) (s : State) : List Byte × State :=
  let p := freeBytes s 48
  (leBytes 8 (2 ^ 63 + range.2 * 2 ^ 46 + range.1 * 2 ^ 6) ++ leBytes 8 (8 * 2 ^ 46 + (descCol + 1) * 2 ^ 6) ++ p.1, p.2)

/-- The descriptor and the queries a run needs, written into the query area of its bank (R226). -/
def queryArea (k : Agent) (base : Nat) (range : Nat × Nat) (q0 q1 : List Nat) (s : State) : Nat × State :=
  let d := descBytes range s
  let by_ := fun (v : List Nat) => (List.range 128).flatMap (fun i => leBytes 2 (lget 0 v i))
  accWrite d.2 k (base + 64 * descCol) (d.1 ++ by_ q0 ++ by_ q1)

/-- The record an index run makes of its block's bytes (R225, R228). -/
def indexRecord (e : AttEntry) (w : AttWork) (block : List Byte) : List Nat :=
  packLanes ((List.range 8).map (fun u => boundOf (lget [] e.sel w.head) (bf16s ((block.drop (512 * u)).take 512)))
    ++ (List.range 8).map (fun u => 8 * w.page + u))

/-- Bytes a run has read: n from column `col` of its bank on. -/
def gotBytes (pr : PageRun) (col n : Nat) : List Byte :=
  ((List.range ((n + 63) / 64)).flatMap (fun i => tget (List.replicate 64 0) pr.got (col + i))).take n

/-- The record a page run makes of what it has read. -/
def pageRecord (job : Nat) (g : Nat) (e : AttEntry) (pr : PageRun) (p : AttPage) (s : State) : List Nat × State :=
  let w := pr.work
  let at_ := (p.addr - p.addr / 2 ^ 23 * 2 ^ 23) / 64
  let o := openParts job ((tokParts p.cls 0 p.fill).map (fun x => gotBytes pr (at_ + x.1 / 64) x.2)) s
  let vals := keysOf p.cls p.fill [lget [] o.1 1, [], lget [] o.1 3]
  let toks := (keysOf p.cls p.fill o.1).zip vals
  let one := fun h => if h / g = w.head then runHead p.cls (lget [] e.q h) toks else noPartial
  (partialUnits p.pid p.page (one (2 * w.pair))
    (if 2 * w.pair + 1 < e.q.length then some (one (2 * w.pair + 1)) else none), o.2)

/-- The open context of a tag at a tower. -/
def ctxAt (s : State) (t tag : Nat) : Option MrgCtx := (mrgOf s t).ctxs.find? (fun c => c.tag == tag)

/-- Towers that serve a context's runs still listed, with their number of records (R230). -/
def ctxTowers (e : AttEntry) (tag : Nat) : List (Nat × Nat) :=
  let ws := e.work.filter (fun w => tagOf e w == tag)
  ((List.range 16).map (fun t => (t, (ws.filter (fun w => w.tower == t)).length))).filter (fun p => p.2 != 0)

/-- Whether a run's context is open or may be opened now (R230). -/
def ctxRoom (s : State) (e : AttEntry) (w : AttWork) : Bool :=
  s.floor.any (fun c => c.tag == tagOf e w)
    || (decide (s.floor.length < 256) && (ctxTowers e (tagOf e w)).all (fun p => decide ((mrgOf s p.1).ctxs.length < 2048)))

/-- Open a context in its towers and in the floor merge. -/
def ctxOpen (id : Nat) (e : AttEntry) (w : AttWork) (s : State) : State :=
  let tag := tagOf e w
  if s.floor.any (fun c => c.tag == tag) then s
  else
    let ts := ctxTowers e tag
    let s := ts.foldl (fun s p => let m := mrgOf s p.1
      setMrg s p.1 { m with ctxs := m.ctxs ++ [(⟨tag, id, e.idx, p.2, 0, [none, none], []⟩ : MrgCtx)] }) s
    { s with floor := s.floor ++ [⟨tag, id, e.idx, ts.map (fun p => p.1), []⟩] }

/-- With DET = 1, whether a run is the next of its context in its tower: the lowest page listed, with no run of the context under
way there and every earlier record accepted (R232). -/
def detReady (s : State) (a : Attend) (e : AttEntry) (w : AttWork) : Bool :=
  let same := fun (x : AttWork) => tagOf e x == tagOf e w && x.tower == w.tower
  !(tbit a.flg 1) ||
    (!(s.pageRuns.any (fun r => r.cmd == a.cmd && r.entry == e.idx && same r.work)) && e.work.find? same == some w
      && match ctxAt s w.tower (tagOf e w) with
        | none => true
        | some c => decide (c.expect ≤ c.got + (e.work.filter same).length))

/-- Whether a unit has a command of slots 48 to 63 pending or on its way (R150). -/
def fwPending (s : State) (b : Nat) : Bool :=
  (nbUnit s b).pendF.isSome || s.nbFlight.any (fun e => e.1 == b && decide (48 ≤ e.2.slot))

/-- Whether a run may join the wave of its tower now: its bank serves none yet, has no other command of those slots to come (R150)
and its query area is not held by a near-bank command (R194), its context can open, and with DET = 1 its turn has come (R226, R230,
R232). -/
def canDispatch (s : State) (a : Attend) (e : AttEntry) (w : AttWork) : Bool :=
  match bankOf s (workBank s e w) with
  | none => true
  | some b => pillarOff s (b / 512) || (!(s.pageRuns.any (fun r => r.bank == b)) && !(fwPending s b) && ctxRoom s e w && detReady s a e w
      && !(nbTouch s (workBank s e w + 8191 * 1024) 576 true))

/-- The frame or block a run reads, in 64-byte columns of its bank: first and number. -/
def runRange (s : State) (e : AttEntry) (w : AttWork) : Nat × Nat :=
  let base := workBank s e w
  if w.kind = 1 then ((blockAt s e.seq (e.layer * 64 + w.head) w.page - base) / 64, 64)
  else match e.pages.find? (fun p => p.head == w.head && p.page == w.page) with
    | none => (0, 0)
    | some p => ((p.addr - base) / 64, 16 * clsRows p.cls)

/-- The columns a page run reads of a frame at column `at_`: token after token its key and then its value, each with the load of its
scale row where the class has one, which is made anew for every 16 tokens and as often between as the firmware's program has it
(`again`, bit 2t for the key of token t and 2t + 1 for its value; R176, R227; log entry 143). -/
def tokenCols (cls fill at_ again : Nat) : List Nat :=
  (List.range fill).flatMap (fun t => (tokOffs cls t).take 2 |>.zipIdx |>.flatMap (fun x =>
    let sc := match (tokOffs cls t)[2 + x.2]? with
      | some y => if t % 16 = 0 || tbit again (2 * t + x.2) then [at_ + y.1 / 64] else []
      | none => []
    sc ++ (List.range (x.1.2 / 64)).map (fun i => at_ + x.1.1 / 64 + i)))

/-- Columns of a run after its descriptor (R225–R227): queries, then the block's summaries, or the page's tokens. -/
def runColumns (e : AttEntry) (w : AttWork) (range : Nat × Nat) (s : State) : List Nat × State :=
  let qs := fun n => (List.range n).map (fun i => descCol + 1 + i)
  if w.kind = 1 then (qs 8 ++ (List.range range.2).map (fun i => range.1 + i), s)
  else match e.pages.find? (fun p => p.head == w.head && p.page == w.page) with
    | none => ([], s)
    | some p =>
      let f := free s
      (qs (if 2 * w.pair + 1 < e.q.length then 8 else 4) ++ tokenCols p.cls p.fill range.1 f.1, f.2)

/-- The queries of a run (R226): sp and sn of its selector, or q' of the pair's heads. -/
def runQueries (e : AttEntry) (w : AttWork) : List Nat × List Nat :=
  let sq := lget [] e.sel w.head
  let z := fun b => FVal.fin b 0 0
  if w.kind = 1 then
    (sq.map (fun x => fenc .bf16 (fmax (fdec .bf16 x) (z false))), sq.map (fun x => fenc .bf16 (fmin (fdec .bf16 x) (z true))))
  else (lget [] e.q (2 * w.pair), lget [] e.q (2 * w.pair + 1))

/-- A run joins the wave: its context opens, its query area is written and it is listed for its bank (R226, R230). -/
def runIssue (a : Attend) (e : AttEntry) (w : AttWork) (s : State) : State :=
  let base := workBank s e w
  match bankOf s base with
  | none => entryEnd a.cmd e.idx 0x0302 s
  | some b =>
    if pillarOff s (b / 512) then entryEnd a.cmd e.idx 0x0302 s
    else
      let s := setEntry (ctxOpen a.cmd e w s) a.cmd { e with work := e.work.erase w }
      let qs := runQueries e w
      let range := runRange s e w
      let q := queryArea (kvAgent (cmdJobId s a.cmd)) base range qs.1 qs.2 s
      if q.1 != 0 then entryEnd a.cmd e.idx q.1 q.2
      else
        let n := runColumns e w range q.2
        { n.2 with pageRuns := n.2.pageRuns ++ [⟨b, a.cmd, e.idx, w, n.1, []⟩] }

/-- The runs of a tower not yet dispatched, in the order of commands, entries and runs: (command, entry, run). -/
def towerWork (s : State) (t : Nat) : List (Nat × Nat × AttWork) :=
  s.attends.flatMap (fun a => a.entries.flatMap (fun e => (e.work.filter (fun w => w.tower == t)).map (fun w => (a.cmd, e.idx, w))))

/-- One more run for the wave, where it may go. -/
def waveAdd (s : State) (x : Nat × Nat × AttWork) : State :=
  match attOf s x.1, attEntry s x.1 x.2.1 with
  | some a, some e => if e.work.contains x.2.2 && canDispatch s a e x.2.2 then runIssue a e x.2.2 s else s
  | _, _ => s

/-- The group RUN of a wave is issued through a firmware slot to the units of its banks (R146, R149, R226). The group's number is
the manager's own and open. -/
def waveSend (t slot : Nat) (s : State) : State :=
  let runs := s.pageRuns.filter (fun r => r.bank / 32768 == t)
  if runs.isEmpty then s
  else
    let k := 64 * t + slot
    let g := free s
    let cmd := fun (r : PageRun) =>
      (r.bank, ({ tower := t, slot := slot, kind := 1, pc := 0, prelen := 0, desc := true, store := 1, tag := 0, inB := descCol, inL := 1,
                  outB := 0, outL := 0, p := List.replicate 16 0, data := [], job := cmdJobId s r.cmd, kv := true } : NbCmd))
    let s := runs.foldl (fun s r => let u := nbUnit s r.bank
      setUnit s r.bank { u with g := u.g.take 4 ++ (g.1 % 4095) :: u.g.drop 5 }) g.2
    let s := fset (fset s .NB_S_TGT (slotIx k) Fld.NB_S_TGT_MODE 2) .NB_S_TGT (slotIx k) Fld.NB_S_TGT_GROUP (g.1 % 4095)
    let s := rput (rput s .NB_S_RANGE_IN (slotIx k) (2 ^ 46 + descCol * 2 ^ 6)) .NB_S_RANGE_OUT (slotIx k) 0
    let s := rput (slotTake s k runs.length) .NB_S_FAIL (slotIx k) 0
    { s with nbOut := tput k (runs.map (fun r => r.bank)) s.nbOut, nbFlight := s.nbFlight ++ runs.map cmd }

/-- The firmware slot a wave takes: the first of 48 to 63 that is not busy (log entry 143). -/
def freeFwSlot (s : State) (t : Nat) : Option Nat :=
  ((List.range 16).map (fun i => 48 + i)).find? (fun x => !(fbit s .NB_S_STAT (slotIx (64 * t + x)) Fld.NB_S_STAT_BUSY))

/-- PAGE_RUN_DISPATCH: the next wave of a tower, once the last is over (R226, R230, R232). -/
def dispatchRun (t : Nat) (s : State) : State :=
  if s.pageRuns.any (fun r => r.bank / 32768 == t) then s
  else match freeFwSlot s t with
    | none => s
    | some slot => waveSend t slot ((towerWork s t).foldl waveAdd s)

/-- A run reads the columns that its unit's step has room for, one after another (R164, R167, R170): as `issueCol` lets them go. -/
def runCols (b : Nat) : Nat → PageRun → State → PageRun × State
  | 0, pr, s => (pr, s)
  | f + 1, pr, s =>
    match (nbUnit s b).run, pr.cols with
    | some r, col :: rest =>
      if r.stop.isSome then (pr, s)
      else
        let q := issueCol b col r s
        if !q.1 then (pr, q.2)
        else
          let x := unitRead q.2 b col
          if x.st != 0 then (pr, nbStop x.s b x.st 0)
          else runCols b f { pr with cols := rest, got := tput col x.bytes pr.got } x.s
    | _, _ => (pr, s)

/-- A run has all its columns and its last step has ended: it makes its record and sends it to the merge unit, once its input has a
credit, and is complete (R225–R229). -/
def runEnd (b : Nat) (pr : PageRun) (a : Attend) (e : AttEntry) (s : State) : State :=
  if 8 ≤ (tget [] (mrgOf s (b / 512 / 64)).inputs (b / 512 % 64)).length then s
  else
    let w := pr.work
    let r : List Nat × State :=
      if w.kind = 1 then (indexRecord e w (gotBytes pr (runRange s e w).1 4096), finc s .KV_ATT_CNT [2] Fld.KV_ATT_CNT_COUNT 8)
      else match e.pages.find? (fun p => p.head == w.head && p.page == w.page) with
        | none => ([], s)
        | some p => pageRecord (cmdJobId s pr.cmd) a.group e pr p (finc s .KV_ATT_CNT [1] Fld.KV_ATT_CNT_COUNT 1)
    nbStop ((mergeSend r.2 (b / 512) (tagOf e w) r.1).getD r.2) b 0 0

/-- A manager's run at a bank goes on: its descriptor, its columns step by step, and its record. A run whose entry is over sends
nothing. -/
def runGo (b : Nat) (s : State) : State :=
  let s := match (nbUnit s b).run with | some r => if r.cmd.kv && r.desc then readDesc b s else s | none => s
  match (nbUnit s b).run with
  | none => s
  | some r =>
    if !r.cmd.kv || r.desc || r.stop.isSome then s
    else if pillarOff s (b / 512) then nbStop s b 0x0302 0
    else match s.pageRuns.find? (fun x => x.bank == b) with
      | none => nbStop s b 0 0
      | some pr =>
        match attOf s pr.cmd, attEntry s pr.cmd pr.entry with
        | some a, some e =>
          if e.stage != 1 then nbStop s b 0 0
          else if pr.cols.isEmpty then (if r.step.isSome then s else runEnd b pr a e s)
          else
            let x := runCols b 16 pr s
            { x.2 with pageRuns := x.2.pageRuns.map (fun y => if y.bank == b then x.1 else y) }
        | _, _ => nbStop s b 0 0

/-- A manager's run is over at its unit; a failing status ends its entry (R237). -/
def runOver (b st : Nat) (s : State) : State :=
  match s.pageRuns.find? (fun x => x.bank == b) with
  | none => s
  | some pr =>
    let s := { s with pageRuns := s.pageRuns.filter (fun x => x.bank != b) }
    match attEntry s pr.cmd pr.entry with
    | some e => if st = 0 || e.stage != 1 then s else entryEnd pr.cmd pr.entry st s
    | none => s

/-- NB_UNIT_COMPLETE: a unit's completion report, for a manager's run as soon as it has its columns and its credit. -/
def unitComplete (b : Nat) (s : State) : State :=
  let s := runGo b s
  match (nbUnit s b).run with
  | none => s
  | some r =>
    match r.stop with
    | none => s
    | some st =>
      let s := nbComplete b s
      if r.cmd.kv then runOver b st s else s

/-- NB_CMD_ARRIVE: a manager's run that its unit does not take ends its entry with the unit's status (R150, R237). -/
def cmdArrive (b : Nat) (s : State) : State :=
  let t := nbArrive b s
  match s.nbFlight.find? (fun e => e.1 == b) with
  | none => t
  | some e =>
    if !e.2.kv then t
    else if pillarOff s (b / 512) then runOver b 0x0302 t
    else if (nbUnit s b).run.isSome && (nbUnit s b).pendF.isSome then runOver b 0x0804 t else t

/-! ### Merging (R229–R234) -/

/-- Fold record B into accumulator A (R231). -/
def foldPartial (a : Option Partial) (b : Partial) : Option Partial :=
  if b.l = 0 then a
  else match a with
    | none => some b
    | some a =>
      let m := f32max a.m b.m
      -- the differences are exact; a difference or a sum that does not exist is open (log entry 9)
      let fac := fun (x : Nat) =>
        let v := fadd (fdec .fp32 x) (fneg (fdec .fp32 m))
        if v.isNan && !(fdec .fp32 x).isNan && !(fdec .fp32 m).isNan then Config.openFloat 35 x m 0 % 2 ^ 32 else fexp2 .fp32 v
      let fa := fdec .fp32 (fac a.m)
      let fb := fdec .fp32 (fac b.m)
      let mix := fun (x y : Nat) =>
        let u := fdec .fp32 x
        let v := fdec .fp32 y
        fencOr .fp32 36 [x, y, fac a.m * 2 ^ 32 + fac b.m] (u.isNan || v.isNan || fa.isNan || fb.isNan) (fadd (fmul u fa) (fmul v fb))
      some ⟨m, mix a.l b.l, List.zipWith mix a.o b.o⟩

/-- Whether one bound comes before another: higher, then the lower page (R234). -/
def boundBefore (a b : Nat × Nat) : Bool :=
  match fcmp (fdec .fp32 a.1) (fdec .fp32 b.1) with
  | some c => decide (0 < c) || (c == 0 && decide (a.2 < b.2))
  | none => false

/-- Keep the best bounds. -/
def selInsert (topp : Nat) (l : List (Nat × Nat)) (x : Nat × Nat) : List (Nat × Nat) :=
  (l.takeWhile (fun y => boundBefore y x) ++ [x] ++ l.dropWhile (fun y => boundBefore y x)).take topp

/-- The two partials of a record, by head of the pair. -/
def recPartial (us : List Nat) (j : Nat) : Partial :=
  ⟨unitLane us (2 * j), unitLane us (2 * j + 1), (List.range 128).map (fun i => unitLane us (16 + 128 * j + i))⟩

/-- A tower's context has all its records: its result goes to the tower's input of the floor merge while that has one of its 8
credits (R233). -/
def deliver (t tag : Nat) (s : State) : State :=
  match ctxAt s t tag with
  | none => s
  | some c =>
    let m := mrgOf s t
    if c.got < c.expect ∨ 8 ≤ m.out.length then s
    else setMrg s t { m with ctxs := m.ctxs.filter (fun x => x.tag != tag), out := m.out ++ [c] }

/-- The floor merge takes the results that stand at its inputs, which frees their credits, and holds them (R233). -/
def floorTake (s : State) : State :=
  foldUp 16 (fun s t =>
    let m := mrgOf s t
    if m.out.isEmpty || noClock s (2048 + t) then s
    else
      let s := m.out.foldl (fun (s : State) c =>
        { s with floor := s.floor.map (fun f => if f.tag == c.tag then { f with got := tput t c f.got } else f) }) s
      setMrg s t { m with out := [] }) s

/-- Accept one record (R231, R234); a record of no open context is dropped. -/
def acceptRec (t : Nat) (r : MrgRec) (s : State) : State :=
  let s := finc s .MRG_CNT [t] Fld.MRG_CNT_RECORDS 1
  match ctxAt s t r.tag with
  | none => s
  | some c =>
    let m := mrgOf s t
    let put := fun (x : MrgCtx) (s : State) => deliver t r.tag
      (setMrg s t { m with ctxs := m.ctxs.map (fun y => if y.tag == r.tag then x else y) })
    match attOf s c.cmd, attEntry s c.cmd c.entry with
    | some a, some e =>
      if tbit r.tag 31 then
        let head := bits r.tag 20 15
        let bs := ((List.range 8).map (fun i => (unitLane r.units i, unitLane r.units (8 + i)))).filter (fun b =>
          fdec .fp32 b.1 != .nan && e.pages.any (fun p => p.head == head && p.page == b.2 && p.cand))
        put { c with got := c.got + 1, sel := bs.foldl (selInsert a.topp) c.sel } s
      else
        let pair := bits r.tag 20 15
        let hs := if 17 ≤ r.units.length then [0, 1] else [0]
        let pid := unitLane r.units 4
        let page := unitLane r.units 5
        let fwd := hs.map (fun j => [pid, page, 2 * pair + j, unitLane r.units (2 * j), unitLane r.units (2 * j + 1)])
        let acc := (List.range 2).map (fun j => if hs.contains j then foldPartial (lget none c.acc j) (recPartial r.units j)
          else lget none c.acc j)
        put { c with got := c.got + 1, acc := acc }
          (setEntry s c.cmd { e with mass := e.mass ++ fwd.filter (fun x => lget 0 x 4 != 0) })
    | _, _ => s

/-- Take the head record of a merge input. -/
def popInput (t i : Nat) (s : State) : Option MrgRec × State :=
  let m := mrgOf s t
  match tget [] m.inputs i with
  | [] => (none, s)
  | r :: rest => (some r, setMrg s t { m with inputs := if rest.isEmpty then tdel i m.inputs else tput i rest m.inputs, last := i })

/-- One cycle of a merge unit (R229): one partial, or up to 16 select records of distinct inputs. Results that waited for a
credit of the floor merge go first. -/
def mergeCycle (t : Nat) (s : State) : State :=
  if noClock s (2048 + t) then s else
  let s := ((mrgOf s t).ctxs.filter (fun c => decide (c.expect ≤ c.got))).foldl (fun s c => deliver t c.tag s) s
  let m := mrgOf s t
  let s := if m.inputs.any (fun i => decide (8 ≤ i.2.length)) then finc s .MRG_CNT [t] Fld.MRG_CNT_NOCREDIT 1 else s
  let busy : List (Nat × Bool) := m.inputs.filterMap (fun i => match i.2 with | [] => none | r :: _ => some (i.1, tbit r.tag 31))
  let order := busy.filter (fun i => decide (m.last < i.1)) ++ busy.filter (fun i => decide (i.1 ≤ m.last))
  let now : List Nat := match order with
    | [] => []
    | (i, false) :: _ => [i]
    | _ => ((order.filter (fun (i : Nat × Bool) => i.2)).take 16).map (fun (i : Nat × Bool) => i.1)
  now.foldl (fun s i => match popInput t i s with | (some r, s) => acceptRec t r s | (none, s) => s) s

/-- The pages a selection chose are settled for its head (R234). -/
def selFold (c : FloorCtx) (head : Nat) (a : Attend) (e : AttEntry) (s : State) : State :=
  let best := (c.got.flatMap (fun g => g.2.sel)).foldl (selInsert a.topp) []
  entryPlan c.cmd c.entry (setEntry s c.cmd
    { e with open_ := e.open_.filter (fun h => h != head),
             pages := e.pages.map (fun p => if p.head == head && best.any (fun b => b.2 == p.page) then { p with pick := true } else p) })

/-- FLOOR_MERGE_FOLD: fold a context all of whose towers have delivered, in ascending tower order (R233). -/
def floorFold (tag : Nat) (s : State) : State :=
  if noClock s 2105 then s else
  let s := floorTake s
  match s.floor.find? (fun c => c.tag == tag) with
  | none => s
  | some c =>
    if !(c.need.all (fun t => (tfind c.got t).isSome)) then s
    else
      let s := { s with floor := s.floor.filter (fun x => x.tag != tag) }
      match attOf s c.cmd, attEntry s c.cmd c.entry with
      | some a, some e =>
        if tbit tag 31 then selFold c (bits tag 20 15) a e s
        else
          let pair := bits tag 20 15
          let out := fun j => c.got.foldl (fun acc g => match lget none g.2.acc j with | some p => foldPartial acc p | none => acc) none
          let outs := (List.range 2).foldl (fun o j => match out j with | some p => tput (2 * pair + j) p o | none => o) e.outs
          entryCheck c.cmd c.entry (setEntry s c.cmd { e with outs := outs })
      | _, _ => s

/-- A command of the manager, or work of its own, that waits goes on. -/
def waitGo (id : Nat) (s : State) : State :=
  match cmdOf s id with
  | none => ownGo id s
  | some c =>
    if !c.begun || c.status.isSome || qFenced s c.q || isHeld s then s
    else match c.opc with
      | 0x36 => kvAppend c s
      | 0x38 => kvAttend c s
      | 0x42 => kvPrefetch c s
      | 0x44 => seqSwapOut c s
      | 0x45 => seqSwapIn c s
      | _ => s

/-- The agent for whose work an allocation waits. -/
def waitAgent (s : State) (id : Nat) : Agent :=
  match cmdOf s id with
  | some c => kvAgentOf s c
  | none => kvAgent (match (runOf s id).move, (runOf s id).back with | some m, _ => m.job | none, some b => b.job | none, none => 0)

/-- ALLOC_WAIT_EXPIRE: the oldest wait of a command, or of work of its own, ends. The work is tried once more; the wait ends without
a frame when it still waits (R210, R213), and the work goes on from there. -/
def waitEnd (id : Nat) (s : State) : State :=
  match (runOf s id).waits.find? (fun w => w.ended.isNone) with
  | none => waitGo id s
  | some w =>
    let t := waitGo id s
    let barred := isHeld s || (match cmdOf s id with | some c => c.status.isSome || qFenced s c.q | none => false)
    if barred then s
    else if (waitOf t id w.entry) = some w then waitGo id (waitExpire id (waitAgent t id) w t) else t

def execReaderSlotGrant (s : State) : Res3 := s.run (metaDo readerGrant)
def execAllocWaitExpire (k : Nat) (s : State) : Res3 := s.run (kvDo k (waitEnd k))
def execKvAttend (k : Nat) (s : State) : Res3 := s.run (kvDo k (cmdGo k 0x38 kvAttend))
def execPageRunDispatch (t : Fin 16) (s : State) : Res3 := s.run (metaDo (dispatchRun t.val))
def execMergeAccept (t : Fin 16) (s : State) : Res3 := s.run (mergeCycle t.val)
def execFloorMergeFold (ctx : Nat) (s : State) : Res3 := s.run (metaDo (floorFold ctx))
def execNbCmdArrive (b : BankId) (s : State) : Res3 := s.run (cmdArrive (bankNum b))
def execNbUnitComplete (b : BankId) (s : State) : Res3 := s.run (metaDo (unitComplete (bankNum b)))

end Sys2Proof.Machine
end

