-- ==== Sys2Proof/Machine/Synur.lean ====
section
/-! DEFINITION. The Synur fabric: links and retry, lanes, routing, membership, time, broadcasts and windows (R282–R308). -/

namespace Sys2Proof.Machine

/-- An answer from outside the device reaches the work that waits for it: its status and data. -/
def answerWaiter (w : Waiter) (st : Nat) (d : List Byte) (s : State) : State :=
  match w with
  | .coreLd c => modClu s c (fun x => { x with load := x.load.map (fun p => { p with answer := some (st, d) }) })
  | .coreSt c => modClu s c (fun x => { x with store := x.store.map (fun p => { p with answer := some (st, d) }) })
  | .dma c ch idx row =>
    let x := dmaCh s c ch
    setDma s c ch { x with runs := x.runs.map (fun r => if r.idx == idx then { r with ans := tput row (st, d) r.ans } else r) }
  | .chan i row =>
    { s with chans := s.chans.set i ((lget none s.chans i).map (fun x =>
        { x with run := x.run.map (fun r => { r with ans := tput row (st, d) r.ans }) })) }
  | .none => s

/-! ### Losses and discards (R292, R296, R297) -/

/-- A flit is lost (R292, R354): its job's fault fence, or only an entry for job 0. -/
def flitLoss (p cause : Nat) (x : Pkt) (s : State) : State :=
  let det := cause * 2 ^ 48 + x.dst * 2 ^ 32 + x.src * 2 ^ 16 + x.typ
  if x.job = 0 then logEv s 0x09 6 4 p 0 0 det
  else raiseFault s x.job [⟨.port p, .none, false, 0, 0⟩] (mkRep s 0x09 6 4 p 0 x.job det)

/-- Send a request, answering who waits when it cannot leave. -/
def remoteGo (q : RemReq) (s : State) : State :=
  let r := remoteSend s q
  if r.1 = 0 then r.2 else answerWaiter q.who r.1 [] r.2

/-- Requests that waited for a TAG are sent, oldest first, while one is free (R304). -/
def sendTagWait : Nat → State → State
  | 0, s => s
  | n + 1, s => match s.syn.tagWait.find? (fun y => (freeTag s (bits (outSlot s y.addr) 15 0)).isSome) with
    | none => s
    | some y => sendTagWait n (remoteGo y (modSyn s (fun z => { z with tagWait := z.tagWait.erase y })))

/-- A request to another device is over: its part in the next slot follows, or whoever waits for it gets its answer (R304);
its TAG is free. -/
def sentDone (y : Sent) (st : Nat) (d : List Byte) (s : State) : State :=
  let s := modSyn s (fun z => { z with sent := z.sent.erase y })
  let d := y.got ++ (d.drop y.skip).take y.len
  let s := match y.next with
    | some q => if st = 0 then remoteGo { q with got := d } s else answerWaiter y.who st d s
    | none => answerWaiter y.who st d s
  sendTagWait s.syn.tagWait.length s

/-- The source of a discarded request (R296): it completes with 0x0401; past the FIRST flit of a burst its job is fenced
too. -/
def unreached (p : Nat) (h : Pkt) (s : State) : State :=
  let s := match s.syn.sent.find? (fun y => y.dst == h.dst && y.tag == h.tag && y.read == (h.typ == 2)) with
    | none => s
    | some y => sentDone y 0x0401 [] s
  if h.first || h.typ = 2 then s else flitLoss p 2 h s

/-- Bytes of a header word. -/
def hdrBytes (h : Nat) : List Byte := leBytes 16 h

/-- Discard a flit with no way on (R296): counted, and for a request its source is told, by an UNREACH when it is another
device. -/
def discardFlit (p : Nat) (w : Waiting) (s : State) : State :=
  let x := w.pkt
  let s := finc (giveCredit s w) .SYN_CNT [] Fld.SYN_CNT_DISCARD 1
  if x.vc != 0 || x.typ = 0 then s
  else if isOwn s x.src then unreached p x s
  else (synSend s 0 ⟨mkHdr x.src (ownId s) 1 0 7 0 0x0E true true x.job x.tag x.win x.gen x.off, 0, hdrBytes x.hdr⟩).2

/-- Send a flit on through its path's port; a path without a port is replaced by the lowest usable one (R295, R296). -/
def routeOn (p : Nat) (w : Waiting) (s : State) : State :=
  let x := w.pkt
  let e := routeEntry s x.dst
  let ps := (List.range 4).filter (pathUsable s e)
  match (if ps.contains x.path then some x.path else ps.head?) with
  | none => discardFlit p w s
  | some j => let b := routePath e j; toPort s (b % 16) { w with pkt := { x with hdr := onPath x.hdr j b } }

/-- A header one hop on (R296). -/
def Pkt.hop (x : Pkt) : Pkt := { x with hdr := setBits x.hdr 92 90 (x.ttl - 1) }

/-- A hop: TTL goes down first (R296). -/
def forward (p : Nat) (w : Waiting) (s : State) : State :=
  if w.pkt.ttl ≤ 1 then discardFlit p w s else routeOn p { w with pkt := w.pkt.hop } s

/-! ### Port states and lanes (R284, R285, R292) -/

/-- A port enters a state; SYN_STAT.PORTS_UP follows it. -/
def setPortState (s : State) (p st : Nat) : State :=
  let s := fset s .SYN_PORT_STAT [p] Fld.SYN_PORT_STAT_STATE st
  let up := fget s .SYN_STAT [] Fld.SYN_STAT_PORTS_UP
  let off := if tbit up p then up - 2 ^ p else up
  fset s .SYN_STAT [] Fld.SYN_STAT_PORTS_UP (if st = 2 then off + 2 ^ p else off)

/-- A port leaves UP for RETRAIN. -/
def leaveUp (p : Nat) (s : State) : State :=
  if portState s p = 2 then finc (setPortState s p 3) .SYN_PORT_CNT [p] Fld.SYN_PORT_CNT_RETRAINS 1 else s

/-- Whether a case of R292 holds: 8 replays without progress, 10 µs without an arrival, or fewer than 4 good lanes. -/
def mustRetrain (s : State) (p : Nat) : Bool :=
  let q := synPort s p
  decide (8 ≤ q.replays) || decide (q.rxTick + 10000 ≤ s.tick) || decide (popCount 8 q.good < 4)

/-- PORT_RETRAIN (R292). -/
def portRetrain (p : Nat) (s : State) : State := if mustRetrain s p && !(noClock s (2084 + p)) then leaveUp p s else s

def setLanes (s : State) (p v : Nat) : State := fset s .SYN_PORT_STAT [p] Fld.SYN_PORT_STAT_LANES v

/-- Whether a port holds a hot spare, and which lane (R285). -/
def spareHeld (s : State) (p : Nat) : Bool := fbit s .SYN_PORT_STAT [p] Fld.SYN_PORT_STAT_SPARE_V
def spareLane (s : State) (p : Nat) : Nat := fget s .SYN_PORT_STAT [p] Fld.SYN_PORT_STAT_SPARE
def dropSpare (s : State) (p : Nat) : State := fset s .SYN_PORT_STAT [p] Fld.SYN_PORT_STAT_SPARE_V 0

/-- The highest set bit of a lane mask. -/
def topLane (v : Nat) : Nat := Nat.log2 v

/-- A lane mask without a lane. -/
def sansLane (v lane : Nat) : Nat := if tbit v lane then v - 2 ^ lane else v

/-- Count a spare switch or a narrowing (R284). -/
def laneEvent (s : State) (p : Nat) : State := finc s .SYN_PORT_CNT [p] Fld.SYN_PORT_CNT_LANE_EVENTS 1

/-- Make an agreed change of the lanes (R284, R285): 1 the spare replaces a lane, 3 a lane is narrowed out, 4 a lane is
restored. 1 for the highest of eight good lanes, while no spare is held, makes it the spare (log entry 146). -/
def applyLane (p op lane : Nat) (s : State) : State :=
  let q := synPort s p
  let lanes := portLanes s p
  let spare := spareLane s p
  let bad := setPort s p { q with good := sansLane q.good lane }
  if op = 4 then
    let s := setLanes (setPort s p { q with good := q.good ||| 2 ^ lane }) p (lanes ||| 2 ^ lane)
    if spareHeld s p && spare == lane then dropSpare s p else s
  else if !(op == 1 || op == 3) then s
  else if spareHeld s p && spare == lane then dropSpare bad p
  else if !(tbit lanes lane) then s
  else if op = 1 && spareHeld s p then laneEvent (dropSpare (setLanes bad p (lanes - 2 ^ lane ||| 2 ^ spare)) p) p
  else if op = 1 && popCount 8 q.good == 8 && lane == topLane q.good && lanes == q.good then
    fset (fset (setLanes s p (lanes - 2 ^ lane)) .SYN_PORT_STAT [p] Fld.SYN_PORT_STAT_SPARE_V 1)
      .SYN_PORT_STAT [p] Fld.SYN_PORT_STAT_SPARE lane
  else laneEvent (setLanes bad p (lanes - 2 ^ lane)) p

/-- Propose a change of the lanes to the other end (R284, R286); it is made when the other end confirms it. -/
def propose (p op lane : Nat) (s : State) : State :=
  let q := synPort s p
  sendIdle (setPort s p { q with ops := q.ops ++ [(op, lane)] }) p false op lane

/-- A lane operation of the other end (R284, R286): a proposal is confirmed on the old lanes and made; a confirmation makes
the change proposed. -/
def laneOpRx (p op lane : Nat) (s : State) : State :=
  let q := synPort s p
  let rest := q.ops.filter (fun o => o.2 != lane)
  if op = 2 then
    match q.ops.find? (fun o => o.2 == lane) with
    | some o => applyLane p o.1 lane (setPort s p { q with ops := rest })
    | none => s
  else if op = 1 || op = 3 || op = 4 then applyLane p op lane (sendIdle (setPort s p { q with ops := rest }) p false 2 lane)
  else s

/-- With hot spares reserved, a port whose eight lanes are good comes to run seven and hold the highest (R285). -/
def holdSpare (p : Nat) (s : State) : State :=
  let q := synPort s p
  if s.syn.reserve && popCount 8 q.good == 8 && portLanes s p == q.good && !(spareHeld s p) && portState s p == 2 && q.ops.isEmpty then
    propose p 1 (topLane q.good) s
  else s

/-- A lane fails (R284): the two ends replace it with the spare or narrow it out; with fewer than 4 good lanes the port
retrains. -/
def laneFail (p lane : Nat) (s : State) : State :=
  let q := synPort s p
  if !(tbit q.good lane) then s
  else
    let s := setPort s p { q with good := q.good - 2 ^ lane, laneErr := q.laneErr.filter (fun e => e.1 != lane) }
    let left := sansLane (portLanes s p) lane
    if portState s p != 2 then s
    else if spareHeld s p && spareLane s p == lane then propose p 3 lane s
    else if !(tbit (portLanes s p) lane) then s
    else if spareHeld s p then propose p 1 lane s
    else if 4 ≤ popCount 8 left then propose p 3 lane s
    else leaveUp p s

/-- The physical number of active lane k. -/
def lanePos (lanes k : Nat) : Nat := lget 0 ((List.range 8).filter (fun l => tbit lanes l)) k

/-- The active lanes, of n, that uncorrectable codewords are laid to. Where a codeword's wrong symbols cannot be told, it is open
which lane they lie on alone, if one (log entry 159). -/
def uncLanes (n : Nat) (unc : List (Option Nat)) (s : State) : List Nat × State :=
  unc.foldl (fun (acc : List Nat × State) u => match u with
    | some l => (acc.1 ++ [l], acc.2)
    | none => let f := free acc.2; (acc.1 ++ (if f.1 % (n + 1) < n then [f.1 % (n + 1)] else []), f.2)) ([], s)

/-- Corrected and uncorrectable codewords of a flit, the former counted (R289), laid to their lanes (R284): a lane with more than
16 in 1 ms fails. -/
def laneErrs (p : Nat) (corr : List Nat) (unc : List (Option Nat)) (s : State) : State :=
  let u := uncLanes (popCount 8 (portLanes s p)) unc (finc s .ECC_CE_COUNT [6] Fld.ECC_CE_COUNT_COUNT corr.length)
  let s := u.2
  let q := synPort s p
  let ls := (corr ++ u.1).map (lanePos (portLanes s p))
  let errs := q.laneErr.filter (fun e => decide (s.tick < e.2 + 1000000)) ++ ls.map (fun l => (l, s.tick))
  let s := setPort s p { q with laneErr := errs }
  ((List.range 8).filter (fun l => decide (16 < (errs.filter (fun e => e.1 == l)).length))).foldl (fun s l => laneFail p l s) s

/-! ### Receiving (R288–R291) -/

/-- Whether a TYPE value is defined (R288). -/
def typeKnown (t : Nat) : Bool :=
  decide (1 ≤ t ∧ t ≤ 0x0E) || decide (0x10 ≤ t ∧ t ≤ 0x15) || t == 0x18 || t == 0x19 || decide (0x1A ≤ t ∧ t ≤ 0x1F)

/-- Packets between the two ends of one link, or of one link's exchange: HELLO, SYNC_REQ, SYNC_RSP, MEMBER_MAP. -/
def typeLocal (t : Nat) : Bool := t == 0x18 || t == 0x19 || t == 0x1A || t == 0x1F

/-- Take the ACK and the credits of a control word (R290, R291). A NAK makes the sender replay from ACK in order; one that
comes after 8 replays without progress takes the port out of UP (R292); with no flit to replay it asks for nothing. -/
def takeCtl (p ctl : Nat) (s : State) : State :=
  let q := synPort s p
  let ack := bits ctl 23 12
  let left := q.retry.dropWhile (fun r => r.1 != ack)
  let known := ack == q.txSeq || q.retry.any (fun r => r.1 == ack)
  let retry := if known then left else q.retry
  let credit := lset q.credit (bits ctl 29 27) (min 512 (lget 0 q.credit (bits ctl 29 27) + bits ctl 39 30))
  let credit := lset credit (bits ctl 42 40) (min 512 (lget 0 credit (bits ctl 42 40) + bits ctl 52 43))
  let replays := if retry.length < q.retry.length then 0 else q.replays
  let s := setPort s p { q with retry := retry, credit := credit, replays := replays }
  if !(tbit ctl 24 && known) || retry.isEmpty then s
  else if 8 ≤ replays then leaveUp p s
  else
    let s := finc s .SYN_PORT_CNT [p] Fld.SYN_PORT_CNT_REPLAYS 1
    let s := setPort s p { synPort s p with replays := replays + 1 }
    retry.foldl (fun s r => wire s p r.1 r.2) s

/-- Put a packet in the device's inbox, in arrival order. -/
def deliverLocal (p : Nat) (x : Pkt) (s : State) : State := modSyn s (fun y => { y with inbox := y.inbox ++ [(p, x)] })

/-- Keep the tick at the first symbol of a SYNC_REQ or SYNC_RSP that arrives (R299). -/
def syncArrive (p : Nat) (x : Pkt) (s : State) : State :=
  if x.typ = 0x18 ∨ x.typ = 0x19 then
    let t := quarterTick s
    setPort t.2 p { synPort t.2 p with syncAt := t.1 }
  else s

/-- A packet that arrived whole goes where it belongs (R288, R295, R298). A broadcast goes on with one hop less (R296), except
from a refused device (R300). -/
def routeRx (p : Nat) (x : Pkt) (s : State) : State :=
  let w : Waiting := ⟨x, some (p, x.vcl)⟩
  if !(typeKnown x.typ) then finc (giveCredit s w) .SYN_CNT [] Fld.SYN_CNT_DISCARD 1
  else if typeLocal x.typ || isOwn s x.dst then deliverLocal p x s
  else if x.dst = 0xFFFF then
    let s := if fget s .SYN_STAT [] Fld.SYN_STAT_MSTATE = 3 then s
      else if x.ttl ≤ 1 then finc s .SYN_CNT [] Fld.SYN_CNT_DISCARD 1
      else synFlood s (some p) x.hop
    deliverLocal p x s
  else forward p w s

/-- A decoded flit arrives. One with a codeword that does not decode is not accepted, and neither is one out of sequence (R289,
R290). -/
def flitArrive (p : Nat) (f : Flit) (torn : Bool) (s : State) : State :=
  let s := laneErrs p f.corr f.unc (setPort s p { synPort s p with rxTick := s.tick })
  if f.bad then sendIdle s p true 0 0
  else
    let s := laneOpRx p (bits f.ctl 55 53) (bits f.ctl 58 56) (takeCtl p f.ctl s)
    let s := pump p ((synPort s p).wait.length + 1) s
    let q := synPort s p
    if tbit f.ctl 26 || portState s p != 2 then s
    else if f.ctl % 4096 ≠ q.rxSeq then sendIdle s p true 0 0
    else
      let s := setPort s p { q with rxSeq := (q.rxSeq + 1) % 4096 }
      if torn then flitLoss p 1 f.pkt (giveCredit s ⟨f.pkt, some (p, f.pkt.vcl)⟩) else routeRx p f.pkt (syncArrive p f.pkt s)

/-- FLIT_RECEIVE; a port without a clock takes none (R32, R395). -/
def flitReceive (p : Nat) (f : Wire) (s : State) : State :=
  if portState s p != 2 || noClock s (2084 + p) then s else flitArrive p (decodeFlit (popCount 8 (portLanes s p)) f) f.torn s

/-- An IDLE flit carries ACK when none was sent for 100 ns; it repeats a lane operation not yet confirmed. -/
def idleSend (p : Nat) (s : State) : State :=
  if portState s p != 2 || noClock s (2084 + p) then s
  else match (synPort s p).ops with
    | [] => sendIdle s p false 0 0
    | o :: _ => sendIdle s p false o.1 o.2

/-! ### Time (R299) -/

/-- Stratum of this device (R299). -/
def stratum (s : State) : Nat :=
  if fbit s .SYN_CFG [] Fld.SYN_CFG_TIME_MASTER then 0 else fget s .SYN_TIME [] Fld.SYN_TIME_STRATUM

/-- A packet between the ends of a link. -/
def linkPkt (s : State) (p typ : Nat) (first last : Bool) (off : Nat) (d : List Byte) : State :=
  let dst := fget s .SYN_PORT_STAT [p] Fld.SYN_PORT_STAT_NEIGH
  portSend s p ⟨mkHdr dst (ownId s) 2 0 7 0 typ first last 0 0 0 0 off, 0, d⟩

/-- Send HELLO: ID and stratum (R300); a device that is not enabled or has no ID sends none (R293). -/
def sendHello (s : State) (p : Nat) : State :=
  if fbit s .SYN_CFG [] Fld.SYN_CFG_EN && hasId s then linkPkt s p 0x1A true true 0 (leBytes 2 (ownId s) ++ leBytes 1 (stratum s)) else s

/-- HELLO on every UP port. -/
def helloAll (s : State) : State := (List.range 16).foldl (fun s p => if portState s p = 2 then sendHello s p else s) s

/-- The parent is the neighbour with the lowest stratum, the lower port winning a tie. -/
def chooseParent (s : State) : State :=
  if fbit s .SYN_CFG [] Fld.SYN_CFG_TIME_MASTER then s
  else
    let cs := (List.range 16).filterMap (fun p => if portState s p = 2 then (synPort s p).strat.map (fun x => (p, x)) else none)
    match cs with
    | [] => modSyn s (fun y => { y with parented := false })
    | c :: r =>
      let b := r.foldl (fun (b : Nat × Nat) x => if x.2 < b.2 then x else b) c
      let old := stratum s
      let s := fset (fset s .SYN_TIME [] Fld.SYN_TIME_PARENT b.1) .SYN_TIME [] Fld.SYN_TIME_STRATUM (min 31 (b.2 + 1))
      let s := modSyn s (fun y => { y with parented := true })
      if stratum s = old then s else helloAll s

/-- TIME_MASTER is written (R299): the master has stratum 0 and no parent; a device that is master no longer chooses one. -/
def masterChange (s : State) : State :=
  if fbit s .SYN_CFG [] Fld.SYN_CFG_TIME_MASTER then
    helloAll (fset (modSyn s (fun y => { y with parented := false, slew := 0 })) .SYN_TIME [] Fld.SYN_TIME_STRATUM 0)
  else chooseParent s

/-! ### Ports come and go (R292, R296, R297) -/

/-- A port comes up on the lanes given: fresh, or resuming its replay (R292). Fresh out of RETRAIN, the flits it kept are
lost. -/
def portUp (p lanes : Nat) (fresh : Bool) (s : State) : State :=
  let st := portState s p
  let good := lanes % 256
  if !(st == 1 || st == 3) || decide (popCount 8 good < 4) || noClock s (2084 + p) then s
  else
    let q := synPort s p
    let isFresh := fresh || st == 1
    let s := setPort s p (if isFresh then { SynPort.init with good := good, wait := q.wait, hold := q.hold, holding := q.holding,
                                                              rxTick := s.tick }
      else { q with good := good, replays := 0, ops := [], laneErr := [], rxTick := s.tick })
    let s := dropSpare (setPortState (setLanes s p good) p 2) p
    let s := holdSpare p s
    let s := if isFresh then s else (synPort s p).retry.foldl (fun s r => wire s p r.1 r.2) s
    let s := pump p ((synPort s p).wait.length + 1) (sendHello s p)
    if isFresh then q.retry.foldl (fun s r => flitLoss p 0 r.2 s) s else s

/-- A RETRAIN that exceeded LINK_HOLD: the retry buffer is discarded, flits that would newly use the port are held (R292,
R296), and another parent is taken (R299). -/
def portFailed (p : Nat) (s : State) : State :=
  if portState s p != 3 then s
  else
    let q := synPort s p
    let s := setPortState s p 4
    let s := setPort s p { q with retry := [], wait := [], hold := q.hold ++ q.wait, holding := true, child := none, strat := none }
    q.retry.foldl (fun s r => flitLoss p 0 r.2 s) (chooseParent s)

/-- A FAILED port tries to train (R292). -/
def portTrain (p : Nat) (ok : Bool) (lanes : Nat) (s : State) : State :=
  if portState s p != 4 || !ok || noClock s (2084 + p) then s else portUp p lanes true (fset s .SYN_PORT_STAT [p] Fld.SYN_PORT_STAT_STATE 1)

/-- A flit held over 100 µs is discarded, counted and lost (R297): the oldest that waits at a port, or the oldest that arrived
there and was not taken. -/
def flitAged (p : Nat) (inbox : Bool) (s : State) : State :=
  let lose := fun (w : Waiting) s => flitLoss p 3 w.pkt (finc (giveCredit s w) .SYN_CNT [] Fld.SYN_CNT_AGED 1)
  if inbox then
    match s.syn.inbox.find? (fun e => e.1 == p) with
    | none => s
    | some e => lose ⟨e.2, some (p, e.2.vcl)⟩ (modSyn s (fun y => { y with inbox := y.inbox.erase e }))
  else
    let q := synPort s p
    match q.wait with
    | [] => s
    | w :: r => lose w (setPort s p { q with wait := r })

/-- The hold after a port failed ends: its flits take another path (R296). -/
def holdExpire (p : Nat) (s : State) : State :=
  let q := synPort s p
  let s := setPort s p { q with hold := [], holding := false }
  q.hold.foldl (fun s w => if w.pkt.dst = 0xFFFF then synFlood (giveCredit s w) (some p) w.pkt else routeOn p w s) s

def parentPort (s : State) : Nat := fget s .SYN_TIME [] Fld.SYN_TIME_PARENT

/-- A child asks its parent for its ticks; t1 is set as the flit leaves (`stampSync`). -/
def syncPeriod (s : State) : State :=
  let p := parentPort s
  if !s.syn.parented || portState s p != 2 then s
  else linkPkt s p 0x18 true true 0 []

/-! ### Membership (R285, R298, R300) -/

def mstate (s : State) : Nat := fget s .SYN_STAT [] Fld.SYN_STAT_MSTATE
def setMstate (s : State) (v : Nat) : State := fset s .SYN_STAT [] Fld.SYN_STAT_MSTATE v

/-- The member count changes: SYN_STAT.MEMBERS, and above 1,024 the hot spares are reserved (R285). -/
def setMembers (ms : List Nat) (s : State) : State :=
  let s := fset (modSyn s (fun y => { y with members := ms })) .SYN_STAT [] Fld.SYN_STAT_MEMBERS ms.length
  if 1024 < ms.length && !s.syn.reserve then
    foldUp 16 (fun s p => holdSpare p s) (modSyn s (fun y => { y with reserve := true }))
  else s

def addMember (id : Nat) (s : State) : State :=
  setMembers (if s.syn.members.contains id then s.syn.members else s.syn.members ++ [id])
    (modSyn s (fun y => { y with heard := tput id s.tick y.heard }))

def dropMember (id : Nat) (s : State) : State :=
  setMembers (s.syn.members.filter (fun x => x != id)) (modSyn s (fun y => { y with heard := tdel id y.heard }))

/-- Membership broadcasts carry the sender in SRC. -/
def broadcast (s : State) (typ : Nat) : State := synBroadcast s typ 0 []

/-- The bitmap of members, as 16 full flits (R300). -/
def sendMap (s : State) (p : Nat) : State :=
  (List.range 16).foldl (fun s i =>
    linkPkt s p 0x1F (i == 0) (i == 15) (256 * i) ((List.range 256).map (fun j =>
      BitVec.ofNat 8 ((List.range 8).foldl (fun v k => if s.syn.members.contains (2048 * i + 8 * j + k) then v + 2 ^ k else v) 0)))) s

/-- A neighbour that took this device as its parent has the next stratum (R299): one with another is no child. -/
def childOf (s : State) (q : SynPort) (strat : Nat) : Option Nat := if strat = min 31 (stratum s + 1) then q.child else none

/-- HELLO: the neighbour's ID and stratum; an isolated device begins to join, a member gives a neighbour that is new, or whose port
has just come up, its map. -/
def hello (p : Nat) (x : Pkt) (s : State) : State :=
  let id := leNat (x.data.take 2)
  let strat := leNat ((x.data.drop 2).take 1)
  let s := fset s .SYN_PORT_STAT [p] Fld.SYN_PORT_STAT_NEIGH id
  let fresh := (synPort s p).strat.isNone
  let s := setPort s p { synPort s p with strat := some strat, child := childOf s (synPort s p) strat }
  let s := chooseParent s
  let s := if mstate s = 0 && fbit s .SYN_CFG [] Fld.SYN_CFG_EN && hasId s then setMstate s 1 else s
  if isMember s && (fresh || !(s.syn.members.contains id)) then sendMap s p else s

/-- The joiner broadcasts JOIN (R300). -/
def sendJoin (s : State) : State := broadcast (modSyn s (fun y => { y with joinTick := some s.tick })) 0x1B

/-- MEMBER_MAP: the joiner takes the members from its first UP neighbour, then aligns its tick; the time master's tick is the
fabric's, so it sends its JOIN at once. -/
def memberMap (p : Nat) (x : Pkt) (s : State) : State :=
  if mstate s != 1 || s.syn.mapped || (match s.syn.mapFrom with | some r => r != p | none => false) then s
  else
    let s := modSyn s (fun y => { y with mapFrom := some p })
    let ids := (List.range (8 * x.data.length)).filterMap (fun i =>
      if tbit (lget 0 x.data (i / 8)).toNat (i % 8) then some (8 * x.off + i) else none)
    let s := ids.foldl (fun s i => addMember i s) s
    if !x.last then s
    else
      let s := modSyn s (fun y => { y with mapped := true })
      if fbit s .SYN_CFG [] Fld.SYN_CFG_TIME_MASTER then sendJoin s else syncPeriod s

/-- JOIN: a new member, or a collision of IDs. -/
def join (x : Pkt) (s : State) : State :=
  if x.src ≠ ownId s then addMember x.src s
  else if isMember s then broadcast s 0x1B
  else if mstate s = 1 then logEv (setMstate s 3) 0x20 0 0 0 0 0 (5 * 2 ^ 48 + x.src)
  else s

def leave (x : Pkt) (s : State) : State := dropMember x.src s

def alive (x : Pkt) (s : State) : State :=
  if s.syn.members.contains x.src then modSyn s (fun y => { y with heard := tput x.src s.tick y.heard }) else s

/-- A member not heard for 500 ms is removed and logged. -/
def memberTimeout (id : Nat) (s : State) : State :=
  if s.syn.members.contains id && id != ownId s && decide (tget 0 s.syn.heard id + 500000000 ≤ s.tick) then
    logEv (dropMember id s) 0x20 0 0 0 0 0 (6 * 2 ^ 48 + id % 65536)
  else s

/-- No collision for 10 ms after its JOIN: the joiner is a member, and gives the neighbours that said HELLO meanwhile its map. -/
def joinSettle (s : State) : State :=
  match s.syn.joinTick with
  | some t => if mstate s = 1 && decide (t + 10000000 ≤ s.tick) then
      let s := addMember (ownId s) (setMstate (modSyn s (fun y => { y with joinTick := none })) 2)
      foldUp 16 (fun s p => if portState s p = 2 && (synPort s p).strat.isSome then sendMap s p else s) s
    else s
  | none => s

/-- Hot spares are released (R285): each port restores its lane, as in R284. -/
def spareRelease (s : State) : State :=
  if !s.syn.reserve || decide (960 < s.syn.members.length) then s
  else foldUp 16 (fun s p =>
    if !(spareHeld s p) then s
    else if portState s p = 2 then propose p 4 (spareLane s p) s
    else dropSpare s p) (modSyn s (fun y => { y with reserve := false }))

/-- SYN_CFG.EN := 1 (R300): with an ID set the ports train and the device starts to join; with none they only train; a port whose clock is gated stays down (R398). The
time master begins the fabric: it sends its JOIN at once (log entry 47). -/
def synEnable (s : State) : State :=
  let s := fset s .SYN_STAT [] Fld.SYN_STAT_ID (ownId s)
  let s := if fbit s .SYN_CFG [] Fld.SYN_CFG_TIME_MASTER && hasId s then sendJoin (setMstate s 1) else s
  foldUp 16 (fun s p => if portState s p = 0 && !(tbit (rget s .CLK_GATE []) p) then setPortState s p 1 else s) s

/-- A port's island passes its reset bypass (R394): the port trains afresh, and the flits it kept or had received are lost. -/
def portReset (p : Nat) (s : State) : State :=
  if portState s p = 0 then s
  else
    let q := synPort s p
    let lost := q.retry.map (fun r => r.2) ++ (q.wait ++ q.hold).map (fun w => w.pkt)
    let s := setPort (setPortState s p 1) p SynPort.init
    let s := chooseParent (modSyn s (fun y => { y with inbox := y.inbox.filter (fun x => x.1 != p) }))
    lost.foldl (fun s x => flitLoss p 0 x s) s

/-- SYN_CFG.EN := 0 or a cold reset (R300, R308): a member broadcasts LEAVE, every port goes down, and the flits it kept are
lost (R292). -/
def synDisable (s : State) : State :=
  let s := if isMember s then broadcast s 0x1C else s
  let lost := (List.range 16).flatMap (fun p => let q := synPort s p
    (q.retry.map (fun r => r.2) ++ (q.wait ++ q.hold).map (fun w => w.pkt)).map (fun x => (p, x)))
  let s := foldUp 16 (fun s p => setPort (setPortState s p 0) p SynPort.init) s
  let s := setMstate (setMembers [] (modSyn s (fun y =>
    { y with inbox := [], heard := [], goodSync := 0, parented := false, slew := 0, mapFrom := none, mapped := false,
             joinTick := none }))) 0
  lost.foldl (fun s e => flitLoss e.1 0 e.2 s) s

/-! ### Taking packets -/

/-- Take the packet at the head of the inbox when it is of a kind; nothing happens otherwise. A packet that cannot be
served yet stays. Taken, it leaves the receive buffer (R291). -/
def takePkt (ok : Pkt → Bool) (f : Nat → Pkt → State → Option State) (s : State) : State :=
  match s.syn.inbox with
  | [] => s
  | (p, x) :: r =>
    if ok x then (f p x (giveCredit (modSyn s (fun y => { y with inbox := r })) ⟨x, some (p, x.vcl)⟩)).getD s else s

/-- As `takePkt`, for a packet that is always served. -/
def onPkt (typ : Nat) (f : Nat → Pkt → State → State) : State → State :=
  takePkt (fun x => x.typ == typ) (fun p x s => some (f p x s))

/-- A parent answers SYNC_REQ with t2; t3 is set as the flit leaves (`stampSync`). Its sender is a child. -/
def syncReq (p : Nat) (_x : Pkt) (s : State) : State :=
  linkPkt (setPort s p { synPort s p with child := some s.tick }) p 0x19 true true 0 (leBytes 8 (synPort s p).syncAt)

/-- A child takes SYNC_RSP: a joiner more than 10 µs off steps its tick, others slew (`tickCount`); a joiner with its map is
now aligned and sends its JOIN (R299, R300). -/
def syncRsp (p : Nat) (x : Pkt) (s : State) : State :=
  if p ≠ parentPort s || !s.syn.parented then s
  else
    let t1 : Int := s.syn.syncT1
    let t2 : Int := leNat (x.data.take 8)
    let t3 : Int := leNat ((x.data.drop 8).take 8)
    let t4 : Int := (synPort s p).syncAt
    let off : Int := ((t2 - t1) - (t4 - t3)) / 2
    let s := fset s .SYN_TIME [] Fld.SYN_TIME_OFFSET (wrap 32 off)
    let good := if off.natAbs ≤ 20 then s.syn.goodSync + 1 else 0
    let s := modSyn s (fun y => { y with goodSync := good })
    let s := if 10 ≤ good then fset s .SYN_TIME [] Fld.SYN_TIME_LOCKED 1 else s
    let s := if mstate s = 1 && decide (40000 < off.natAbs) then
        let t : Int := (s.tick : Int) + off / 4
        logEv (modSyn (stepTick t.toNat s) (fun y => { y with slew := 0 })) 0x20 0 0 0 0 0 (4 * 2 ^ 48 + wrap 48 (off / 4))
      else modSyn s (fun y => { y with slew := off })
    if mstate s = 1 && s.syn.mapped && s.syn.joinTick.isNone then sendJoin s else s

/-- FENCE (R298, R337, R344): payload JOB, origin ID and origin fence number. One received before, or for a job of no queue, is
ignored. -/
def fenceRx (p : Nat) (x : Pkt) (s : State) : State :=
  let job := leNat (x.data.take 2)
  let org := leNat ((x.data.drop 2).take 2)
  let num := leNat ((x.data.drop 4).take 4)
  if s.rcv.seen.contains (org, num) then s
  else
    let s := { s with rcv := { s.rcv with seen := s.rcv.seen ++ [(org, num)] } }
    if job = 0 || !((List.range nQueues).any (fun q => queueJob s q == job)) then s
    else raiseFault s job [] (mkRep s 0x0A 6 4 p 0 job (org * 2 ^ 32 + num)) false

/-! ### Windows of this device (R302–R306) -/

def winA (s : State) (i : Nat) (f : Fld) : Nat := fget s .WIN_IN_A [i] f
def winState (s : State) (i : Nat) : Nat := winA s i Fld.WIN_IN_A_STATE
def winGen (s : State) (i : Nat) : Nat := winA s i Fld.WIN_IN_A_GEN

/-- WIN_OPEN (R302). -/
def winOpen (c : Cmd) (s : State) : State :=
  let i := par c 0 2
  let acc := par c 4 1
  let base := par c 8 8
  let size := par c 16 8
  let stack := decide (base + size ≤ spBase)
  let scratch := decide (spBase ≤ base) && decide (base + size ≤ apBase) && decide ((base - spBase) / 2 ^ 22 = (base + size - 1 - spBase) / 2 ^ 22)
  if 4095 < i || winState s i != 0 || base % 4096 != 0 || size % 4096 != 0 || size = 0 || decide (2 ^ 34 < size)
      || !(mapped s base size) || !(stack || scratch) || acc = 0 || decide (7 < acc) || (tbit acc 2 && !stack) then
    finishPost s c 0x0140 0
  else
    let g := if winGen s i = 4095 then 1 else winGen s i + 1
    let s := rput s .WIN_IN_A [i] (2 ^ 62 + g * 2 ^ 48 + cmdJob s c * 2 ^ 32 + par c 2 2 * 2 ^ 16 + acc)
    finishPost { s with syn := { s.syn with wins := tput i (base, size) s.syn.wins } } c 0 g

/-- A closing window none of whose accepted bursts is left closes, and its command is answered (R306). -/
def winCloseDone (i : Nat) (s : State) : State :=
  if winState s i = 2 && !(s.syn.bursts.any (fun b => b.win == i && b.stat == 0)) then
    let s := fset s .WIN_IN_A [i] Fld.WIN_IN_A_STATE 0
    let ks := s.syn.closing.filter (fun p => p.1 == i)
    ks.foldl (fun s p => match cmdOf s p.2 with | some c => finishPost s c 0 0 | none => s)
      (modSyn s (fun y => { y with closing := y.closing.filter (fun p => p.1 != i) }))
  else s

/-- WIN_CLOSE (R306); a window that is not open is refused. -/
def winClose (c : Cmd) (s : State) : State :=
  let i := par c 0 2
  if 4095 < i || winState s i != 1 then finishPost s c 0x0140 0
  else winCloseDone i (modSyn (fset s .WIN_IN_A [i] Fld.WIN_IN_A_STATE 2) (fun y => { y with closing := y.closing ++ [(i, c.id)] }))

/-- The checks of R303 on a packet that reaches `n` bytes: its status, 0 when it passes. -/
def winCheck (s : State) (x : Pkt) (n : Nat) (first : Bool) : Nat :=
  let i := x.win
  let acc := winA s i Fld.WIN_IN_A_ACCESS
  let bit := if x.typ = 2 then 0 else if x.typ = 1 then 1 else 2
  let peer := winA s i Fld.WIN_IN_A_PEER
  let w := tget (0, 0) s.syn.wins i
  if winGen s i = 0 then 0x0402
  else if x.gen ≠ winGen s i then 0x0404
  else if first && (winState s i != 1 || !s.ready) then 0x0403
  else if !(if peer = 0xFFFF then s.syn.members.contains x.src else peer == x.src) || x.job ≠ winA s i Fld.WIN_IN_A_JOB || !(tbit acc bit) then 0x0402
  else if w.2 < x.off + n then 0x0402
  else if jobStopped s x.job then 0x0601 else 0

/-- A rejected burst is counted (WIN_IN_B). -/
def countRej (i st : Nat) (s : State) : State :=
  if st = 0x0403 then finc s .WIN_IN_B [i] Fld.WIN_IN_B_CLOSED_REJ 1
  else if st = 0x0404 then finc s .WIN_IN_B [i] Fld.WIN_IN_B_STALE_REJ 1 else s

/-- Send a packet back to the sender of another. -/
def respond (x : Pkt) (typ : Nat) (first last : Bool) (off : Nat) (d : List Byte) (s : State) : State :=
  (synSend s 0 ⟨mkHdr x.src (ownId s) 1 0 7 0 typ first last x.job x.tag x.win x.gen off, 0, d⟩).2

/-- The agent of arriving window packets (R241). -/
def winAgent (job : Nat) : Agent := ⟨1027, 9, job, true, true, 0, false⟩

/-- The enabled byte runs of a write: (offset, bytes). A short flit enables all it carries (R287). -/
def maskRuns (x : Pkt) : List (Nat × List Byte) :=
  if !x.full then [(0, x.data)]
  else ((List.range x.data.length).foldl (fun (acc : List (Nat × List Byte) × Bool) i =>
    if !(tbit x.mask i) then (acc.1, false)
    else
      let b := lget 0 x.data i
      match acc.1, acc.2 with
      | (o, d) :: r, true => ((o, d ++ [b]) :: r, true)
      | r, _ => ((i, [b]) :: r, true)) ([], false)).1.reverse

def burstOf (s : State) (x : Pkt) : Option Burst :=
  s.syn.bursts.find? (fun b => b.src == x.src && b.tag == x.tag && b.win == x.win)

def setBurst (s : State) (b : Burst) (keep : Bool) : State :=
  modSyn s (fun y => { y with bursts := y.bursts.filter (fun z => !(z.src == b.src && z.tag == b.tag && z.win == b.win))
    ++ if keep then [b] else [] })

/-- Apply one flit of an accepted burst: the status, and none while a reduction waits for a way. -/
def applyFlit (x : Pkt) (s : State) : Nat × Option State :=
  let base := (tget (0, 0) s.syn.wins x.win).1 + x.off
  (maskRuns x).foldl (fun (acc : Nat × Option State) r => match acc with
    | (0, some s) =>
      if x.typ = 1 then
        let w := accWrite s (winAgent x.job) (base + r.1) r.2
        (w.1, some w.2)
      else accReduce s (srcId x.src 0 0) (base + r.1) (x.typ - 4) 0 r.2 x.job
    | y => y) (0, some s)

/-- WR and RED: a burst is accepted or rejected at its FIRST flit and answered after its LAST (R303–R305). -/
def winBurst (p : Nat) (x : Pkt) (s : State) : Option State :=
  let n := if x.full then (maskRuns x).foldl (fun m r => max m (r.1 + r.2.length)) 0 else x.data.length
  let old := burstOf s x
  let st0 := match x.first, old with
    | true, _ => winCheck s x n true
    | false, some b => if b.stat != 0 then b.stat else winCheck s x n false
    | false, none => let c := winCheck s x n false; if c = 0 then 0x0403 else c
  let s := if x.first then countRej x.win st0 s else s
  let b : Burst := if x.first then ⟨x.src, x.tag, x.win, st0, 0, p⟩ else old.getD ⟨x.src, x.tag, x.win, st0, 0, p⟩
  let r : Nat × Option State := if st0 != 0 then (st0, some s) else applyFlit x s
  match r with
  | (_, none) => none
  | (st, some s) =>
    let b := { b with stat := if b.stat != 0 then b.stat else st, flits := b.flits + b2n (decide (st0 = 0 ∧ st = 0)) }
    let s := setBurst s b (!x.last)
    let s := if x.last then respond x 0x04 true true x.off (leBytes 2 b.stat ++ leBytes 4 b.flits) s else s
    some (winCloseDone x.win s)

/-- RD: checked and answered with RD_DATA flits (R304). -/
def winReadRx (_p : Nat) (x : Pkt) (s : State) : State :=
  let n := leNat (x.data.take 4)
  let st := if n = 0 || n % 16 != 0 || decide (4096 < n) then 0x0402 else winCheck s x n true
  let s := countRej x.win st s
  let fail := fun (s : State) st => respond x 0x03 true true x.off (leBytes 2 st) s
  if st != 0 then fail s st
  else
    let r := accRead s (winAgent x.job) ((tget (0, 0) s.syn.wins x.win).1 + x.off) n
    if r.st != 0 then fail r.s r.st
    else
      let parts := (List.range ((n + 255) / 256)).map (fun i => (i, (r.bytes.drop (256 * i)).take 256))
      parts.foldl (fun s q => respond x 0x03 (q.1 == 0) (decide (256 * (q.1 + 1) ≥ n)) (x.off + 256 * q.1)
        (q.2 ++ List.replicate (256 - q.2.length) 0) s) r.s

def sentOf (s : State) (x : Pkt) (read : Bool) : Option Sent :=
  s.syn.sent.find? (fun y => y.dst == x.src && y.tag == x.tag && y.read == read)

/-- RD_DATA: data in a full flit, or a status in a short one (R288). -/
def readData (_p : Nat) (x : Pkt) (s : State) : State :=
  match sentOf s x true with
  | none => s
  | some y =>
    if !x.full then sentDone y (leNat (x.data.take 2)) [] s
    else
      let d := y.data ++ x.data
      if y.skip + y.len ≤ d.length then sentDone y 0 d s
      else modSyn s (fun z => { z with sent := z.sent.map (fun w => if w == y then { y with data := d } else w) })

/-- WR_DONE: the sender's burst is complete. -/
def writeDone (_p : Nat) (x : Pkt) (s : State) : State :=
  match sentOf s x false with
  | none => s
  | some y => sentDone y (leNat (x.data.take 2)) [] s

/-- UNREACH (R296): it carries the header of the discarded packet. -/
def unreachRx (p : Nat) (x : Pkt) (s : State) : State := unreached p ⟨leNat (x.data.take 16), 0, []⟩ s

/-- A burst of a window is torn (R306). -/
def burstTorn (i : Nat) (s : State) : State :=
  match s.syn.bursts.find? (fun b => b.win == i && b.stat == 0) with
  | none => s
  | some b =>
    let s := finc (setBurst s b false) .WIN_IN_B [i] Fld.WIN_IN_B_TORN 1
    let job := winA s i Fld.WIN_IN_A_JOB
    winCloseDone i (raiseFault s job [] (mkRep s 0x0B 6 6 i 0 job (b.src * 2 ^ 32 + winGen s i)))

/-! ### Rows -/

def execFlitReceive (p : Fin 16) (flit : Wire) (s : State) : Res3 := s.run (flitReceive p.val flit)
def execIdleFlitSend (p : Fin 16) (s : State) : Res3 := s.run (idleSend p.val)
def execWinWrite (s : State) : Res3 := s.run (takePkt (fun x => x.typ == 1) winBurst)
def execWinRead (s : State) : Res3 := s.run (onPkt 0x02 winReadRx)
def execWinReadData (s : State) : Res3 := s.run (onPkt 0x03 readData)
def execWinWriteDone (s : State) : Res3 := s.run (onPkt 0x04 writeDone)
def execWinReduce (s : State) : Res3 := s.run (takePkt (fun x => decide (5 ≤ x.typ ∧ x.typ ≤ 13)) winBurst)
def execUnreach (s : State) : Res3 := s.run (onPkt 0x0E unreachRx)
def execSyncReq (s : State) : Res3 := s.run (onPkt 0x18 syncReq)
def execSyncRsp (s : State) : Res3 := s.run (onPkt 0x19 syncRsp)
def execHello (s : State) : Res3 := s.run (onPkt 0x1A hello)
def execJoin (s : State) : Res3 := s.run (onPkt 0x1B (fun _ => join))
def execLeave (s : State) : Res3 := s.run (onPkt 0x1C (fun _ => leave))
def execAlive (s : State) : Res3 := s.run (onPkt 0x1D (fun _ => alive))
def execFence (s : State) : Res3 := s.run (onPkt 0x1E fenceRx)
def execMemberMap (s : State) : Res3 := s.run (onPkt 0x1F memberMap)
def execLaneFail (p : Fin 16) (lane : Fin 8) (s : State) : Res3 :=
  s.run (fun s => if noClock s (2084 + p.val) then s else laneFail p.val lane.val s)
def execPortRetrain (p : Fin 16) (s : State) : Res3 := s.run (portRetrain p.val)
def execPortUp (p : Fin 16) (lanes : Nat) (fresh : Bool) (s : State) : Res3 := s.run (portUp p.val lanes fresh)
def execPortFailed (p : Fin 16) (s : State) : Res3 := s.run (portFailed p.val)
def execPortTrainAttempt (p : Fin 16) (ok : Bool) (lanes : Nat) (s : State) : Res3 := s.run (portTrain p.val ok lanes)
def execFlitAged (place : PortBuf) (s : State) : Res3 := s.run (flitAged place.port.val place.inbox)
def execPathHoldExpire (p : Fin 16) (s : State) : Res3 := s.run (holdExpire p.val)
def execSyncPeriod (s : State) : Res3 := s.run syncPeriod
def execAlivePeriod (s : State) : Res3 := s.run (fun s => if isMember s then broadcast s 0x1D else s)
def execMemberTimeout (id : Nat) (s : State) : Res3 := s.run (memberTimeout id)
def execJoinSettle (s : State) : Res3 := s.run joinSettle
def execSpareRelease (s : State) : Res3 := s.run spareRelease
def execBurstTorn (win : Fin 4096) (s : State) : Res3 := s.run (burstTorn win.val)
def execWinOpen (k : Nat) (s : State) : Res3 := s.run (cmdStart k 0x50 winOpen)
def execWinClose (k : Nat) (s : State) : Res3 := s.run (cmdStart k 0x51 winClose)

end Sys2Proof.Machine
end

