-- ==== Sys2Proof/Machine/Ledger.lean ====
section
/-! DEFINITION. Limited-change settings, the change ledger and the Operator credentials (R448–R456). -/

namespace Sys2Proof.Machine

def modLcs (s : State) (f : Lcs → Lcs) : State := { s with lcs := f s.lcs }

/-! ### Settings (R448) -/

/-- First ledger slot of a setting, and its slots. -/
def slotBase (k : Nat) : Nat := match k with | 0 => 0 | 1 => 16 | 2 => 24 | 3 => 32 | 4 => 40 | _ => 56
def slotCount (k : Nat) : Nat := match k with | 0 => 16 | 4 => 16 | 5 => 4 | _ => 8

/-- Slots of a setting whose record is programmed, torn or valid. -/
def slotsUsed (s : State) (k : Nat) : List Nat :=
  (List.range (slotCount k)).filter (fun i => (tfind s.lcs.records (slotBase k + i)).isSome)

def slotsLeft (s : State) (k : Nat) : Nat := slotCount k - (slotsUsed s k).length

/-- The first free slot of a setting. -/
def openSlot (s : State) (k : Nat) : Option Nat :=
  (List.range (slotCount k)).find? (fun i => (tfind s.lcs.records (slotBase k + i)).isNone)

/-- Value of a setting, as its register would be written. -/
def settingNow (s : State) (k : Nat) : Nat :=
  match k with
  | 0 => fget s .PWR_CEILING [] Fld.PWR_CEILING_WATTS
  | 1 => rget s .HP_ROLE []
  | 2 => fget s .SYN_ID [] Fld.SYN_ID_ID
  | 3 => rget s .LCS_TENANT []
  | 4 => rget s .HRD_SLOPE_CEIL []
  | _ => fget s .ID_GRADE [] Fld.ID_GRADE_STAGED

/-- The bits of a setting's fields. -/
def settingMask (k v : Nat) : Nat :=
  match k with
  | 1 => bits v 6 4 * 16 + bits v 2 0
  | 3 => bits v 15 8 * 256 + bits v 3 0
  | 4 => v % 2 ^ 64
  | _ => v % 65536

/-- A setting takes a value. `boot` is the FUSE stage, at which a change of the next cold reset takes effect. -/
def setSetting (k v : Nat) (boot : Bool) (s : State) : State :=
  match k with
  | 0 => fset s .PWR_CEILING [] Fld.PWR_CEILING_WATTS v
  | 1 => { rput s .HP_ROLE [] v with host := { s.host with roles := if boot then v else s.host.roles } }
  | 2 => fset (fset s .SYN_ID [] Fld.SYN_ID_ID v) .SYN_ID [] Fld.SYN_ID_SET 1
  | 3 => rput s .LCS_TENANT [] v
  | 4 => rput s .HRD_SLOPE_CEIL [] v
  | _ =>
    let s := fset (fset s .LCS_GRADE [] Fld.LCS_GRADE_GRADE v) .ID_GRADE [] Fld.ID_GRADE_STAGED v
    if boot then fset s .ID_GRADE [] Fld.ID_GRADE_GRADE v else s

/-- Whether a value lies in the stated range of its register: 1,000–3,000 W, role codes below 3, slopes of 50–100,000. -/
def valueInRange (k v : Nat) : Bool :=
  match k with
  | 0 => decide (1000 ≤ v) && decide (v ≤ 3000)
  | 1 => bits v 1 0 != 3 && bits v 5 4 != 3
  | 4 => let ok := fun x => decide (50 ≤ x) && decide (x ≤ 100000); ok (bits v 31 0) && ok (bits v 63 32)
  | _ => true

/-- A setting's own condition (R293, R310, R448, R453). -/
def ownCond (s : State) (k v : Nat) : Bool :=
  match k with
  | 1 => (bits v 1 0 == 1 || bits v 5 4 == 1) && !(tbit v 2 && bits v 1 0 != 2) && !(tbit v 6 && bits v 5 4 != 2)
  | 2 => !(fbit s .SYN_CFG [] Fld.SYN_CFG_EN) && decide (v < 0x8000)
  | 5 => [1016, 1000, 976].contains v && decide (v < fget s .ID_GRADE [] Fld.ID_GRADE_STAGED)
  | _ => true

/-- The first failing condition of R449. A device ID never written differs from every value. -/
def rwlReject (s : State) (k v : Nat) : Option Nat :=
  let differs := v != settingNow s k || (k == 2 && !(fbit s .SYN_ID [] Fld.SYN_ID_SET))
  if s.lcs.session.isNone then some 1
  else if s.lcs.prog.isSome then some 2
  else if (openSlot s k).isNone then some 3
  else if !(valueInRange k v) then some 4
  else if !differs then some 5
  else if !(ownCond s k v) then some 6 else none

/-- A write of a limited-change register: rejected, or its ledger record begins to be programmed (R449, R450). -/
def rwlWrite (k val : Nat) (s : State) : State :=
  let v := settingMask k val
  match rwlReject s k v, openSlot s k with
  | none, some i =>
    let r : Ledger := { tick := s.tick, value := v, setting := k, slot := i, cred := fget s .LCS_STAT [] Fld.LCS_STAT_SESS_CRED,
                        valid := true, torn := false, prior := settingNow s k }
    modLcs (fset s .LCS_STAT [] Fld.LCS_STAT_BUSY 1) (fun x => { x with prog := some (slotBase k + i, r) })
  | some c, _ => fset s .LCS_STAT [] Fld.LCS_STAT_LAST_REJ c
  | none, none => s

/-- LEDGER_PROGRAM_DONE: the record is complete and the value applies. -/
def ledgerDone (s : State) : State :=
  match s.lcs.prog with
  | none => s
  | some (slot, r) =>
    let s := modLcs s (fun x => { x with prog := none, records := tput slot r x.records })
    let s := setSetting r.setting r.value false (fset s .LCS_STAT [] Fld.LCS_STAT_BUSY 0)
    if r.setting = 0 then logEv s 0x68 7 0 0 0 0 (r.prior % 65536 * 65536 + r.value % 65536) else s

/-- Power is lost while a record is programmed: it is torn, its words open (R450). -/
def ledgerTear (s : State) : State :=
  match s.lcs.prog with
  | none => s
  | some (slot, _) =>
    let b := s.freeCtr
    let f := fun i => Config.freeNat (b + i)
    let r : Ledger := { tick := f 0 % 2 ^ 64, value := f 1 % 2 ^ 64, setting := f 2 % 256, slot := f 3 % 256, cred := f 4 % 8, valid := false,
                        torn := true, prior := f 5 % 2 ^ 64 }
    { modLcs s (fun x => { x with prog := none, records := tput slot r x.records }) with freeCtr := b + 6 }

/-- The FUSE stage: each setting takes the value of its highest valid record (R451). -/
def applyLedger (s : State) : State :=
  foldUp 6 (fun s k =>
    let ok := (slotsUsed s k).filter (fun i => match tfind s.lcs.records (slotBase k + i) with | some r => r.valid | none => false)
    match ok.getLast? with
    | none => s
    | some i => match tfind s.lcs.records (slotBase k + i) with
      | some r => setSetting k r.value true s
      | none => s) s

/-- Word 2 of a record without its CRC. -/
def ledgerTop (r : Ledger) : Nat := r.setting % 256 * 2 ^ 56 + r.slot % 256 * 2 ^ 48 + r.cred % 8 * 2 ^ 45

/-- A word of a ledger record (R454): the CRC is over words 0, 1, 3 and the top bits of word 2, in that order. -/
def ledgerWord (s : State) (k w : Nat) : Nat :=
  match tfind s.lcs.records k with
  | none => 0
  | some r =>
    match w with
    | 0 => r.tick
    | 1 => r.value
    | 3 => r.prior
    | _ =>
      let c := crc32c (leBytes 8 r.tick ++ leBytes 8 r.value ++ leBytes 8 r.prior ++ leBytes 8 (ledgerTop r))
      ledgerTop r + b2n r.valid * 2 ^ 44 + b2n r.torn * 2 ^ 43 + (if r.torn then Config.freeNat r.tick % 2 ^ 32 else c)

/-- LCS_LEFT. -/
def lcsLeft (s : State) : Nat :=
  slotsLeft s 5 * 2 ^ 40 + slotsLeft s 4 * 2 ^ 32 + slotsLeft s 3 * 2 ^ 24 + slotsLeft s 2 * 2 ^ 16 + slotsLeft s 1 * 2 ^ 8 + slotsLeft s 0

/-! ### Credentials (R455, R456) -/

/-- Big-endian value of bytes. -/
def beNat (l : List Byte) : Nat := l.foldl (fun n b => 256 * n + b.toNat) 0

/-- The bytes of consecutive registers. -/
def regBytes (s : State) (r : RegId) (n : Nat) : List Byte := (List.range n).flatMap (fun i => leBytes 8 (rget s r [i]))

def credBound (s : State) (i : Nat) : Bool := tbit (fget s .LCS_STAT [] Fld.LCS_STAT_BOUND) i
def credRevoked (s : State) (i : Nat) : Bool := tbit (fget s .LCS_STAT [] Fld.LCS_STAT_REVOKED) i
def commissioned (s : State) : Bool := fbit s .LCS_STAT [] Fld.LCS_STAT_COMMISSIONED

/-- An action other than CLOSE begins to be verified: 1 open, 2 bind, 3 revoke, 4 seal. -/
def credStart (action val : Nat) (s : State) : State :=
  let s := rput s .LCS_AUTH_CTL [] (bits val 2 0)
  if s.lcs.verify.isSome then fset s .LCS_STAT [] Fld.LCS_STAT_AUTH_RES 1
  else modLcs s (fun x =>
    { x with verify := some (action, bits val 2 0, regBytes s .LCS_AUTH_KEY 12, regBytes s .LCS_AUTH_SIG 12) })

/-- The session ends. -/
def sessionEnd (s : State) : State :=
  modLcs (fset (fset s .LCS_STAT [] Fld.LCS_STAT_SESSION 0) .LCS_STAT [] Fld.LCS_STAT_SESS_CRED 0) (fun x => { x with session := none })

/-- CLOSE. -/
def credClose (val : Nat) (s : State) : State :=
  let s := rput s .LCS_AUTH_CTL [] (bits val 2 0)
  if s.lcs.verify.isSome then fset s .LCS_STAT [] Fld.LCS_STAT_AUTH_RES 1
  else fset (sessionEnd s) .LCS_STAT [] Fld.LCS_STAT_AUTH_RES 0

/-- A new nonce is drawn. -/
def newNonce (s : State) : State :=
  (List.range 6).foldl (fun s i => let f := free s; rput f.2 .LCS_NONCE [i] (f.1 % 2 ^ 64)) s

/-- The first failing check of R455; 0 when all pass. -/
def authCheck (s : State) (action i : Nat) (key sig : List Byte) : Nat :=
  let idOk := if action = 2 then !(credBound s i) else credBound s i
  let sealOk := !(action == 2 || action == 4) || !(commissioned s)
  let msg := regBytes s .LCS_NONCE 6 ++ leBytes 8 (rget s .ID_SERIAL0 []) ++ leBytes 8 (rget s .ID_SERIAL1 []) ++ leBytes 1 i ++ leBytes 1 action
  if !idOk || !sealOk then 1
  else if credRevoked s i then 2
  else if action ≠ 2 ∧ Config.sha384 key ≠ tget 0 s.lcs.keys i then 3
  else if !(Config.ecdsaVerify (beNat key) (Config.sha384 msg) (beNat sig)) then 4 else 0

/-- AUTH_VERIFY_DONE. An OPEN before SEAL, and a REVOKE without an open session of another index, change nothing; the result
they report is open. -/
def authDone (s : State) : State :=
  match s.lcs.verify with
  | none => s
  | some (action, i, key, sig) =>
    let r := authCheck s action i key sig
    let s := newNonce (modLcs s (fun x => { x with verify := none }))
    let res := fun (s : State) v => fset s .LCS_STAT [] Fld.LCS_STAT_AUTH_RES v
    let f := free s
    let refuse := res f.2 (1 + f.1 % 7)
    if r ≠ 0 then res s r
    else match action with
      | 1 =>
        if !(commissioned s) then refuse
        else
          let s := fset (fset s .LCS_STAT [] Fld.LCS_STAT_SESSION 1) .LCS_STAT [] Fld.LCS_STAT_SESS_CRED i
          res (modLcs s (fun x => { x with session := some s.tick })) 0
      | 2 =>
        let s := modLcs s (fun x => { x with keys := tput i (Config.sha384 key) x.keys })
        res (fset s .LCS_STAT [] Fld.LCS_STAT_BOUND (setBits (fget s .LCS_STAT [] Fld.LCS_STAT_BOUND) i i 1)) 0
      | 3 =>
        let cred := fget s .LCS_STAT [] Fld.LCS_STAT_SESS_CRED
        let left := (List.range 8).any (fun k => k != i && credBound s k && !(credRevoked s k))
        if s.lcs.session.isNone || cred == i || !left then refuse
        else res (fset s .LCS_STAT [] Fld.LCS_STAT_REVOKED (setBits (fget s .LCS_STAT [] Fld.LCS_STAT_REVOKED) i i 1)) 0
      | _ => res (fset s .LCS_STAT [] Fld.LCS_STAT_COMMISSIONED 1) 0

/-- LCS_STAT as it reads: SESS_LEFT counts down from 60,000 ms. -/
def lcsStat (s : State) : Nat :=
  let left := match s.lcs.session with | some t => 60000 - (s.tick - t) / 10 ^ 6 | none => 0
  setBits (rget s .LCS_STAT []) Fld.LCS_STAT_SESS_LEFT.hi Fld.LCS_STAT_SESS_LEFT.lo left

/-- LCS_AUTH_CTL as it reads: the bit of an action being verified reads 1. -/
def authCtl (s : State) : Nat :=
  bits (rget s .LCS_AUTH_CTL []) 2 0 + (match s.lcs.verify with
    | some (a, _) => 2 ^ (match a with | 1 => 63 | 2 => 61 | 3 => 59 | _ => 60)
    | none => 0)

def execLedgerProgramDone (s : State) : Res3 := s.runOn ledgerDone
def execAuthVerifyDone (s : State) : Res3 := s.run authDone
def execSessionExpire (s : State) : Res3 := s.runOn sessionEnd

end Sys2Proof.Machine
end

