-- ==== Sys2Proof/Machine/Host.lean ====
section
/-! DEFINITION. The host ports: BAR4 and CXL.mem accesses, back-invalidates, host windows and links (R309–R322). -/

namespace Sys2Proof.Machine

def modHost (s : State) (f : HostSt → HostSt) : State := { s with host := f s.host }

/-- A host link's status word index: link 0 of a port. -/
def linkIx (p : Nat) : List Nat := [2 * p]

/-- An error that AER reports on the link of an upstream port (R311). -/
def linkErr (p : Nat) (s : State) : State := finc s .HP_LINK_STAT (linkIx p) Fld.HP_LINK_STAT_ERRORS 1

/-- Whether host memory accesses are turned away: before the first ready, or in the compute reset stage (R428, R440). -/
def memClosed (s : State) : Bool := !(booted s) || s.rcv.stage == 4

/-- The job a host access belongs to (R335). -/
def addrJob (s : State) (a : Nat) : Nat :=
  match spaceOf a with
  | .stack _ _ => (match physOf s (storeL s a) with | some c => jobOfC s c | none => 0)
  | .scratch l _ => (match physOf s l with | some c => jobOfC s c | none => 0)
  | _ => 0

/-- The agent of a host port (R241, R312). -/
def hostAgent (s : State) (p a : Nat) : Agent := ⟨1028 + p, 7, addrJob s a, true, true, 0, true⟩

/-- Do something that resolves no host copy: a host's own access (R316). -/
def unsnooped {α : Type} (f : State → α × State) (s : State) : α × State :=
  let r := f (modHost s (fun h => { h with filter := [] }))
  (r.1, modHost r.2 (fun h => { h with filter := s.host.filter }))

/-- Read for a host: the status and the bytes. -/
def hostRead (p a n : Nat) : State → (Nat × List Byte) × State :=
  unsnooped (fun s => let r := accRead s (hostAgent s p a) a n; ((r.st, r.bytes), r.s))

/-- Write for a host. -/
def hostWrite (p a : Nat) (d : List Byte) : State → Nat × State :=
  unsnooped (fun s => accWrite s (hostAgent s p a) a d)

/-- HOST_MEM_ACCESS through BAR4 (R312, R428, R440): a read is answered, a posted write is not; Unsupported Request and
Completer Abort are errors that AER reports. -/
def hostMem (p : Nat) (q : MemReq) (s : State) : State :=
  if portRole s p ≠ 1 || !(hostUp s p) || noClock s (2100 + p) || decide (2 ^ 43 < q.addr + q.len) then s
  else if memClosed s then (if q.write then s else emit (linkErr p s) (.completion p 3 false []))
  else if !(mapped s q.addr q.len) then emit (linkErr p s) (.completion p 1 false [])
  else if q.write then
    let w := hostWrite p q.addr q.data s
    if w.1 = 0 then w.2 else emit (linkErr p w.2) (.completion p 3 false [])
  else
    let r := hostRead p q.addr q.len s
    if r.1.1 = 0 then emit r.2 (.completion p 0 false r.1.2)
    else if isWordFault r.1.1 then emit r.2 (.completion p 0 true r.1.2)
    else emit (linkErr p r.2) (.completion p 3 false [])

/-- The host filter entries of the controller that owns an address. -/
def filterOf (s : State) (a : Nat) : List Tracked := s.host.filter.filter (fun t => storeL s (64 * t.line) == storeL s a)

/-- Record the lines a host keeps (R315): a full filter first takes the oldest entry back. -/
def track (p a n : Nat) (s : State) : State :=
  let lines := (List.range ((a + n + 63) / 64 - a / 64)).map (fun i => a / 64 + i)
  lines.foldl (fun s l =>
    let old := filterOf s (64 * l)
    if s.host.filter.any (fun t => t.line == l && t.port == p) then
      modHost s (fun h => { h with filter := h.filter.map (fun t => if t.line == l && t.port == p then { t with clean := false } else t) })
    else match old with
      | t :: _ =>
        if 2048 ≤ old.length then modHost s (fun h => { h with hit := h.hit ++ [Need.snoop ⟨t.line, t.port, true⟩] })
        else modHost s (fun h => { h with filter := h.filter ++ [(⟨l, p, false⟩ : Tracked)] })
      | [] => modHost s (fun h => { h with filter := h.filter ++ [(⟨l, p, false⟩ : Tracked)] })) s

/-- CXL_MEM_REQUEST (R313–R315, R440): `keep` says that the host keeps a copy. A rejected write is dropped and logged for the
job of its address; the causes of R354 name none for it, so that field is a free value. -/
def cxlMem (p : Nat) (q : MemReq) (keep : Bool) (s : State) : State :=
  if portRole s p ≠ 1 || !(hostUp s p) || !(hostCxl s p) || noClock s (2100 + p) then s
  else
    let poison := fun (s : State) (b : List Byte) => emit s (.completion p 0 true b)
    if memClosed s then (if q.write then s else poison s [])
    else if decide (grade s * 2 ^ 32 < q.addr + q.len) || !(mapped s q.addr q.len) then (if q.write then s else poison s [])
    else
      let s := if keep && shared s (q.addr / 2 ^ 30) then track p q.addr q.len s else s
      if q.write then
        let w := hostWrite p q.addr q.data s
        if w.1 = 0 then emit w.2 (.cxl p "Cmp" q.addr)
        else
          let f := free w.2
          logEv f.2 0x0F 4 5 (2 * p) w.1 (addrJob s q.addr) (f.1 % 16 * 2 ^ 48 + q.addr / 16 % 2 ^ 44)
      else
        let r := hostRead p q.addr q.len s
        if r.1.1 = 0 then emit r.2 (.completion p 0 false r.1.2) else poison r.2 r.1.2

/-- BIRSP (R316): the host's write-back is applied, and the entry is removed or known clean. -/
def biRsp (p a : Nat) (dirty : Option (List Byte)) (s : State) : State :=
  match s.host.snoops.find? (fun x => x.line == a / 64 && x.port == p) with
  | none => s
  | some x =>
    let s := match dirty with | some d => cacheBytes s (64 * x.line) (d.take 64) | none => s
    modHost s (fun h => { h with
      snoops := h.snoops.erase x,
      filter := if x.inv then h.filter.filter (fun t => !(t.line == x.line && t.port == p))
        else h.filter.map (fun t => if t.line == x.line && t.port == p then { t with clean := true } else t) })

/-- BI_TIMEOUT (R316): the access that waits completes with 0x0405 and the entry stays. -/
def biTimeout (p a : Nat) (s : State) : State :=
  match s.host.snoops.find? (fun x => x.line == a / 64 && x.port == p) with
  | none => s
  | some x => logEv (modHost s (fun h => { h with snoops := h.snoops.erase x, timed := h.timed ++ [x.line] }))
      0x0F 4 5 (2 * p) 0x0405 0 (4 * x.line % 2 ^ 44)

/-- Unmapped windows none of whose requests is left are answered (R320). -/
def unmapDone (s : State) : State :=
  let now := s.host.unmaps.filter (fun u => !(s.host.reqs.any (fun r => r.win == u.1)))
  now.foldl (fun s u => match cmdOf s u.2 with | some c => finishPost s c 0 0 | none => s)
    (modHost s (fun h => { h with unmaps := h.unmaps.filter (fun u => !(now.contains u)) }))

/-- A request of the device is over; its requester is answered once every part of its access is (R320). -/
def reqDone (tag st : Nat) (d : List Byte) (s : State) : State :=
  match s.host.reqs.find? (fun r => r.tag == tag) with
  | none => s
  | some r =>
    let reqs := s.host.reqs.map (fun x => if x.tag == tag then { x with ans := some (st, d.take r.len) } else x)
    let mine := reqs.filter (fun x => x.who == r.who)
    if mine.all (fun x => x.ans.isSome) then
      let bad := (mine.map (fun x => (x.ans.getD (0, [])).1)).find? (fun x => x != 0)
      answerWaiter r.who (bad.getD 0) (mine.flatMap (fun x => (x.ans.getD (0, [])).2))
        (modHost s (fun h => { h with reqs := reqs.filter (fun x => x.who != r.who) }))
    else modHost s (fun h => { h with reqs := reqs })

/-- HOST_COMPLETION of a request that was sent and is not yet complete; one with an error is reported by AER. Its place on the
link goes to a request kept back. -/
def hostCompletion (p tag : Nat) (err : Bool) (d : List Byte) (s : State) : State :=
  if s.host.reqs.any (fun r => r.tag == tag && r.port == p && r.ans.isNone && r.held.isNone) then
    sendKept p (unmapDone (reqDone tag (if err then 0x0405 else 0) d (if err then linkErr p s else s)))
  else s

/-- An upstream link goes: every outstanding request through it completes with 0x0405 (R320). -/
def linkGone (p : Nat) (s : State) : State :=
  let s := rput s .HP_LINK_STAT (linkIx p) (fget s .HP_LINK_STAT (linkIx p) Fld.HP_LINK_STAT_ERRORS * 2 ^ 32)
  let s := (s.host.reqs.filter (fun r => r.port == p)).foldl (fun s r => reqDone r.tag 0x0405 [] s) s
  unmapDone s

/-- HOST_LINK_DOWN: a link lost unasked is an error that AER reports. -/
def hostLinkDown (p : Nat) (s : State) : State :=
  if portRole s p ≠ 1 || !(hostUp s p) then s else logEv (linkGone p (linkErr p s)) 0x0F 4 5 (2 * p) 0 0 (2 * 2 ^ 48)

/-- HOST_LINK_RESET (R424): only the port's link and configuration space are reset. -/
def hostLinkReset (p : Nat) (s : State) : State := if hostUp s p then linkGone p s else s

/-- HOST_LINK_UP: rate, width and, as negotiated, FLIT mode, CXL and, upstream, an IDE stream (R309, R311). With BIF = 1 a
downstream link has eight lanes. -/
def hostLinkUp (p speed width : Nat) (s : State) : State :=
  if portRole s p = 0 || portRole s p = 3 || speed = 0 || decide (6 < speed) || !([1, 2, 4, 8, 16].contains width) || hostUp s p then s
  else
    let f := free s
    let flit := if speed = 6 then 1 else f.1 % 2
    let width := if bifOn s p then min width 8 else width
    let ide := if portRole s p = 1 then f.1 / 4 % 2 else 0
    let w := fget f.2 .HP_LINK_STAT (linkIx p) Fld.HP_LINK_STAT_ERRORS * 2 ^ 32 + ide * 2 ^ 11
      + fget f.2 .HP_LINK_STAT (linkIx p) Fld.HP_LINK_STAT_DEVICES * 2 ^ 12 + flit * 2 ^ 10 + f.1 / 2 % 2 * 2 ^ 9 + width * 2 ^ 4 + speed * 2 + 1
    rput f.2 .HP_LINK_STAT (linkIx p) w

/-- SPILL_DEVICE_LOST (R322): a downstream link that is up, with all its expanders, or one expander of it; their capacity
answers 0x0405 from then on. -/
def spillDeviceLost (l : Nat) (dev : Option Nat) (s : State) : State :=
  let hit := (s.host.expanders.zipIdx.filter (fun e => e.1.link == l && !(s.host.lost.contains e.2)
    && (match dev with | none => true | some d => e.2 == d))).map (fun e => e.2)
  let down := dev.isNone && fbit s .HP_LINK_STAT [l] Fld.HP_LINK_STAT_UP && portRole s (l / 2) == 2
  if hit.isEmpty && !down then s
  else
    let cause := if hit.isEmpty then 2 else 3
    let s := if down then rput s .HP_LINK_STAT [l] (fget s .HP_LINK_STAT [l] Fld.HP_LINK_STAT_ERRORS * 2 ^ 32) else s
    let s := modHost s (fun h => { h with lost := h.lost ++ hit })
    logEv (fset s .HP_SPILL_STAT [] Fld.HP_SPILL_STAT_LOST 1) 0x0F 4 5 l 0 0 (cause * 2 ^ 48)

/-- HWIN_MAP (R319). -/
def hwinMap (c : Cmd) (s : State) : State :=
  let i := par c 0 2
  let p := par c 2 1
  let dev := par c 8 8
  let host := par c 16 8
  let size := par c 24 8
  let clash := (List.range 256).any (fun k => match hwin s k with | some w => overlaps dev size w.dev w.size | none => false)
  if 255 < i || (hwin s i).isSome || dev % 4096 != 0 || host % 4096 != 0 || size % 4096 != 0 || size = 0 || decide (2 ^ 42 < size)
      || decide (dev < 0x200000000000) || decide (0x400000000000 < dev + size) || clash || decide (1 < p) || portRole s p ≠ 1 then
    finishPost s c 0x0140 0
  else
    let s := rput s .HP_HWIN [i] (2 ^ 63 + p * 2 ^ 48 + dev)
    finishPost (rput (rput s .HP_HWIN_HOST [i] host) .HP_HWIN_SIZE [i] size) c 0 0

/-- HWIN_UNMAP (R320); an index that is not mapped is refused. -/
def hwinUnmap (c : Cmd) (s : State) : State :=
  let i := par c 0 2
  match (if i ≤ 255 then hwin s i else none) with
  | none => finishPost s c 0x0140 0
  | some w =>
    let ring := (List.range nQueues).any (fun q => qEnabled s q
      && (overlaps (sqBase s q) (64 * ringLen s q) w.dev w.size || overlaps (cqBase s q) (32 * ringLen s q) w.dev w.size))
    let swap := overlaps (swapArea s).1 (swapArea s).2 w.dev w.size
    if ring || swap then finishPost s c 0x0140 0
    else
      let s := fset s .HP_HWIN [i] Fld.HP_HWIN_V 0
      unmapDone (modHost s (fun h => { h with unmaps := h.unmaps ++ [(i, c.id)] }))

/-- An access through a host port: a device halted in bring-up still answers (R427, R428). -/
def runHost (s : State) (f : State → State) : Res3 := s.runAny (fun s => if s.alive || s.boot.life == .halted then f s else s)

def execHostMemAccess (p : Fin 2) (req : MemReq) (s : State) : Res3 := runHost s (hostMem p.val req)
def execCxlMemRequest (p : Fin 2) (req : MemReq) (shared : Bool) (s : State) : Res3 := runHost s (cxlMem p.val req shared)
def execBirsp (p : Fin 2) (addr : Nat) (dirty : Option (List Byte)) (s : State) : Res3 := s.run (biRsp p.val addr dirty)
def execBiTimeout (p : Fin 2) (addr : Nat) (s : State) : Res3 := s.run (biTimeout p.val addr)
def execHostSnoop (p : Fin 2) (addr : Nat) (s : State) : Res3 := s.run (fun s => emit s (.cxl p.val "RspMiss" addr))
def execHostCompletion (p : Fin 2) (tag : Nat) (err : Bool) (data : List Byte) (s : State) : Res3 :=
  s.run (hostCompletion p.val tag err data)
def execHostLinkDown (p : Fin 2) (s : State) : Res3 := s.run (hostLinkDown p.val)
def execHostLinkReset (p : Fin 2) (s : State) : Res3 := s.run (hostLinkReset p.val)
def execHostLinkUp (p : Fin 2) (speed : Nat) (width : Nat) (s : State) : Res3 := s.run (hostLinkUp p.val speed width)
def execSpillDeviceLost (loss : SpillLoss) (s : State) : Res3 := s.run (spillDeviceLost loss.link.val (loss.dev.map Fin.val))
def execHwinMap (k : Nat) (s : State) : Res3 := s.run (cmdStart k 0x52 hwinMap)
def execHwinUnmap (k : Nat) (s : State) : Res3 := s.run (cmdStart k 0x53 hwinUnmap)

end Sys2Proof.Machine
end

