-- ==== Sys2Proof/Machine/Coll.lean ====
section
/-! DEFINITION. The collective engine and the route unit (R323–R333). The layout of control payloads beyond byte 0, and the
order of the records a dispatch sends, are the model's (log entry 23). -/

namespace Sys2Proof.Machine

/-! ### Groups, members and messages -/

def groupOf (s : State) (g : Nat) : Option Group := tfind s.groups g

/-- Members of a collective's group, and this device's rank. -/
def collMembers (s : State) (c : Coll) : List Nat := match groupOf s c.group with | some g => g.members | none => []
def collP (s : State) (c : Coll) : Nat := (collMembers s c).length
def rankOf (s : State) (ms : List Nat) (id : Nat) : Nat := let _ := s; (ms.findIdx (fun x => x == id))
def myRank (s : State) (c : Coll) : Nat := rankOf s (collMembers s c) (ownId s)
def peers (s : State) (c : Coll) : List Nat := (List.range (collP s c)).filter (fun r => r != myRank s c)

def setColl (s : State) (c : Coll) : State := { s with colls := s.colls.map (fun x => if x.cmd == c.cmd then c else x) }
def collOf (s : State) (cmd : Nat) : Option Coll := s.colls.find? (fun c => c.cmd == cmd)

/-- The collective engine's agent (R241, R326, R329); the queue of its command says which view it has (R40). -/
def collAgent (s : State) (c : Coll) (hint : Nat) : Agent :=
  ⟨1026, 5, (match groupOf s c.group with | some g => g.job | none => 0), true, true, hint,
    match cmdOf s c.cmd with | some k => !(qTenant s k.q) | none => false⟩

/-- CRC-32C of the member list (R324). -/
def membersCrc (ms : List Nat) : Nat := crc32c (ms.flatMap (leBytes 2))

/-- Key of a transfer. -/
def txKey (step rank : Nat) : Nat := 65536 * step + rank

/-- Ranges given free values. -/
def undefSpan (l : List (Nat × Nat)) (s : State) : State := undefBytes (l.flatMap (fun r => (List.range r.2).map (fun i => r.1 + i))) s

/-- A value of a COUNTS message from a rank. -/
def countOf (c : Coll) (rank kind ix : Nat) : Option (List Nat) :=
  (c.counts.find? (fun x => x.1 == rank && x.2.1 == kind && x.2.2.1 == ix)).map (fun x => x.2.2.2)

/-- The staged segments of a permute as far as their COUNTS are known: [destination, bytes], ascending by (source rank, move index)
(R333). -/
def permSegs (c : Coll) (s : State) : List (List Nat) :=
  (List.range (collP s c)).flatMap (fun j =>
    let n := match countOf c j 1 0 with | some v => lget 0 v 1 | none => 0
    (List.range n).map (fun i => (countOf c j 2 i).getD [0, 0]))

/-- What a collective writes at its end here (R326, R331, R333). -/
def collSpan (c : Coll) (s : State) : List (Nat × Nat) :=
  if c.opc = 0x75 then (permSegs c s).map (fun m => (lget 0 m 0, lget 0 m 1)) else c.span

/-- End a collective: its command's outcome, and the counters; DST of one that failed once data could move is undefined
(R328). -/
def collEnd (c : Coll) (st det : Nat) (s : State) : State :=
  let s := if st = 0 then s else finc s .SYN_COLL_STAT [] Fld.SYN_COLL_STAT_FAILED 1
  let s := if c.begun && st != 0 && st != 0x0150 then undefSpan (collSpan c s) s else s
  finish { s with colls := s.colls.filter (fun x => x.cmd != c.cmd) } c.cmd st det

/-- A collective fails for the fabric: 0x0401, with the fence of its job once DST was written, or always (R328). -/
def collFail (c : Coll) (always : Bool) (s : State) : State :=
  let job := (collAgent s c 0).job
  let s := if always || c.wrote then
      raiseFault s job [] (mkRep s 0x0C 6 7 c.group 0x0401 job c.seq) else s
  collEnd c 0x0401 0 s

/-- Header of a packet of a collective to a rank (R325). -/
def collHdr (s : State) (c : Coll) (rank step off : Nat) (first last : Bool) : Nat :=
  mkHdr (lget 0 (collMembers s c) rank) (ownId s) 3 0 7 0 0x13 first last (collAgent s c 0).job (step % 2048) c.group (c.seq % 4096) off

def collEngine : Nat := 32 * 1024 + 9

/-- Send a control message to a rank: false when the rank cannot be reached. -/
def sendCtl (c : Coll) (rank kind : Nat) (d : List Byte) (s : State) : Bool × State :=
  let b := (BitVec.ofNat 8 kind :: d)
  synSend s collEngine ⟨collHdr s c rank 0 0 true true, 0, b ++ List.replicate (32 - b.length) 0⟩

/-- Send data of a step to a rank, 256 bytes a flit (R325). -/
def sendData (c : Coll) (rank step : Nat) (d : List Byte) (s : State) : Bool × State :=
  let n := (d.length + 255) / 256
  sendAll s collEngine ((List.range n).map (fun i =>
    let x := (d.drop (256 * i)).take 256
    ⟨collHdr s c rank step (256 * i) (i == 0) (i + 1 == n), 0, x ++ List.replicate (256 - x.length) 0⟩))

/-! ### Plans -/

/-- A route record (R330). -/
structure Route where
  t    : Nat
  topk : Nat
  fmt  : Nat
  e    : Nat
  cap  : Nat
  /-- (rank, slot) of each expert. -/
  emap : List (Nat × Nat)
  /-- (expert, weight) of each route, by t × TOPK + k. -/
  toks : List (Nat × Nat)
  mta  : Nat

/-- Read a route record: a status, or the record. -/
def readRoute (k : Agent) (a : Nat) (s : State) : Nat × Route × State :=
  let none_ : Route := ⟨0, 0, 0, 0, 0, [], [], 0⟩
  let h := accRead s k a 40
  if h.st != 0 then (h.st, none_, h.s)
  else
    let f := fun off n => leNat ((h.bytes.drop off).take n)
    let t := f 0 4
    let topk := f 4 1
    let e := f 6 2
    if t = 0 || decide (65536 < t) || topk = 0 || decide (8 < topk) || decide (1 < f 5 1) || e = 0 || decide (16384 < e) || f 8 4 = 0
        || decide (65536 < f 8 4) || f 12 4 != 0 then (0x0150, none_, h.s)
    else
      let m := accRead h.s k (f 16 8) (4 * e)
      if m.st != 0 then (m.st, none_, m.s)
      else
        let r := accRead m.s k (f 24 8) (8 * t * topk)
        if r.st != 0 then (r.st, none_, r.s)
        else
          (0, ⟨t, topk, f 5 1, e, f 8 4,
               (List.range e).map (fun i => (leNat ((m.bytes.drop (4 * i)).take 2), leNat ((m.bytes.drop (4 * i + 2)).take 2))),
               (List.range (t * topk)).map (fun i => (leNat ((r.bytes.drop (8 * i)).take 2), leNat ((r.bytes.drop (8 * i + 4)).take 4))),
               f 32 8⟩, r.s)

/-- Slots of a rank: S (R330). -/
def slotsOf (r : Route) (rank : Nat) : Nat := (r.emap.filter (fun e => e.1 == rank)).length

/-- The checks of R330 on a route record. -/
def routeBad (r : Route) (p me : Nat) (combine : Bool) : Bool :=
  r.emap.any (fun e => decide (p ≤ e.1)) || decide (256 < slotsOf r me)
    || (List.range p).any (fun k => let n := slotsOf r k
          !((List.range n).all (fun i => r.emap.any (fun e => e.1 == k && e.2 == i))))
    || r.toks.any (fun x => decide (r.e ≤ x.1)) || (combine && r.fmt == 1)

/-- A permute's plan (R333): its stage and its moves (rank, bytes, source, destination). -/
structure PermPlan where
  stage : Nat
  size  : Nat
  moves : List (Nat × Nat × Nat × Nat)

/-- Read and check a permute's plan. -/
def readPerm (k : Agent) (a p : Nat) (s : State) : Nat × PermPlan × State :=
  let h := accRead s k a 24
  if h.st != 0 then (h.st, ⟨0, 0, []⟩, h.s)
  else
    let f := fun (b : List Byte) off n => leNat ((b.drop off).take n)
    let m := f h.bytes 0 4
    if 65536 < m then (0x0150, ⟨0, 0, []⟩, h.s)
    else
      let r := accRead h.s k (a + 24) (24 * m)
      if m != 0 && r.st != 0 then (r.st, ⟨0, 0, []⟩, r.s)
      else
        let b := r.bytes
        let bad := (List.range m).any (fun i => let o := 24 * i
          decide (p ≤ f b o 2) || f b (o + 2) 4 == 0 || f b (o + 6) 2 != 0 || f b (o + 8) 8 % 16 != 0 || f b (o + 16) 8 % 16 != 0)
        (if bad then 0x0150 else 0,
         ⟨f h.bytes 8 8, f h.bytes 16 8, (List.range m).map (fun i => let o := 24 * i
            (f b o 2, 16 * f b (o + 2) 4, f b (o + 8) 8, f b (o + 16) 8))⟩, if m = 0 then h.s else r.s)

/-! ### Local pieces -/

/-- Copy within this device for a collective, reading with `hint` (R241). -/
def localCopy (c : Coll) (hint src dst n : Nat) (s : State) : Nat × State :=
  let r := accRead s (collAgent s c hint) src n
  if r.st != 0 then (r.st, r.s) else accWrite r.s (collAgent s c c.hint) dst r.bytes

/-- SRC and DST sizes of an operation (R326). -/
def collSizes (c : Coll) (p : Nat) : Nat × Nat :=
  match c.opc with
  | 0x71 => (c.len, p * c.len)
  | 0x72 => (p * c.len, c.len)
  | 0x74 => (p * c.len, p * c.len)
  | _ => (c.len, c.len)

/-- An operation that reached its end: DST is undefined where it shares a byte with SRC (R326). -/
def collGood (c : Coll) (det : Nat) (s : State) : State :=
  let s := if c.laps then undefSpan (c.span.take 1) s else s
  collEnd c 0 det s

/-! ### Rings (R327) -/

/-- Segment i of a ring: its offset and length. -/
def ringSeg (c : Coll) (p i : Nat) : Nat × Nat :=
  if c.opc = 0x72 then (c.len * lget 0 c.order ((i + p - 1) % p), c.len)
  else
    let z := 16 * ((c.len + 16 * p - 1) / (16 * p))
    (min (i * z) c.len, min z (c.len - min (i * z) c.len))

/-- Number of steps. -/
def ringSteps (c : Coll) (p : Nat) : Nat := if c.opc = 0x70 then 2 * p - 2 else p - 1

/-- Ring position of this device, and the ranks before and after it. -/
def ringPos (s : State) (c : Coll) : Nat := c.order.findIdx (fun r => r == myRank s c)

/-- Send the next step of a ring, when its data is there and the next member is ready. -/
def ringSend (c : Coll) (s : State) : Option (Coll × Nat × State) :=
  let p := collP s c
  let t := c.sent.length
  let q := ringPos s c
  let nx := lget 0 c.order ((q + 1) % p)
  if t < ringSteps c p && (t = 0 || decide (t ≤ c.applied.length)) && c.ready.contains nx then
    let g := ringSeg c p ((q + 2 * p - t) % p)
    let a := if c.opc = 0x72 then (if t = 0 then c.src + g.1 else c.dst) else c.dst + g.1
    let r := accRead s (collAgent s c c.hint) a g.2
    if g.2 != 0 && r.st != 0 then some (c, r.st, r.s)
    else
      let w := sendData c nx t (if g.2 = 0 then [] else r.bytes) (if g.2 = 0 then s else r.s)
      some ({ c with sent := c.sent ++ [txKey t nx] }, if w.1 then 0 else 0x0401, w.2)
  else none

/-- Apply the next step received. -/
def ringApply (c : Coll) (s : State) : Option (Coll × Nat × State) :=
  let p := collP s c
  let t := c.applied.length
  let q := ringPos s c
  let pv := lget 0 c.order ((q + p - 1) % p)
  let g := ringSeg c p ((q + 3 * p - 1 - t) % p)
  let d := tget [] c.rx (txKey t pv)
  if ringSteps c p ≤ t || d.length < g.2 || (c.opc == 0x72 && decide (c.sent.length ≤ t)) then none
  else
    let d := d.take g.2
    let k := collAgent s c c.hint
    let c' : Coll := { c with applied := c.applied ++ [txKey t pv], rx := tdel (txKey t pv) c.rx, wrote := c.wrote || g.2 != 0 }
    if g.2 = 0 then some (c', 0, s)
    else if c.opc = 0x70 && p - 1 ≤ t then
      let w := accWrite s k (c.dst + g.1) d
      some (c', w.1, w.2)
    else
      let l : Nat × State := if c.opc = 0x72 then localCopy c c.hint (c.src + g.1) c.dst g.2 s else (0, s)
      if l.1 != 0 then some (c', l.1, l.2)
      else
        let r := accReduce l.2 (srcId (ownId s) 1023 15) (if c.opc = 0x72 then c.dst else c.dst + g.1) c.red c.hint d k.job
        match r.2 with
        | none => none
        | some s => some (c', r.1, s)

/-! ### Direct operations -/

/-- Ranks that send data here, by operation. -/
def directFrom (s : State) (c : Coll) : List Nat :=
  if c.opc = 0x73 then (if c.plan % 65536 = myRank s c then [] else [c.plan % 65536]) else peers s c

/-- Ranks this device sends to. -/
def directTo (s : State) (c : Coll) : List Nat :=
  if c.opc = 0x73 && c.plan % 65536 ≠ myRank s c then [] else peers s c

def directSend (c : Coll) (s : State) : Option (Coll × Nat × State) :=
  match (directTo s c).find? (fun r => c.ready.contains r && !(c.sent.contains (txKey 0 r))) with
  | none => none
  | some r =>
    let x := accRead s (collAgent s c c.hint) (if c.opc = 0x74 then c.src + r * c.len else c.src) c.len
    if x.st != 0 then some (c, x.st, x.s)
    else
      let w := sendData c r 0 x.bytes x.s
      some ({ c with sent := c.sent ++ [txKey 0 r] }, if w.1 then 0 else 0x0401, w.2)

def directApply (c : Coll) (s : State) : Option (Coll × Nat × State) :=
  match (directFrom s c).find? (fun r => !(c.applied.contains (txKey 0 r)) && decide (c.len ≤ (tget [] c.rx (txKey 0 r)).length)) with
  | none => none
  | some r =>
    let w := accWrite s (collAgent s c c.hint) (if c.opc = 0x73 then c.dst else c.dst + r * c.len)
      ((tget [] c.rx (txKey 0 r)).take c.len)
    some ({ c with applied := c.applied ++ [txKey 0 r], rx := tdel (txKey 0 r) c.rx, wrote := true }, w.1, w.2)

/-! ### COUNTS values -/

def putCount (c : Coll) (rank kind ix : Nat) (v : List Nat) : Coll :=
  if (countOf c rank kind ix).isSome then c else { c with counts := c.counts ++ [(rank, kind, ix, v)] }

/-- Give a value to a rank: kept at once for this device, else sent in a COUNTS message. -/
def giveCount (rank kind ix : Nat) (v : List Nat) (acc : Coll × Bool × State) : Coll × Bool × State :=
  if !acc.2.1 then acc
  else if rank = myRank acc.2.2 acc.1 then (putCount acc.1 rank kind ix v, true, acc.2.2)
  else
    let w := sendCtl acc.1 rank 2 (leBytes 3 kind ++ leBytes 4 ix ++ leBytes 8 (lget 0 v 0) ++ leBytes 8 (lget 0 v 1)) acc.2.2
    (acc.1, w.1, w.2)

/-- Every peer's READY has come. -/
def allReady (s : State) (c : Coll) : Bool := (peers s c).all (fun r => c.ready.contains r)

/-! ### PERMUTE (R333) -/

/-- Kinds of COUNTS: 1 total bytes and number of moves, 2 one move's destination and length, 3 rows for a slot, 4 rows kept of
a slot, 5 rows to come. -/
def permTotal (c : Coll) (rank : Nat) : Nat := match countOf c rank 1 0 with | some v => lget 0 v 0 | none => 0

/-- Bytes of a rank's moves to another. -/
def movesTo (pl : PermPlan) (r : Nat) : List (Nat × Nat × Nat × Nat) := pl.moves.filter (fun m => m.1 == r)

/-- Read the bytes of moves, one after the other. -/
def readMoves (k : Agent) (ms : List (Nat × Nat × Nat × Nat)) (s : State) : Nat × List Byte × State :=
  ms.foldl (fun (acc : Nat × List Byte × State) m =>
    if acc.1 != 0 then acc
    else
      let r := accRead acc.2.2 k m.2.2.1 m.2.1
      (r.st, acc.2.1 ++ r.bytes, r.s)) (0, [], s)

/-- Place in the stage of a source rank's bytes. -/
def stageOff (c : Coll) (rank : Nat) : Nat := (List.range rank).foldl (fun a r => a + permTotal c r) 0

/-- Bytes of a staged segment's destination: (address, length). -/
def segBytes (m : List Nat) : List Nat := (List.range (lget 0 m 1)).map (fun i => lget 0 m 0 + i)

/-- Bytes that more than one segment writes. -/
def twice : List (List Nat) → List Nat
  | [] => []
  | m :: r => (segBytes m).filter (fun a => r.any (fun n => decide (lget 0 n 0 ≤ a) && decide (a < lget 0 n 0 + lget 0 n 1))) ++ twice r

def permStep (c : Coll) (s : State) : Option (Coll × Nat × State) :=
  let p := collP s c
  let me := myRank s c
  let k := collAgent s c c.hint
  let k0 := collAgent s c 0
  let pl := readPerm k0 c.plan p s
  let s := pl.2.2
  let pl := pl.2.1
  let ranks := List.range p
  if pl.stage % 16 != 0 then some (c, 0x0150, s)
  else if !(allReady s c) then none
  else if (countOf c me 1 0).isNone then
    -- phase 1: totals and moves go to every member
    let r := ranks.foldl (fun acc j =>
      let ms := movesTo pl j
      let acc := giveCount j 1 0 [ms.foldl (fun a m => a + m.2.1) 0, ms.length] acc
      (ms.zipIdx).foldl (fun acc m => giveCount j 2 m.2 [m.1.2.2.2, m.1.2.1] acc) acc) (c, true, s)
    some (r.1, if r.2.1 then 0 else 0x0401, r.2.2)
  else if !(ranks.all (fun j => (countOf c j 1 0).isSome)) then none
  else
    let total := ranks.foldl (fun a j => a + permTotal c j) 0
    if pl.size < total then some (c, 0x0150, s)
    else if !c.base then
      let r := readMoves k (movesTo pl me) s
      if r.1 != 0 then some (c, r.1, r.2.2)
      else
        let w := if r.2.1.isEmpty then (0, r.2.2) else accWrite r.2.2 k0 (pl.stage + stageOff c me) r.2.1
        some ({ c with base := true }, w.1, w.2)
    else match (peers s c).find? (fun j => !(c.sent.contains (txKey 0 j))) with
      | some j =>
        let r := readMoves k (movesTo pl j) s
        if r.1 != 0 then some (c, r.1, r.2.2)
        else
          let w := sendData c j 0 r.2.1 r.2.2
          some ({ c with sent := c.sent ++ [txKey 0 j] }, if w.1 then 0 else 0x0401, w.2)
      | none =>
        if !c.doneOut then
          let r := (peers s c).foldl (fun (acc : Bool × State) j => if acc.1 then sendCtl c j 3 [] acc.2 else acc) (true, s)
          some ({ c with doneOut := true }, if r.1 then 0 else 0x0401, r.2)
        else match (peers s c).find? (fun j => !(c.applied.contains (txKey 0 j)) && decide (permTotal c j ≤ (tget [] c.rx (txKey 0 j)).length)) with
          | some j =>
            let d := (tget [] c.rx (txKey 0 j)).take (permTotal c j)
            let w := if d.isEmpty then (0, s) else accWrite s k0 (pl.stage + stageOff c j) d
            some ({ c with applied := c.applied ++ [txKey 0 j], rx := tdel (txKey 0 j) c.rx }, w.1, w.2)
          | none =>
            if !((peers s c).all (fun j => c.dones.contains j && c.applied.contains (txKey 0 j))) then none
            else
              -- phase 3: every staged segment goes to its destination
              let segs := permSegs c s
              let fault := fun st (s : State) =>
                if isWordFault st then s
                else raiseFault s k.job [] (mkRep s 0x0C 6 7 c.group st k.job c.seq)
              if !(segs.all (fun m => mapped s (lget 0 m 0) (lget 0 m 1))) then some (c, 0x0301, fault 0x0301 s)
              else
                let r := segs.foldl (fun (acc : Nat × Nat × State) m =>
                  if acc.1 != 0 then acc
                  else
                    let w := localCopy c 0 (pl.stage + acc.2.1) (lget 0 m 0) (lget 0 m 1) acc.2.2
                    (w.1, acc.2.1 + lget 0 m 1, w.2)) (0, 0, s)
                if r.1 != 0 then some ({ c with wrote := true }, r.1, fault r.1 r.2.2)
                else some (c, 0, collGood c (total * 2 ^ 32 + pl.moves.length) (undefBytes (twice segs) r.2.2))

/-! ### Expert exchange (R330–R332) -/

/-- Own routes to an expert, in ascending (t, k): (t, k, weight). -/
def routesTo (r : Route) (e : Nat) : List (Nat × Nat) :=
  (r.toks.zipIdx.filter (fun x => x.1.1 == e)).map (fun x => (x.2 / r.topk, x.2 % r.topk))

/-- The expert in a slot of a rank. -/
def expertAt (r : Route) (rank slot : Nat) : Nat := r.emap.findIdx (fun e => e.1 == rank && e.2 == slot)

/-- Rows a holder keeps of each rank for one of its slots (R330). -/
def keptRows (c : Coll) (r : Route) (p slot : Nat) : List Nat :=
  ((List.range p).foldl (fun (acc : List Nat × Nat) j =>
    let n := match countOf c j 3 slot with | some v => lget 0 v 0 | none => 0
    (acc.1 ++ [min n (r.cap - acc.2)], acc.2 + n)) ([], 0)).1

/-- Records as bytes, 8 each, padded to 16. -/
def recBytes (l : List (Nat × Nat × Nat)) : List Byte :=
  let b := l.flatMap (fun x => leBytes 4 x.1 ++ leBytes 1 x.2.1 ++ leBytes 1 0 ++ leBytes 2 x.2.2)
  b ++ List.replicate (b.length % 16) 0

def readRecs (n : Nat) (b : List Byte) : List (Nat × Nat × Nat) :=
  (List.range n).map (fun i => let f := fun o k => leNat ((b.drop (8 * i + o)).take k); (f 0 4, f 4 1, f 6 2))

/-- Rows from a rank for every slot here: number kept. -/
def keptFrom (c : Coll) (r : Route) (p me rank : Nat) : Nat :=
  (List.range (slotsOf r me)).foldl (fun a sl => a + lget 0 (keptRows c r p sl) rank) 0

/-- Own rows kept at a rank's slots, in slot order then (t, k): (t, k, slot). -/
def ownKept (c : Coll) (r : Route) (rank : Nat) : List (Nat × Nat × Nat) :=
  (List.range (slotsOf r rank)).flatMap (fun sl =>
    ((routesTo r (expertAt r rank sl)).take (match countOf c rank 4 sl with | some v => lget 0 v 0 | none => 0)).map (fun x => (x.1, x.2, sl)))

/-- Write the rows of a rank to their places in DST, and their records at META (R331). -/
def placeRows (c : Coll) (r : Route) (p me rank : Nat) (l : List (Nat × Nat × Nat)) (d : List Byte) (s : State) : Nat × State :=
  let k := collAgent s c c.hint
  let k0 := collAgent s c 0
  (l.zipIdx).foldl (fun (acc : Nat × State) x =>
    if acc.1 != 0 then acc
    else
      let sl := x.1.2.2
      let before := ((keptRows c r p sl).take rank).foldl (· + ·) 0 + ((l.take x.2).filter (fun y => y.2.2 == sl)).length
      let ix := sl * r.cap + before
      let w := accWrite acc.2 k (c.dst + ix * c.len) ((d.drop (x.2 * c.len)).take c.len)
      if w.1 != 0 then w
      else accWrite w.2 k0 (r.mta + 16 * ((slotsOf r me + 3) / 4) + 8 * ix)
        (leBytes 2 rank ++ leBytes 1 x.1.2.1 ++ leBytes 1 0 ++ leBytes 4 x.1.1)) (0, s)

/-- Read own rows. -/
def readRows8 (k : Agent) (base len : Nat) (l : List Nat) (s : State) : Nat × List Byte × State :=
  l.foldl (fun (acc : Nat × List Byte × State) i =>
    if acc.1 != 0 then acc
    else
      let r := accRead acc.2.2 k (base + i * len) len
      (r.st, acc.2.1 ++ r.bytes, r.s)) (0, [], s)

/-- Send records and rows to a rank. -/
def sendRows (c : Coll) (rank : Nat) (l : List (Nat × Nat × Nat)) (d : List Byte) (s : State) : Bool × State :=
  let w := sendData c rank 0 (recBytes l) s
  if !w.1 then w else sendData c rank 1 d w.2

/-- The next rank whose records and rows are all here: `n` is how many to expect of it. -/
def rowsHere (s : State) (c : Coll) (n : Nat → Option Nat) : Option (Nat × Nat) :=
  (peers s c).findSome? (fun j => match n j with
    | none => none
    | some m => if !(c.applied.contains (txKey 1 j)) && decide (8 * m ≤ (tget [] c.rx (txKey 0 j)).length)
        && decide (m * c.len ≤ (tget [] c.rx (txKey 1 j)).length) then some (j, m) else none)

def dispatchStep (c : Coll) (s : State) : Option (Coll × Nat × State) :=
  let p := collP s c
  let me := myRank s c
  let k := collAgent s c c.hint
  let rr := readRoute (collAgent s c 0) c.plan s
  let r := rr.2.1
  let s := rr.2.2
  let ranks := List.range p
  let slots := List.range (slotsOf r me)
  if rr.1 != 0 then some (c, rr.1, s)
  else if !(allReady s c) then none
  else if !c.base then
    -- rows counted for each expert go to its holder
    let q := (r.emap.zipIdx).foldl (fun acc e => giveCount e.1.1 3 e.1.2 [(routesTo r e.2).length] acc) (c, true, s)
    some ({ q.1 with base := true }, if q.2.1 then 0 else 0x0401, q.2.2)
  else if !(ranks.all (fun j => slots.all (fun sl => (countOf c j 3 sl).isSome))) then none
  else if !c.doneOut then
    -- the holder answers what it keeps
    let q := slots.foldl (fun acc sl => (ranks.zip (keptRows c r p sl)).foldl (fun acc x => giveCount x.1 4 sl [x.2] acc) acc) (c, true, s)
    let lost := slots.foldl (fun a sl => a + ((List.range p).foldl (fun a j =>
      a + (match countOf c j 3 sl with | some v => lget 0 v 0 | none => 0)) 0 - (keptRows c r p sl).foldl (· + ·) 0)) 0
    some ({ q.1 with doneOut := true }, if q.2.1 then 0 else 0x0401, finc q.2.2 .SYN_COLL_STAT [] Fld.SYN_COLL_STAT_DROPPED lost)
  else
    let have_ := fun j => (List.range (slotsOf r j)).all (fun sl => (countOf c j 4 sl).isSome)
    match ranks.find? (fun j => have_ j && !(c.sent.contains (txKey 0 j))) with
    | some j =>
      let l := ownKept c r j
      let d := readRows8 k c.src c.len (l.map (fun x => x.1)) s
      if d.1 != 0 then some (c, d.1, d.2.2)
      else if j = me then
        let w := placeRows c r p me me l d.2.1 d.2.2
        some ({ c with sent := c.sent ++ [txKey 0 j], wrote := true }, w.1, w.2)
      else
        let w := sendRows c j l d.2.1 d.2.2
        some ({ c with sent := c.sent ++ [txKey 0 j] }, if w.1 then 0 else 0x0401, w.2)
    | none =>
      match rowsHere s c (fun j => some (keptFrom c r p me j)) with
      | some (j, m) =>
        let w := placeRows c r p me j (readRecs m (tget [] c.rx (txKey 0 j))) (tget [] c.rx (txKey 1 j)) s
        some ({ c with applied := c.applied ++ [txKey 1 j], rx := tdel (txKey 1 j) (tdel (txKey 0 j) c.rx), wrote := true }, w.1, w.2)
      | none =>
        if c.sent.length < p || !((peers s c).all (fun j => c.applied.contains (txKey 1 j))) then none
        else
          let cnt := slots.map (fun sl => (keptRows c r p sl).foldl (· + ·) 0)
          let w := if slots.isEmpty then (0, s) else accWrite s (collAgent s c 0) r.mta (cnt.flatMap (leBytes 4))
          if w.1 != 0 then some (c, w.1, w.2)
          else
            let mine := ranks.foldl (fun a j => a + (ownKept c r j).length) 0
            some (c, 0, collGood c (cnt.foldl (· + ·) 0 * 2 ^ 32 + (r.toks.length - mine)) w.2)

/-- The rows a holder returns to a rank, from META (R332): (t, k, row index). -/
def heldRows (r : Route) (cnt : List Nat) (b : List Byte) (rank : Nat) : List (Nat × Nat × Nat) :=
  (cnt.zipIdx).flatMap (fun x => (List.range x.1).filterMap (fun j =>
    let ix := x.2 * r.cap + j
    let f := fun o n => leNat ((b.drop (8 * ix + o)).take n)
    if f 0 2 = rank then some (f 4 4, f 2 1, ix) else none))

/-- One token's combined row (R332); a sum that does not exist is open (log entry 9). -/
def combineRow (r : Route) (n : Nat) (rows : List (Nat × Nat × List Byte)) (t : Nat) : List Byte :=
  (List.range n).flatMap (fun i => leBytes 2 (fenc .bf16 (fdec .fp32 ((List.range r.topk).foldl (fun acc k =>
    match rows.find? (fun x => x.1 == t && x.2.1 == k) with
    | none => acc
    | some x =>
      let wt := (lget (0, 0) r.toks (t * r.topk + k)).2
      let e := leNat ((x.2.2.drop (2 * i)).take 2)
      fencOr .fp32 37 [acc, wt, e] ((fdec .fp32 acc).isNan || (fdec .fp32 wt).isNan || (fdec .bf16 e).isNan)
        (fadd (fdec .fp32 acc) (fmul (fdec .fp32 wt) (fdec .bf16 e)))) 0))))

def combineStep (c : Coll) (s : State) : Option (Coll × Nat × State) :=
  let p := collP s c
  let me := myRank s c
  let k := collAgent s c c.hint
  let k0 := collAgent s c 0
  let rr := readRoute k0 c.plan s
  let r := rr.2.1
  let s := rr.2.2
  let n := slotsOf r me
  if rr.1 != 0 then some (c, rr.1, s)
  else if !(allReady s c) then none
  else match (List.range p).find? (fun j => !(c.sent.contains (txKey 0 j))) with
    | some j =>
      let h := accRead s k0 r.mta (4 * n)
      if n != 0 && h.st != 0 then some (c, h.st, h.s)
      else
        let cnt := (List.range n).map (fun i => min r.cap (leNat ((h.bytes.drop (4 * i)).take 4)))
        let b := accRead h.s k0 (r.mta + 16 * ((n + 3) / 4)) (8 * n * r.cap)
        if n != 0 && b.st != 0 then some (c, b.st, b.s)
        else
          let l := if n = 0 then [] else heldRows r cnt b.bytes j
          let d := readRows8 k c.src c.len (l.map (fun x => x.2.2)) b.s
          if d.1 != 0 then some (c, d.1, d.2.2)
          else
            let c' : Coll := { c with sent := c.sent ++ [txKey 0 j] }
            if j = me then
              some ({ c' with rows := c.rows ++ l.zipIdx.map (fun x => (x.1.1, x.1.2.1, (d.2.1.drop (x.2 * c.len)).take c.len)) }, 0, d.2.2)
            else
              let q := giveCount j 5 0 [l.length] (c', true, d.2.2)
              let w := if q.2.1 then sendRows c j l d.2.1 q.2.2 else (false, q.2.2)
              some (c', if w.1 then 0 else 0x0401, w.2)
    | none =>
      match rowsHere s c (fun j => (countOf c j 5 0).map (fun v => lget 0 v 0)) with
      | some (j, m) =>
        let l := readRecs m (tget [] c.rx (txKey 0 j))
        let d := tget [] c.rx (txKey 1 j)
        some ({ c with applied := c.applied ++ [txKey 1 j], rx := tdel (txKey 1 j) (tdel (txKey 0 j) c.rx),
                       rows := c.rows ++ l.zipIdx.map (fun x => (x.1.1, x.1.2.1, (d.drop (x.2 * c.len)).take c.len)) }, 0, s)
      | none =>
        if !((peers s c).all (fun j => c.applied.contains (txKey 1 j))) then none
        else
          let w := (List.range r.t).foldl (fun (acc : Nat × State) t =>
            if acc.1 != 0 then acc else accWrite acc.2 k (c.dst + t * c.len) (combineRow r (c.len / 2) c.rows t)) (0, s)
          if w.1 != 0 then some ({ c with wrote := true }, w.1, w.2)
          else some (c, 0, collGood c (r.toks.length - c.rows.length) w.2)

/-! ### Carrying on -/

/-- The part of an operation within this device. -/
def baseStep (c : Coll) (s : State) : Nat × State :=
  let p := collP s c
  let me := myRank s c
  match c.opc with
  | 0x70 => localCopy c c.hint c.src c.dst c.len s
  | 0x71 => localCopy c c.hint c.src (c.dst + me * c.len) c.len s
  | 0x72 => if p = 1 then localCopy c c.hint c.src c.dst c.len s else (0, s)
  | 0x73 => if c.plan % 65536 = me then localCopy c c.hint c.src c.dst c.len s else (0, s)
  | _ => localCopy c c.hint (c.src + me * c.len) (c.dst + me * c.len) c.len s

/-- Whether a ring or direct operation has nothing left. -/
def collOver (s : State) (c : Coll) : Bool :=
  if c.opc = 0x70 || c.opc = 0x72 then
    decide (ringSteps c (collP s c) ≤ c.sent.length) && decide (ringSteps c (collP s c) ≤ c.applied.length)
  else (directTo s c).all (fun r => c.sent.contains (txKey 0 r)) && (directFrom s c).all (fun r => c.applied.contains (txKey 0 r))

/-- One thing a collective can do now; no data moves, within this device either, before every peer's READY has come (R324). -/
def collStep (c : Coll) (s : State) : Option (Coll × Nat × State) :=
  if c.opc = 0x75 then permStep c s
  else if c.opc = 0x76 then dispatchStep c s
  else if c.opc = 0x77 then combineStep c s
  else if !c.base then
    if !(allReady s c) then none
    else
    let w := baseStep c s
    let local_ := c.opc != 0x72 && (c.opc != 0x73 || c.plan % 65536 == myRank s c)
    some ({ c with base := true, wrote := c.wrote || local_ }, w.1, w.2)
  else if collOver s c then some (c, 0, collGood c 0 s)
  else if c.opc = 0x70 || c.opc = 0x72 then
    (match ringSend c s with | some x => some x | none => ringApply c s)
  else (match directSend c s with | some x => some x | none => directApply c s)

/-- Carry a collective as far as it goes; one of a job in the fault set sends nothing more (R338). -/
def collRun (cmd : Nat) : Nat → State → State
  | 0, s => s
  | f + 1, s =>
    match collOf s cmd with
    | none => s
    | some c =>
      if !c.begun || jobStopped s (collAgent s c 0).job then s
      else match collStep c s with
        | none => s
        | some (c', st, s') =>
          if st = 0x0401 then collFail c' false s'
          else if st != 0 then collEnd c' st 0 s'
          else collRun cmd f (setColl s' c')

def collFuel (s : State) (cmd : Nat) : Nat := match collOf s cmd with | some c => 8 * collP s c + 16 | none => 0

/-- Compare a READY with this member's own values (R324); none when it disagrees. -/
def readyFits (s : State) (c : Coll) (r : Ready) : Bool :=
  r.opc == c.opc && r.len == c.len && r.crc == membersCrc (collMembers s c)

/-- Begin the collectives whose turn has come: READY goes to every peer (R324). -/
def collBegin (cmd : Nat) (s : State) : State :=
  match collOf s cmd with
  | none => s
  | some c =>
    match groupOf s c.group with
    | none => s
    | some g =>
      let busy := s.colls.any (fun x => x.group == c.group && (x.begun || decide (x.cmd < c.cmd)) && x.cmd != c.cmd)
      if c.begun || busy || decide (64 ≤ (s.colls.filter (fun x => x.begun)).length) then s
      else
        let c : Coll := { c with begun := true, seq := g.seq }
        let s := setColl { s with groups := tput c.group { g with seq := (g.seq + 1) % 2 ^ 32 } s.groups } c
        let w := (peers s c).foldl (fun (acc : Bool × State) r => if acc.1 then
          sendCtl c r 1 (leBytes 1 c.opc ++ leBytes 2 0 ++ leBytes 4 c.seq ++ leBytes 8 c.len ++ leBytes 4 (membersCrc g.members)) acc.2
          else acc) (true, s)
        if !w.1 then collFail c false w.2
        else
          let early := w.2.readies.filter (fun r => r.group == c.group && r.seq == c.seq)
          let s := { w.2 with readies := w.2.readies.filter (fun r => !(r.group == c.group && r.seq == c.seq)) }
          if early.any (fun r => !(readyFits s c r)) then collEnd c 0x0150 0 s
          else collRun cmd (collFuel s cmd) (setColl s { c with ready := early.map (fun r => rankOf s g.members r.src) })

/-- Take every collective of the device further; one that ends may let an earlier one begin. -/
def collAll (s : State) : State :=
  (s.colls ++ s.colls).foldl (fun s c => collRun c.cmd (collFuel s c.cmd) (collBegin c.cmd s)) s

/-! ### Commands -/

/-- GROUP_SET (R323). -/
def groupDefine (c : Cmd) (s : State) : State :=
  let g := par c 0 2
  let n := par c 2 2
  if 4095 < g || n = 0 || decide (32768 < n) || s.colls.any (fun x => x.group == g) then finish s c.id 0x0150 0
  else
    let r := accRead s { agentOf s c with reader := 5 } (par c 8 8) (2 * n)
    if r.st != 0 then finish r.s c.id r.st 0
    else
      let ms := (List.range n).map (fun i => leNat ((r.bytes.drop (2 * i)).take 2))
      if (ms.filter (fun x => x == ownId r.s)).length ≠ 1 || ms.any (fun x => decide (0x8000 ≤ x)) || ms.eraseDups.length ≠ n then
        finish r.s c.id 0x0150 0
      else finish { r.s with groups := tput g ⟨cmdJob s c, ms, 0⟩ r.s.groups } c.id 0 0

/-- The ring order of a plan, as ranks (R327). -/
def readOrder (k : Agent) (plan p : Nat) (s : State) : Nat × List Nat × State :=
  if plan = 0 then (0, List.range p, s)
  else
    let r := accRead s k plan (2 * p)
    let l := (List.range p).map (fun i => leNat ((r.bytes.drop (2 * i)).take 2))
    if r.st != 0 then (r.st, [], r.s)
    else if l.any (fun x => decide (p ≤ x)) || l.eraseDups.length ≠ p then (0x0150, [], r.s) else (0, l, r.s)

/-- Whether every range a permute names on this device is mapped (R39): its stage, its sources, and the destinations of its
own moves. -/
def permMapped (pl : PermPlan) (me : Nat) (s : State) : Bool :=
  mapped s pl.stage pl.size && pl.moves.all (fun m => mapped s m.2.2.1 m.2.1 && (m.1 != me || mapped s m.2.2.2 m.2.1))

/-- Whether every range an expert exchange names on this device is mapped (R39): tokens, rows by slot, and META. -/
def routeMapped (c : Coll) (r : Route) (me : Nat) (s : State) : Bool :=
  let n := slotsOf r me
  let rows := n * r.cap * c.len
  mapped s c.src (if c.opc = 0x76 then r.t * c.len else rows) && mapped s c.dst (if c.opc = 0x76 then rows else r.t * c.len)
    && (n == 0 || mapped s r.mta (16 * ((n + 3) / 4) + 8 * n * r.cap))

/-- What an expert exchange writes here: rows, and META for a dispatch (R331, R332). -/
def routeSpan (c : Coll) (r : Route) (me : Nat) : List (Nat × Nat) :=
  let n := slotsOf r me
  if c.opc = 0x76 then [(c.dst, n * r.cap * c.len), (r.mta, if n = 0 then 0 else 16 * ((n + 3) / 4) + 8 * n * r.cap)]
  else [(c.dst, r.t * c.len)]

/-- The status that refuses a collective before its READY (R326, R330, R333), and the collective with its ring order and what it
writes. -/
def collCheck (c : Coll) (job : Nat) (s : State) : Nat × Coll × State :=
  match groupOf s c.group with
  | none => (0x0150, c, s)
  | some g =>
    let p := g.members.length
    let k := collAgent s c 0
    let isRing := c.opc == 0x70 || c.opc == 0x72
    let z := collSizes c p
    if g.job ≠ job || decide (2 < c.hint) || isRing != (c.red != 0) || decide (9 < c.red) then (0x0150, c, s)
    else if c.opc ≤ 0x74 then
      if c.len = 0 || c.len % 16 != 0 || (c.opc == 0x73 && decide (p ≤ c.plan % 65536)) || (isRing && decide (spBase < c.dst + z.2)) then
        (0x0150, c, s)
      else if !(mapped s c.src z.1) || !(mapped s c.dst z.2) then (0x0301, c, s)
      else
        let r := if isRing then readOrder k c.plan p s else (0, [], s)
        (r.1, { c with order := r.2.1, span := [(c.dst, z.2)], laps := overlaps c.src z.1 c.dst z.2 }, r.2.2)
    else if c.len = 0 || c.len % 16 != 0 then (0x0150, c, s)
    else if c.opc = 0x75 then
      let r := readPerm k c.plan p s
      (if r.1 != 0 then r.1 else if permMapped r.2.1 (myRank s c) r.2.2 then 0 else 0x0301, c, r.2.2)
    else if 65536 < c.len then (0x0150, c, s)
    else
      let r := readRoute k c.plan s
      let me := myRank s c
      if r.1 != 0 then (r.1, c, r.2.2)
      else if routeBad r.2.1 p me (c.opc == 0x77) then (0x0150, c, r.2.2)
      else
        let rows := slotsOf r.2.1 me * r.2.1.cap * c.len
        let toks := r.2.1.t * c.len
        let z := if c.opc = 0x76 then (toks, rows) else (rows, toks)
        (if routeMapped c r.2.1 me r.2.2 then 0 else 0x0301,
         { c with span := routeSpan c r.2.1 me, laps := overlaps c.src z.1 c.dst z.2 }, r.2.2)

/-- A collective command: refused, or queued with its group (R324, R326); taken again, it carries on. -/
def collCmd (c : Cmd) (s : State) : State :=
  if (collOf s c.id).isSome then collAll s
  else
    let x : Coll :=
      { cmd := c.id, group := par c 0 2, opc := c.opc, red := par c 2 1, hint := par c 3 1, src := par c 8 8, dst := par c 16 8,
        len := par c 24 8, plan := par c 32 8, seq := 0, order := [], begun := false, base := false, ready := [], sent := [], rx := [],
        applied := [], counts := [], dones := [], doneOut := false, recs := [], rows := [], wrote := false, span := [], laps := false }
    let r := collCheck x (cmdJob s c) s
    if r.1 != 0 then finish (finc r.2.2 .SYN_COLL_STAT [] Fld.SYN_COLL_STAT_FAILED 1) c.id r.1 0
    else collAll { r.2.2 with colls := r.2.2.colls ++ [r.2.1] }

/-! ### Packets (R325) -/

/-- The collective a packet belongs to. -/
def collFor (s : State) (x : Pkt) : Option Coll :=
  s.colls.find? (fun c => c.group == x.win && c.begun && c.seq % 4096 == x.gen)

def isCtl (kind : Nat) (x : Pkt) : Bool := x.typ == 0x13 && !x.full && (lget 0 x.data 0).toNat == kind

def bytesAt (x : Pkt) (off n : Nat) : Nat := leNat ((x.data.drop off).take n)

/-- READY (R324): kept when this member has not come so far. -/
def collReady (_p : Nat) (x : Pkt) (s : State) : State :=
  let r : Ready := ⟨x.win, x.src, bytesAt x 4 4, bytesAt x 1 1, bytesAt x 8 8, bytesAt x 16 4⟩
  match collFor s x with
  | some c =>
    if c.seq ≠ r.seq then { s with readies := s.readies ++ [r] }
    else if !(readyFits s c r) then collAll (collEnd c 0x0150 0 s)
    else collAll (setColl s { c with ready := c.ready ++ [rankOf s (collMembers s c) x.src] })
  | none => { s with readies := s.readies ++ [r] }

def collCounts (_p : Nat) (x : Pkt) (s : State) : State :=
  match collFor s x with
  | none => s
  | some c => collAll (setColl s (putCount c (rankOf s (collMembers s c) x.src) (bytesAt x 1 3) (bytesAt x 4 4) [bytesAt x 8 8, bytesAt x 16 8]))

def collDone (_p : Nat) (x : Pkt) (s : State) : State :=
  match collFor s x with
  | none => s
  | some c => collAll (setColl s { c with dones := c.dones ++ [rankOf s (collMembers s c) x.src] })

/-- The step a TAG names: the first not yet applied that agrees with it. -/
def stepOf (c : Coll) (tag : Nat) : Nat :=
  if c.opc = 0x70 || c.opc = 0x72 then let n := c.applied.length; n + (tag + 2048 - n % 2048) % 2048 else tag

def collData (_p : Nat) (x : Pkt) (s : State) : State :=
  match collFor s x with
  | none => s
  | some c =>
    let key := txKey (stepOf c x.tag) (rankOf s (collMembers s c) x.src)
    let old := tget [] c.rx key
    let d := old ++ List.replicate (x.off - old.length) 0
    collAll (setColl s { c with rx := tput key (d.take x.off ++ x.data ++ d.drop (x.off + x.data.length)) c.rx })

/-- COLL_TIMEOUT (R328). -/
def collTimeout (g : Nat) (s : State) : State :=
  match s.colls.find? (fun c => c.group == g && c.begun) with
  | none => s
  | some c => collAll (collFail c true s)

def execGroupSet (k : Nat) (s : State) : Res3 := s.run (cmdStart k 0x78 groupDefine)
def execAllreduce (k : Nat) (s : State) : Res3 := s.run (cmdGo k 0x70 collCmd)
def execAllgather (k : Nat) (s : State) : Res3 := s.run (cmdGo k 0x71 collCmd)
def execReduceScatter (k : Nat) (s : State) : Res3 := s.run (cmdGo k 0x72 collCmd)
def execBroadcast (k : Nat) (s : State) : Res3 := s.run (cmdGo k 0x73 collCmd)
def execAlltoall (k : Nat) (s : State) : Res3 := s.run (cmdGo k 0x74 collCmd)
def execPermute (k : Nat) (s : State) : Res3 := s.run (cmdGo k 0x75 collCmd)
def execExpertDispatch (k : Nat) (s : State) : Res3 := s.run (cmdGo k 0x76 collCmd)
def execExpertCombine (k : Nat) (s : State) : Res3 := s.run (cmdGo k 0x77 collCmd)
def execCollReady (s : State) : Res3 := s.run (takePkt (isCtl 1) (fun p x s => some (collReady p x s)))
def execCollCounts (s : State) : Res3 := s.run (takePkt (isCtl 2) (fun p x s => some (collCounts p x s)))
def execCollDone (s : State) : Res3 := s.run (takePkt (isCtl 3) (fun p x s => some (collDone p x s)))
def execCollData (s : State) : Res3 := s.run (takePkt (fun x => x.typ == 0x13 && x.full) (fun p x s => some (collData p x s)))
def execCollTimeout (g : Nat) (s : State) : Res3 := s.run (collTimeout g)

end Sys2Proof.Machine
end

