-- ==== Sys2Proof/Machine/Sett.lean ====
section
/-! DEFINITION. The Sett table: the image the management processor builds (R48–R54, R473). -/

namespace Sys2Proof.Machine

/-- Number of dimension-free parts: an entry of TYPE with its records, each a list of words (R54). -/
def settEntry (typ : Nat) (recs : List (List Nat)) : List Nat :=
  let ws := recs.flatten
  ((8 + 8 * ws.length) * 2 ^ 40 + recs.length * 2 ^ 24 + 2 ^ 16 + typ) :: ws

/-- Whether a cluster is out of the logical map (ROLE 2 or 3). -/
def isOut (s : State) (c : Nat) : Bool := (tfind s.topo.out c).isSome

/-- Tower records. -/
def settTowers (s : State) : List (List Nat) :=
  (List.range 16).map (fun t =>
    let cs := (List.range 64).map (fun k => 64 * t + k)
    let nl := (cs.filter (fun c => s.topo.lmap.contains (some c))).length
    let no := (cs.filter (isOut s)).length
    [no * 2 ^ 32 + (64 - nl - no) * 2 ^ 24 + nl * 2 ^ 16 + t / 4 * 2 ^ 8 + t % 4 * 2 ^ 6 + (t / 8 * 2 + t % 4 / 2) * 2 ^ 4 + t])

/-- Logical cluster records. -/
def settLogical (s : State) : List (List Nat) :=
  (List.range (grade s)).map (fun l => match physOf s l with
    | none => [2 ^ 10 + l]
    | some c => [b2n (tfind s.topo.half c).isSome * 2 ^ 36 + c % 64 * 2 ^ 30 + c / 64 * 2 ^ 26 + c * 2 ^ 16 + l])

/-- Physical cluster records. -/
def settPhysical (s : State) : List (List Nat) :=
  (List.range 1024).map (fun c => match tfind s.topo.out c with
    | some o => [o.cause * 2 ^ 32 + o.role * 2 ^ 10 + c]
    | none => match logOf s c with
      | some l => [l * 2 ^ 16 + c]
      | none => [2 ^ 10 + c])

/-- Spare banks of a cluster's pillar in use. -/
def banksReplaced (s : State) (c : Nat) : Nat :=
  (s.topo.bankSpare.filter (fun e => e.1 / 512 == c / 64 && e.1 % 32 == c % 64 / 2 && e.2.1 == c % 2)).length

/-- Spare data and control lanes of a pillar in use. -/
def dataUsed (s : State) (c : Nat) : Nat := (s.topo.dataSpare.filter (fun e => e.1 / 32 == c)).length
def ctlUsed (s : State) (c : Nat) : Nat := (s.topo.ctlSpare.filter (fun e => e.1 / 8 == c)).length

/-- Pillar health records. -/
def settPillars (s : State) : List (List Nat) :=
  (List.range 1024).map (fun c =>
    [tget 0 s.topo.readLat c % 65536 * 2 ^ 32 + banksReplaced s c * 2 ^ 24 + b2n (isOut s c) * 2 ^ 21
      + b2n (tfind s.topo.half c).isSome * 2 ^ 20 + ctlUsed s c * 2 ^ 16 + dataUsed s c * 2 ^ 10 + c])

/-- Spare bank use records. -/
def settSpares (s : State) : List (List Nat) :=
  s.topo.bankSpare.map (fun e => [e.2.2 * 2 ^ 14 + e.2.1 * 2 ^ 13 + e.1 % 32 * 2 ^ 8 + e.1 / 32 % 16 * 2 ^ 4 + e.1 / 512])

/-- Regulator phase records. -/
def settPhases (s : State) : List (List Nat) :=
  (List.range 1024).map (fun d =>
    [fget s .PWR_DOM_STAT [d] Fld.PWR_DOM_STAT_CAP_PCT * 2 ^ 16 + fget s .PWR_DOM_STAT [d] Fld.PWR_DOM_STAT_PHASE_GOOD % 16 * 2 ^ 12 + d])

/-! ### Thermal sensors (R405, R473) -/

/-- Centre of a row or column of cluster sites, in µm. -/
def siteUm (i : Nat) : Nat := (5750 * i + 2877) / 4

/-- Layer code of R422 of a tower-local sensor. -/
def sensLayer (s : Nat) : Nat := if s < 64 then 1 else if s < 80 then 2 else if s < 208 then 16 + (s - 80) / 8 else 0

/-- Partner of a tower-local sensor. -/
def sensPartner (s : Nat) : Option Nat :=
  if s < 64 then none
  else if s < 80 then some (64 + (s - 64) / 2 * 2 + (1 - s % 2))
  else if s < 208 then some (80 + 8 * ((s - 80) / 8 ^^^ 1) + (s - 80) % 8)
  else some (if s % 2 = 0 then s + 1 else s - 1)

/-- Site of a tower-local sensor: X, Y and NEAR. -/
def sensSite (s : Nat) : Nat × Nat × Nat :=
  if s < 64 then (siteUm (s % 8), siteUm (s / 8), s)
  else if s < 80 then
    let i := (s - 64) / 2
    if s % 2 = 0 then (5730, siteUm i, 8 * i + 3) else (5770, siteUm i, 8 * i + 4)
  else if s < 208 then let i := (s - 80) % 8; (5031, siteUm i, 8 * i + 3)
  else match s - 208 with
    | 0 => (5031, 2855, 11)
    | 1 => (5031, 2895, 19)
    | 2 => (5031, 8605, 43)
    | _ => (5031, 8645, 51)

/-- STATUS of a sensor: 0 good, 1 suspect, 2 excluded. -/
def sensStatus (s : State) (i : Nat) : Nat :=
  if s.thm.excluded.contains i then 2 else if s.thm.suspect.contains i then 1 else 0

/-- Thermal sensor records. -/
def settSensors (s : State) : List (List Nat) :=
  (List.range 3392).map (fun i =>
    let t := i / 212
    let k := i % 212
    let p := sensSite k
    [p.2.1 * 2 ^ 48 + p.1 * 2 ^ 32 + p.2.2 * 2 ^ 24 + sensStatus s i * 2 ^ 21 + sensLayer k * 2 ^ 16 + t * 2 ^ 12 + i,
     match sensPartner k with | some q => 212 * t + q | none => 0xFFF])

/-- Latency records: sixteen 16-bit values each. -/
def settLatency (s : State) : List (List Nat) :=
  (List.range 38).map (fun r => (List.range 4).map (fun w =>
    (List.range 4).foldl (fun acc i => acc + tget 0 s.topo.lat (16 * r + 4 * w + i) % 65536 * 2 ^ (16 * i)) 0))

/-! ### Redundancy -/

/-- Members of the fabric at build; 1 in no fabric. -/
def fabricSize (s : State) : Nat := if isMember s then s.syn.members.length else 1

/-- Trained Synur lanes: the active ones and the hot spare held trained (R285). -/
def trainedLanes (s : State) : Nat :=
  foldUp 16 (fun n p => n + (if portState s p = 2 then
    popCount 8 (portLanes s p) + fget s .SYN_PORT_STAT [p] Fld.SYN_PORT_STAT_SPARE_V else 0)) 0

/-- A redundancy share record. -/
def shareRec (kind held total : Nat) : List Nat :=
  [held * 2 ^ 32 + (if total = 0 then 0 else min 65535 (65536 * held / total)) * 2 ^ 16 + kind]

/-- Redundancy share records (R54). DESIGN CHOICE (log entry 147): a spare bank that failed at test counts as unused, and every
other member as a reachable destination with a second disjoint path. DESIGN CHOICE (log entry 168): kind 5 HELD counts domains of
logical and spare clusters only, and kind 6 HELD is the trained lanes ÷ 8 rounded down. -/
def settShares (s : State) : List (List Nat) :=
  let online := (List.range 1024).filter (fun c => !(isOut s c))
  let nsp := (spares s).length
  let nlog := (s.topo.lmap.filter Option.isSome).length
  let whole := (online.filter (fun d => fget s .PWR_DOM_STAT [d] Fld.PWR_DOM_STAT_PHASE_GOOD % 16 == 15)).length
  let size := fabricSize s
  let lanes := if size = 1 then 0 else trainedLanes s
  let dests := size - 1
  [shareRec 1 nsp (nlog + nsp),
   shareRec 2 (8192 - s.topo.bankSpare.length) 532480,
   shareRec 3 (online.foldl (fun n c => n + (32 - dataUsed s c)) 0) (544 * online.length),
   shareRec 4 (online.foldl (fun n c => n + (8 - ctlUsed s c)) 0) (72 * online.length),
   shareRec 5 whole online.length,
   shareRec 6 (if size > 1024 then lanes / 8 else 0) lanes,
   shareRec 7 (if size > 4096 then dests else 0) dests]

/-! ### The image -/

/-- The words of an image with the generation given, before its CRC. -/
def settWords (s : State) (gen : Nat) : List Nat :=
  let body := settEntry 0x10 (settTowers s) ++ settEntry 0x20 (settLogical s) ++ settEntry 0x21 (settPhysical s)
    ++ settEntry 0x30 (settPillars s) ++ settEntry 0x31 (settSpares s) ++ settEntry 0x40 (settPhases s)
    ++ settEntry 0x50 (settSensors s) ++ settEntry 0x60 (settLatency s) ++ settEntry 0x70 (settShares s)
    ++ settEntry 0xFFFF []
  let nsp := (spares s).length
  let nlog := (s.topo.lmap.filter Option.isSome).length
  let total := 8 * (8 + body.length)
  [64 * 2 ^ 48 + 2 ^ 40 + 0x54544553, 2 ^ 48 + 10 * 2 ^ 32 + total, gen, s.tick,
   (nlog + nsp) * 2 ^ 48 + nsp * 2 ^ 32 + nlog * 2 ^ 16 + grade s, fabricSize s, 0, 0] ++ body

/-- GENERATION of the next image: 1 for the first, else one more (R52). -/
def nextGen (s : State) : Nat := match s.boot.sett with | [] => 1 | w => (lget 0 w 2 + 1) % 2 ^ 32

/-- Build the image: its CRC is taken over all bytes with the field 0 (R49). -/
def buildSett (s : State) : State :=
  let w := settWords s (nextGen s)
  let crc := crc32c (w.flatMap (leBytes 8))
  { s with boot := { s.boot with sett := lset w 2 (crc * 2 ^ 32 + lget 0 w 2) } }

/-- Word `i` of the image space (R50, R52): beyond TOTAL_LEN 0; while a rebuild is in progress VALID is 0 and the rest is
open. DESIGN CHOICE (log entry 148): at a compute reset a rebuild is in progress during the whole of stage 4, from the end of
the drain on. -/
def settRead (i : Nat) (s : State) : Nat × State :=
  if s.boot.sett.isEmpty || s.rcv.stage == 4 then
    let f := free s
    (if i = 1 then setBits (f.1 % 2 ^ 64) 48 48 0 else f.1 % 2 ^ 64, f.2)
  else (lget 0 s.boot.sett i, s)

end Sys2Proof.Machine
end

