-- ==== Sys2Proof/Machine/Repair.lean ====
section
/-! DEFINITION. Repairs and numbering: lanes, spare banks and ways (R77, R78), mapping out, spares taken and their fills (R36,
R79, R130), and interleave (R44). Bring-up and the compute reset share them. -/

namespace Sys2Proof.Machine

def modTopo (s : State) (f : Topo → Topo) : State := { s with topo := f s.topo }

/-- Append an entry to the field repair record; a full record keeps no more. Its programming lasts until the device is ready
(R435; log entry 86). -/
def frrAppend (e : Frr) (s : State) : State :=
  if s.boot.frr.length < 512 then
    let s := { s with boot := { s.boot with frr := s.boot.frr ++ [e], frrOpen := s.boot.frrOpen + 1 } }
    fset s .BOOT_STAT [] Fld.BOOT_STAT_FRR_USED s.boot.frr.length
  else fset s .BOOT_STAT [] Fld.BOOT_STAT_FRR_FULL 1

/-- Write REPAIR_APPLIED (R354): outcome, and the location as in NOMINATED. Entries are written once the log runs (R426). -/
def logRepair (outcome kind idx loc : Nat) (s : State) : State :=
  if fget s .BOOT_STAT [] Fld.BOOT_STAT_STAGE < 6 then s
  else logEv s 0x11 2 kind idx 0 0 (outcome * 2 ^ 48 + loc % 2 ^ 48)

/-- Gate a domain off, or turn it on unless it is dark (R367). -/
def gateDomain (d : Nat) (off : Bool) (s : State) : State :=
  if !off && fbit s .PWR_DOM_STAT [d] Fld.PWR_DOM_STAT_DARK then s else fset s .PWR_DOM_STAT [d] Fld.PWR_DOM_STAT_GATED (b2n off)

/-- MAPPED_OUT of a cluster (R354). -/
def logMapped (s : State) (c cause l : Nat) : State := logEv s 0x12 2 1 c 0 0 (cause % 256 * 2 ^ 32 + l * 2 ^ 16)

/-- A cluster leaves the logical map (R36, R77): ROLE and CAUSE, its number vacated, its domain gated, and its entry of the
log and, in service, of the field repair record. DESIGN CHOICE (log entry 169): its spare banks stay recorded as in use. -/
def takeOut (role c cause : Nat) (s : State) : State :=
  if isOut s c then s
  else
    let l := logOf s c
    let s := modTopo s (fun t => { t with out := tput c ⟨role, cause⟩ t.out,
                                          lmap := t.lmap.map (fun x => if x == some c then none else x) })
    let s := gateDomain c true s
    let s := if role = 2 then frrAppend ⟨3, c, cause, 0, true⟩ s else s
    if fget s .BOOT_STAT [] Fld.BOOT_STAT_STAGE < 6 then s
    else logMapped s c cause (l.getD 0)

/-! ### Lanes (R77 steps 1–3) -/

/-- Lanes 0 to 511 are data lanes, 512 up the control lanes CK0–31, CA0–31. Step 1: a lane moves to its group's spare, if the
spare is free; `keep` says whether the repair enters the field repair record. -/
def laneToSpare (keep : Bool) (c lane : Nat) (s : State) : Option State :=
  let rec_ := fun (s : State) => if keep then frrAppend ⟨0, c, lane, 0, true⟩ s else s
  if 512 ≤ lane then
    let m := lane - 512
    match tfind s.topo.ctlSpare (8 * c + m / 8) with
    | none => some (rec_ (logRepair 0 1 c (m * 2 ^ 30) (modTopo s (fun t => { t with ctlSpare := tput (8 * c + m / 8) m t.ctlSpare }))))
    | some _ => none
  else match tfind s.topo.dataSpare (32 * c + lane / 16) with
    | none => some (rec_ (logRepair 0 1 c (lane * 2 ^ 30)
        (modTopo s (fun t => { t with dataSpare := tput (32 * c + lane / 16) lane t.dataSpare }))))
    | some _ => none

/-- Step 2: the data lanes `ls` of a pillar have no free spare. The shaft goes to half width, on the half in which every group
has all lanes working, groups 0–15 when both qualify; with neither the pillar goes offline, its cluster with ROLE `role`. -/
def narrowShaft (role c : Nat) (ls : List Nat) (s : State) : State :=
  if isOut s c then s
  else
    let s := modTopo s (fun t => { t with badData := ls.map (fun l => 512 * c + l) ++ t.badData.filter (fun x => !(ls.contains (x % 512)) || x / 512 != c) })
    let bad := (s.topo.badData.filter (fun x => x / 512 == c)).map (fun x => x % 512)
    let ok0 := bad.all (fun x => decide (256 ≤ x))
    let ok1 := bad.all (fun x => decide (x < 256))
    if ok0 || ok1 then
      ls.foldl (fun s l => logRepair 1 1 c (l * 2 ^ 30) s) (modTopo s (fun t => { t with half := tput c (if ok0 then 0 else 1) t.half }))
    else takeOut role c 2 (ls.foldl (fun s l => logRepair 2 1 c (l * 2 ^ 30) s) s)

/-- Steps 1 to 3 over nominated or failed lanes (cluster, lane), each step over every lane; step 3: a control lane without a
free spare takes the pillar offline. -/
def laneRepairs (role : Nat) (keep : Bool) (lanes : List (Nat × Nat)) (s : State) : State :=
  let r := lanes.eraseDups.foldl (fun (acc : List (Nat × Nat) × State) x =>
    if isOut acc.2 x.1 then acc
    else match laneToSpare keep x.1 x.2 acc.2 with
      | some t => (acc.1, t)
      | none => (acc.1 ++ [x], acc.2)) ([], s)
  let data := r.1.filter (fun x => decide (x.2 < 512))
  let s := ((data.map (fun x => x.1)).eraseDups).foldl (fun s c =>
    narrowShaft role c ((data.filter (fun x => x.1 == c)).map (fun x => x.2)) s) r.2
  (r.1.filter (fun x => decide (512 ≤ x.2))).foldl (fun s x =>
    if isOut s x.1 then s else takeOut role x.1 2 (logRepair 2 1 x.1 ((x.2 - 512) * 2 ^ 30) s)) s

/-! ### Banks (R77 steps 4–5, R78) -/

/-- Key of the spare bank of a pillar on a die: (16 t + die) × 32 + j (R23). -/
def spareKey (c die : Nat) : Nat := (16 * (c / 64) + die) * 32 + c % 64 / 2

/-- The copy of a bank into its spare: every word is decoded, corrected where it can be, and rewritten; an uncorrectable
word becomes poison (R71, R78). -/
def bankCopy (c die p : Nat) (s : State) : State :=
  let b := 512 * c + 32 * die + p
  let words := (s.chk.filter (fun e => bankOf s (16 * e.1) == some b && decide (16 * e.1 < spBase))).map (fun e => e.1)
  belowCaches (fun s => words.foldl (fun s w =>
    let o := readWord s w
    match o.1 with
    | .clean => s
    | .corrected j x => putWord (countCe s 0 (16 * w) j x true) w o.2
    | x => logEv (putPoison (countUe s x.status) w) 0x01 2 1 c x.status 0 (12 * 2 ^ 44 + w % 2 ^ 44)) s) s

/-- Clear the address-table entries whose repair is applied (R73): those that satisfy `p` on KIND, LOCAL, DIE, P and LANE. -/
def tblClear (t : Nat) (p : Nat → Nat → Nat → Nat → Nat → Bool) (s : State) : State :=
  foldUp 32 (fun s e =>
    let w := rget s .ECC_TBL (tblIx t e)
    if bits w 63 63 == 1 && p (bits w 62 61) (bits w 60 55) (bits w 54 51) (bits w 50 46) (bits w 27 19) then
      rput (rput s .ECC_TBL (tblIx t e) 0) .ECC_TBL_TICK (tblIx t e) 0
    else s) s

/-- Whether the spare bank of a cluster's pair on a die is taken, or failed at test. -/
def spareTaken (s : State) (c die : Nat) : Bool :=
  (tfind s.topo.bankSpare (spareKey c die)).isSome || s.topo.badSpare.contains (spareKey c die)

/-- A nominated bank at a compute reset. Answers whether its nomination stays: no spare was left for it. -/
def bankRepair (n : Nom) (s : State) : Bool × State :=
  let loc := n.die * 2 ^ 44 + n.p * 2 ^ 39
  if isOut s n.c then (false, s)
  else if !(spareTaken s n.c n.die) then
    let s := bankCopy n.c n.die n.p s
    let s := modTopo s (fun t => { t with bankSpare := tput (spareKey n.c n.die) (n.c % 2, n.p) t.bankSpare })
    let s := tblClear (n.c / 64) (fun k l d p _ => k == 0 && l == n.c % 64 && d == n.die && p == n.p) s
    (false, frrAppend ⟨1, n.c, n.die, n.p, true⟩ (logRepair 3 1 n.c loc s))
  else if n.failed then (false, takeOut 2 n.c 5 (logRepair 2 1 n.c loc s)) else (true, logRepair 4 1 n.c loc s)

/-- A tower cache way is disabled. -/
def wayOff (keep : Bool) (t w : Nat) (s : State) : State :=
  let en := fget s .TC_WAY_EN [t] Fld.TC_WAY_EN_EN
  if tbit en w then
    let s := logRepair 5 3 t (w % 16) (fset s .TC_WAY_EN [t] Fld.TC_WAY_EN_EN (en - 2 ^ w))
    if keep then frrAppend ⟨2, t, w, 0, true⟩ s else s
  else s

/-! ### Numbers and fills -/

/-- Fill the pillar of a logical number with zeros carrying valid codewords for its issued addresses (R79). -/
def fillPillar (l : Nat) (s : State) : State :=
  let mine := fun (a : Nat) => decide (a < spBase) && storeL s a == l
  { s with mem := s.mem.filter (fun e => !(mine e.1)), chk := s.chk.filter (fun e => !(mine (16 * e.1))),
           tcBytes := s.tcBytes.filter (fun e => !(mine e.1)), tcDev := s.tcDev.filter (fun e => !(mine (16 * e.1))) }

/-- A row of a firmware fill is in a compressed evict-first line with D = 0, not yet written back (R241, R254). -/
def fillLine (s : State) (g : Nat) : State :=
  match granTower s g with
  | none => s
  | some t =>
    let s := match tcLine (tcOf s t) g with
      | some _ => s
      | none => match allocLine s t g 2 true true with
        | some r => r.2.2
        | none => s
    match tcLine (tcOf s t) g with
    | some l => setLine s t { l with cls := 2, dirty := true, comp := true }
    | none => s

/-- Firmware fills pass the tower caches (R241). They run in parallel, so which of their rows are in lines at the end is open:
any of `mine` (log entry 65). -/
def fillLines (mine : Nat → Bool) (s : State) : State :=
  ((Config.fillLeft s.freeCtr).filter (fun g => decide (1024 * g < spBase) && mine g)).foldl fillLine { s with freeCtr := s.freeCtr + 1 }

/-- Fill the scratchpad of a logical number (R130). -/
def fillScratch (l : Nat) (s : State) : State := zeroFill s (spAddr l 0) (2 ^ 22)

/-- A spare takes a logical number: its domain turns on, its pillar and scratchpad are filled (R36, R79, R367). -/
def takeSpare (l c : Nat) (s : State) : State :=
  let s := modTopo s (fun t => { t with lmap := lset t.lmap l (some c) })
  let s := gateDomain c false s
  let s := fillPillar l (logEv s 0x13 2 1 c 0 0 (l * 2 ^ 16))
  fillScratch l (fillLines (fun g => storeL s (1024 * g) == l) s)

/-- Numbers without a cluster take the lowest spares, in ascending order (R36). -/
def assignSpares (barred : List Nat) (s : State) : State :=
  foldUp (grade s) (fun s l =>
    if (physOf s l).isSome then s
    else match (spares s).find? (fun c => !(barred.contains c)) with
      | some c => takeSpare l c s
      | none => s) s

/-! ### Interleave (R44) -/

/-- The stripe sets of a grade: (first number of the block, log2 of its size, q). -/
def stripeSets (n : Nat) : List (Nat × Nat × Nat) :=
  (List.range n).flatMap (fun l => match stripeBlock n l with
    | some (b, k) => if b == l then (List.range 4).map (fun q => (b, k, q)) else []
    | none => [])

/-- Staged bit of a region. -/
def stagedBit (s : State) (r : Nat) : Bool := tbit (rget s .MEM_ILV_STAGE [r / 64]) (r % 64)

/-- Apply one stripe set: forced sets are counted and logged, regions that change are filled. A set is named by its first
region (log entry 25). -/
def applySet (s : State) (x : Nat × Nat × Nat) : State :=
  let ls := (List.range (2 ^ x.2.1)).map (fun i => x.1 + i)
  let regions := ls.map (fun l => 4 * l + x.2.2)
  let all := regions.all (stagedBit s)
  let any := regions.any (stagedBit s)
  let absent := ls.any (fun l => (physOf s l).isNone)
  let on := all && !absent
  let s := if any && !on then
      logEv (finc s .MEM_ILV_STAT [] Fld.MEM_ILV_STAT_FORCED_SETS 1) 0x20 0 0 0 0 0 (4 * x.1 + x.2.2)
    else s
  regions.foldl (fun s r =>
    if striped s r == on then s
    else
      let w := rget s .MEM_ILV_ACTIVE [r / 64]
      fillLines (fun g => g / 2 ^ 20 == r)
        (zeroFill (rput s .MEM_ILV_ACTIVE [r / 64] (setBits w (r % 64) (r % 64) (b2n on))) (r * 2 ^ 30) (2 ^ 30))) s

/-- Apply the staged interleave after the numbers are assigned. -/
def applyInterleave (s : State) : State :=
  (stripeSets (grade s)).foldl applySet (fset s .MEM_ILV_STAT [] Fld.MEM_ILV_STAT_FORCED_SETS 0)

end Sys2Proof.Machine
end

