-- ==== Sys2Proof/Machine/Islands.lean ====
section
/-! DEFINITION. Clock islands: their classes, domains and places, and the reset bypass that restores them (R20, R387, R388,
R394). -/

namespace Sys2Proof.Machine

def modClk (s : State) (f : Clk → Clk) : State := { s with clk := f s.clk }

def classMhz (s : State) (k : Nat) : Nat := fget s .CLK_CLASS [k] Fld.CLK_CLASS_MHZ

def nIslands : Nat := 2107

/-- Class of an island. -/
def islClass (i : Nat) : Option Nat :=
  if i < 1024 then some 0
  else if i < 2048 then none
  else if i < 2064 then some 1
  else if i < 2084 then some 2
  else if 2103 ≤ i ∧ i < 2106 then some 3 else none

/-- Tower over the router that a Synur port attaches to (R20). -/
def synTower (i : Nat) : Nat := lget 0 [0, 1, 2, 3, 3, 7, 11, 15, 15, 14, 13, 12, 12, 8, 4, 0] i

/-- Tower over the router of a floor-logic island: the collective engine, the KV page manager, the floor merge (R20). -/
def floorTower (i : Nat) : Nat := if i = 2103 then 6 else if i = 2104 then 9 else 10

/-- Domain that powers an island (R362). -/
def islDomain (i : Nat) : Nat :=
  if i < 2048 then i % 1024
  else if i < 2080 then 1024 + i % 16
  else if i < 2084 then 1040 + (i - 2080)
  else if i < 2100 then 1044 + towerQuad (synTower (i - 2084))
  else if i < 2102 then 1048
  else if i = 2106 then 1050 else 1049

def domDark (s : State) (d : Nat) : Bool := fbit s .PWR_DOM_STAT [d] Fld.PWR_DOM_STAT_DARK

/-- Islands of a class that switch: all but those of a dark domain. -/
def islOfClass (s : State) (k : Nat) : List Nat :=
  (List.range nIslands).filter (fun i => islClass i == some k && !(domDark s (islDomain i)))

/-- The changes of a class whose islands have now all switched are answered (R390, R391). -/
def swingDone (k : Nat) (s : State) : State :=
  if s.clk.stuck.any (fun e => islClass e.1 == some k) then s
  else
    let done := s.clk.swing.filter (fun x => x.cls == k)
    done.foldl (fun s x => finish s x.cmd 0 ((islOfClass s k).length * 2 ^ 32 + x.mhz % 65536))
      (modClk s (fun y => { y with swing := y.swing.filter (fun x => x.cls != k) }))

/-- The registers of a cluster return to reset: those from offset `lo` to `hi` of its part of the register space. -/
def cluRegsReset (c lo hi : Nat) (s : State) : State :=
  let b := RegId.CORE_STAT.off (tk c)
  { s with regs := s.regs.filter (fun e => !(decide (b + lo ≤ e.1) && decide (e.1 < b + hi))) }

/-- The logic state of an island is lost as at a compute reset (R394). A port goes down and trains again. The gateways, the mesh,
the management and the always-on island hold nothing in the model that a compute reset clears. -/
def islReset (i : Nat) (s : State) : State :=
  if i < 1024 then { cluRegsReset i 0 0x900 s with clu := tdel i s.clu }
  else if i < 2048 then
    { cluRegsReset (i - 1024) 0x900 0x918 s with
             nb := s.nb.filter (fun e => e.1 / 512 != i - 1024), bucket := tdel (i - 1024) s.bucket,
             nbHeld := s.nbHeld.filter (fun e => e.1 / 512 != i - 1024),
             nbBlock := s.nbBlock.filter (fun y => y.bank / 512 != i - 1024) }
  else if i < 2064 then
    let t := i - 2048
    let s := (tcOf s t).lines.foldl (fun s l => dropLine s t l.gran) s
    { setTc s t { Tc.init with wayEn := (tcOf s t).wayEn } with mrg := tdel t s.mrg }
  else if 2084 ≤ i ∧ i < 2100 then portReset (i - 2084) s
  else if 2100 ≤ i ∧ i < 2102 then (if hostUp s (i - 2100) then linkGone (i - 2100) s else s)
  else if i = 2103 then { s with chans := List.replicate 8 none, groups := [], readies := [], colls := [] }
  else if i = 2104 then kvLose s
  else if i = 2105 then { s with floor := [] } else s

/-- The reset bypass of an island: its clock returns, on the loop in use of its pair, and its logic starts anew (R394). -/
def escape (i : Nat) (s : State) : State :=
  islReset i { s with clk := { s.clk with
    hung := s.clk.hung.filter (fun x => x != i), unlocked := s.clk.unlocked.filter (fun x => x != i),
    stuck := tdel i s.clk.stuck, ranOf := if i < 1024 then tput i s.tick s.clk.ranOf else s.clk.ranOf } }

/-- Islands whose loop lost lock, or whose switch does not complete, pass their reset bypass (R394, R395). -/
def bypassIslands (s : State) : State :=
  let is := (s.clk.stuck.map (fun e => e.1) ++ s.clk.hung ++ s.clk.unlocked).eraseDups
  foldUp 4 (fun s k => swingDone k s) (is.foldl (fun s i => logEv (escape i s) 0x74 7 0 i 0 0 0) s)

end Sys2Proof.Machine
end

