-- ==== Sys2Proof/Machine/Recovery.lean ====
section
/-! DEFINITION. The staged recovery after its start: drain, log, compute reset, re-verify, ready and Held (R338–R347, R439). -/

namespace Sys2Proof.Machine

/-! ### Faults of several jobs -/

/-- A further job of a fault joins the fault set with the recovery's fence. -/
def joinJob (s : State) (j : Nat) : State :=
  if j = 0 || s.rcv.jobs.contains j || !(rcvRunning s || isHeld s) then s
  else
    bcastFence (fenceQueues s.rcv.fence j { s with rcv := { s.rcv with jobs := addJob s.rcv.jobs j } }) j s.rcv.fence

/-- A fault of every job of a list, with one entry: the first job not yet in the fault set raises it. -/
def raiseJobs (s : State) (js : List Nat) (rs : List FaultRes) (rep : Report) : State :=
  let js := js.eraseDups.filter (fun j => j != 0)
  let j := ((js.find? (fun j => !(s.rcv.jobs.contains j))).orElse (fun _ => js.head?)).getD 0
  js.foldl joinJob (raiseFault s j rs { rep with job := j })

/-- Every job with work in flight on the device: commands fetched without a reply, and jobs whose kernels run. -/
def activeJobs (s : State) : List Nat :=
  (s.cmds.map (fun c => queueJob s c.q) ++ (s.jobOf.filter (fun e => match physOf s e.1 with
    | some c => fbit s .CORE_STAT (tk c) Fld.CORE_STAT_RUN
    | none => false)).map (fun e => e.2)).eraseDups.filter (fun j => j != 0)

/-! ### Drain (R271, R139, R171, R215, R338) -/

/-- The drain of one DMA channel: 0x0601 in every STATUS not written, destinations of descriptors in flight undefined, HEAD
set to TAIL (R139). -/
def drainChannel (c ch : Nat) (s : State) : State :=
  let h := dmaHead s c ch
  let n := (dmaTail s c ch + 65536 - h) % 65536
  let s := (dmaCh s c ch).runs.foldl (fun s r => undefBytes (dstBytes r.words (dLen r.words * dRows r.words)) s) s
  let skip := if dmaHalted s c ch then 1 else 0
  let s := (List.range (n - skip)).foldl (fun s i => (writeStatus s c ch ((h + skip + i) % 65536) 0x0601).2) s
  setDma (setHead s c ch (dmaTail s c ch)) c ch ⟨[], dmaTail s c ch⟩

/-- The drain of a near-bank unit: its operation stops at its shortened step with 0x0601 and its OUT is undefined, unless it
has stopped before; its pending commands of the jobs report 0x0601 (R171). -/
def drainUnit (js : List Nat) (b : Nat) (s : State) : State :=
  let mine := fun (c : NbCmd) => js.contains c.job
  let u := nbUnit s b
  let s := match u.pendT with
    | some c => if mine c then nbReport (setUnit s b { u with pendT := none }) b c 0x0601 0 else s
    | none => s
  let u := nbUnit s b
  let s := match u.pendF with
    | some c => if mine c then nbReport (setUnit s b { u with pendF := none }) b c 0x0601 0 else s
    | none => s
  let u := nbUnit s b
  match u.run with
  | some r =>
    if !(mine r.cmd) then s
    else if r.stop.isSome then nbComplete b s
    else
      nbComplete b (nbStop (setUnit (nbShorten s b) b { u with run := some { r with wrote := true } }) b 0x0601 0)
  | none => s

/-- What a command of a job holds is given up: its collective, its copy channel with the STATUS of the descriptors not
executed, its launches and graphs, its attention pass and KV work, and its pending target or clock change whose tick has
not come (R139, R215, R328, R379, R390). -/
def dropWork (s : State) (c : Cmd) : State :=
  let s := match collOf s c.id with | some x => collEnd x 0x0601 0 s | none => s
  let s := match chanOf s c.id with
    | some (i, ch) =>
      let s := (List.range (listLen c - ch.idx)).foldl (fun s j => (listStatus (agentOf s c) c (ch.idx + j) 0x0601 s).2) s
      setChan s i none
    | none => s
  let s := endRun (attDrain c.id s) c.id
  { s with launches := s.launches.filter (fun l => l.cmd != c.id), graphs := s.graphs.filter (fun g => g.cmd != c.id),
           syn := { s.syn with closing := s.syn.closing.filter (fun x => x.2 != c.id) },
           host := { s.host with unmaps := s.host.unmaps.filter (fun x => x.2 != c.id) },
           pwr := { s.pwr with pend := s.pwr.pend.filter (fun x => x.cmd != c.id || decide (x.tick ≤ s.tick)) },
           clk := { s.clk with pend := s.clk.pend.filter (fun x => x.cmd != c.id || decide (x.tick ≤ s.tick)),
                               swing := s.clk.swing.filter (fun x => x.cmd != c.id) } }

/-- The drain of a set of jobs: cores stop by `drained`, channels and units stop, commands report 0x0601 but for those in
which a fault was detected, and replies are posted in ring order (R271, R338). Reductions accepted by the caches are applied
first (R256). -/
def drainJobs (js : List Nat) (s : State) : State :=
  let s := foldUp 16 (fun s t => ((tcOf s t).lines.filter (fun l => !l.staged.isEmpty)).foldl (fun s l => closeBatch s t l) s) s
  let cs := (s.clu.map (fun e => e.1)).filter (fun c => js.contains (jobOfC s c))
  let s := cs.foldl (fun s c => foldUp 16 (fun s ch => drainChannel c ch s) s) s
  let s := (s.nb.map (fun e => e.1)).foldl (fun s b => drainUnit js b s) s
  let fly := s.nbFlight.filter (fun e => js.contains e.2.job)
  let s := fly.foldl (fun s e => nbReport s e.1 e.2 0x0601 0)
    { s with nbFlight := s.nbFlight.filter (fun e => !(js.contains e.2.job)) }
  let mine := s.cmds.filter (fun c => js.contains (queueJob s c.q))
  let s := mine.foldl dropWork s
  let s := { s with cmds := s.cmds.map (fun c =>
    if !(js.contains (queueJob s c.q)) then c
    else match ownFault s c with
      | some st => { c with begun := true, status := some st }
      | none => if c.status == some 0x0602 then c else { c with begun := true, status := some 0x0601, detail := 0 }) }
  foldUp nQueues (fun s q => if js.contains (queueJob s q) && queueJob s q != 0 then postAll q s else s) (collAll s)

/-- The reset fence (R341, R273): every job outside the fault set with a fetched command without a reply is fenced with one
new number, one entry each. -/
def resetFence (s : State) : State :=
  let js := ((s.cmds.map (fun c => queueJob s c.q)).eraseDups).filter (fun j => j != 0 && !(s.rcv.jobs.contains j))
  if js.isEmpty then s
  else
    let nf := nextFence s
    let s := js.foldl (fun s j => fenceQueues nf.1 j (sendRep s { mkRep s 0x16 5 0 0 0 j 0 with fno := nf.1 })) nf.2
    let s := if s.rcv.byCommand then { s with rcv := { s.rcv with fence := nf.1 } } else s
    drainJobs js s

/-- NOMINATED entries of nominations not yet told: those of failed banks (R340). -/
def tellNoms (s : State) : State :=
  (s.ecc.noms.filter (fun n => !n.told)).foldl (fun s n => logEv s 0x10 2 1 n.c 0 0 (n.die * 2 ^ 44 + n.p * 2 ^ 39))
    { s with ecc := { s.ecc with noms := s.ecc.noms.map (fun (n : Nom) => { n with told := true }) } }

/-- Nominate a bank as failed, once (R340). -/
def failedBank (n : Nom) (l : List Nom) : List Nom :=
  let same : Nom → Bool := fun y => y.kind == .bank && y.c == n.c && y.die == n.die && y.p == n.p
  if l.any same then l.map (fun (y : Nom) => if same y then { y with failed := true } else y) else l ++ [n]

/-- Nominations and lane repairs that the actions of a fault set ask for (R340): the bank of an uncorrectable word, the control
lane of a closed pillar. -/
def nominateActs (acts : List FaultRes) (s : State) : State :=
  acts.foldl (fun s x => match x.res with
    | .pillar c =>
      if x.act != .repair || x.part = 0 then s
      else if 1024 ≤ x.part then modTopo s (fun t => { t with badCtl := (t.badCtl ++ [64 * c + x.part % 64]).eraseDups })
      else
        { s with ecc := { s.ecc with noms := failedBank ⟨.bank, c, (x.part - 1) / 32, (x.part - 1) % 32, 0, true, false⟩ s.ecc.noms } }
    | _ => s) s

/-- The drain ends; the log stage fixes the actions; the compute reset stage begins (R338, R340, R341). -/
def drainComplete (s : State) : State :=
  if s.rcv.stage ≠ 2 then s
  else
    let s := drainJobs s.rcv.jobs s
    let s := logStage { s with rcv := { s.rcv with stage := 3 } }
    let s := tellNoms (nominateActs (s.rcv.res ++ s.rcv.taken ++ s.rcv.later) (fillRest s))
    let s := { s with rcv := { s.rcv with res := s.rcv.res.map (fun (x : FaultRes) => { x with fixed := true }) } }
    let s := logStage { s with rcv := { s.rcv with stage := 4, taken := s.rcv.later.foldl addRes s.rcv.taken, later := [], noSpare := [] },
                               ready := false }
    resetFence (anyClock s)

/-- Resource and CAUSE of a unit (UNIT_PARITY numbering): a cluster's, or a floor unit. -/
def unitRes (c : Option Nat) (unit : Nat) : FaultRes :=
  match c with
  | some c => ⟨.cluster c, .reverify, false, 1, 0⟩
  | none => ⟨.floor unit, .reverify, false, 1, 0⟩

/-- A unit of a job in the fault set has not stopped (R339). -/
def drainTimeout (c : Option Nat) (unit : Nat) (s : State) : State :=
  if s.rcv.stage ≠ 2 then s
  else
    let j := match c with
      | some c => if s.rcv.jobs.contains (jobOfC s c) then jobOfC s c else 0
      | none => s.rcv.jobs.headD 0
    if j = 0 then s
    else
      let s := match c with
        | some c => { s with rcv := { s.rcv with undrained := c :: s.rcv.undrained.filter (fun x => x != c) } }
        | none => s
      raiseFault s j [unitRes c unit] (mkRep s 0x17 4 (if c.isSome then 1 else 0) (c.getD 0) 0 j (unit % 256))

/-- Opcodes whose commands a floor unit runs: KV page manager, collective engine, floor merge and merge units. -/
def unitOpcode (unit opc : Nat) : Bool :=
  if unit = 16 then decide (0x30 ≤ opc ∧ opc ≤ 0x45)
  else if unit = 17 then opc == 0x60 || opc == 0x61 || decide (0x70 ≤ opc ∧ opc ≤ 0x78)
  else opc == 0x38

/-- A parity error in a unit's control state (R334, R335, R340). -/
def unitParity (c : Option Nat) (unit : Nat) (s : State) : State :=
  match c with
  | some c =>
    let j := jobOfC s c
    raiseFault s j [unitRes (some c) unit] (mkRep s 0x06 3 1 c 0 j (unit % 256))
  | none =>
    let js := (s.cmds.filter (fun c => unitOpcode unit c.opc && c.begun && c.status.isNone)).map (fun c => queueJob s c.q)
    raiseJobs s js [unitRes none unit] (mkRep s 0x06 3 0 0 0 0 (unit % 256))

/-! ### Compute reset (R439) -/

/-- The cluster whose mapping out an action asks for, with its CAUSE. -/
def mapTarget (x : FaultRes) : Option (Nat × Nat) :=
  if x.act != .mapOut then none
  else match x.res with
    | .cluster c => some (c, x.cause)
    | .pillar c => some (c, x.cause)
    | .domain d => if d < 1024 then some (d, 3) else none
    | _ => none

/-- Lanes for repair (R77, R349, R350): those nominated, the control lanes of pillars closed by a fault, lanes that failed in service, and those that the
shaft's training finds failed (`failed`, R439). -/
def lanesDue (failed : List (Nat × Nat)) (s : State) : List (Nat × Nat) :=
  ((s.ecc.noms.filter (fun (n : Nom) => n.kind == NomKind.dataLane || n.kind == NomKind.checkLane)).map (fun (n : Nom) =>
    (n.c, if n.kind == NomKind.dataLane then n.lane else 512 + n.lane)) ++ s.topo.badCtl.map (fun x => (x / 64, 512 + x % 64))
    ++ s.topo.deadLanes.map (fun x => (x / 1024, x % 1024)) ++ failed).eraseDups

/-- Steps 5 and 6: lanes, then banks. Clusters about to be mapped out get no repair. DESIGN CHOICE (log entry 150): half width
and a pillar going offline clear the entries of a lane as its repair does, but not those of a bank (R73). -/
def repairAll (acts : List FaultRes) (failed : List (Nat × Nat)) (s : State) : State :=
  let doomed := acts.filterMap mapTarget |>.map (fun x => x.1)
  let ok := fun (c : Nat) => !(doomed.contains c)
  let lanes := (lanesDue failed s).filter (fun x => ok x.1)
  let s := laneRepairs 2 true lanes s
  let s := lanes.foldl (fun s x => tblClear (x.1 / 64) (fun k l _ _ ln => l == x.1 % 64
    && (if x.2 < 512 then k == 1 && ln == x.2 else k == 2 && ln == x.2 - 512)) s) s
  let banks := s.ecc.noms.filter (fun n => n.kind == .bank && ok n.c)
  let r := banks.foldl (fun (acc : List Nom × State) n =>
    let q := bankRepair n acc.2
    (if q.1 then acc.1 ++ [n] else acc.1, q.2)) ([], s)
  let ways := (s.ecc.noms.filter (fun n => n.kind == .way)).map (fun n => (n.c, n.lane)) ++ acts.filterMap (fun x => match x.res, x.act with
    | .way _ _, .none => none
    | .way t w, _ => some (t, w)
    | _, _ => none)
  let s := ways.foldl (fun s x => wayOff true x.1 x.2 s) r.2
  modTopo { s with ecc := { s.ecc with noms := r.1 } } (fun t => { t with badCtl := [], deadLanes := [] })

/-- Step 7: mapping out, numbers, spares and interleave. -/
def renumber (acts : List FaultRes) (s : State) : State :=
  let s := (acts.filterMap mapTarget).foldl (fun s x => takeOut 2 x.1 x.2 s) s
  applyInterleave (assignSpares s.rcv.noSpare s)

/-- The pool is rebuilt; each bank left out, now or again, is named by its first address (R180, log entry 25). -/
def rebuildPool (s : State) : State :=
  let new := poolOf s
  let gone := ((s.kv.pool.map (fun b => b.1)) ++ s.kv.lost).eraseDups.filter (fun a => !(new.any (fun x => x.1 == a)))
  gone.foldl (fun s a => logEv s 0x20 0 8 0 0 0 (2 ^ 48 + a)) (modKv s (fun k => { k with pool := new, lost := gone }))

/-- Every window is closed; generations are kept (R308). -/
def closeWindows (s : State) : State :=
  let s := s.syn.wins.foldl (fun s w => fset s .WIN_IN_A [w.1] Fld.WIN_IN_A_STATE 0) s
  { s with syn := { s.syn with wins := [], bursts := [], closing := [], tagWait := [], sent := s.syn.sent.map (fun (y : Sent) => { y with who := Waiter.none, next := none }) },
           host := { s.host with reqs := s.host.reqs.map (fun (y : HostReq) => { y with who := Waiter.none }) } }

/-- An island not calibrated at the class frequency returns to its baseline (R401). -/
def trimBaseline (s : State) : State :=
  foldUp 1024 (fun s i =>
    if fget s .CLK_ISL_STAT [i] Fld.CLK_ISL_STAT_TRIM = 0 || (tget [] s.clk.cal i).contains (classMhz s 0) then s
    else fset s .CLK_ISL_STAT [i] Fld.CLK_ISL_STAT_TRIM 0) s

/-- A class runs at a frequency: each of its islands on the other loop of its pair (R391). -/
def classSwitch (k mhz : Nat) (s : State) : State :=
  let ab := 1 - lget 0 s.clk.src k % 2
  let n := pllOf mhz
  let x := tget (0, 0, 0) s.clk.loops (2 * k + ab)
  let at_ := if x.1 = n.1 ∧ x.2.1 = n.2 then x.2.2 else s.tick
  let s := modClk s (fun y => { y with
    src := lset y.src k ab, loops := tput (2 * k + ab) (n.1, n.2, at_) y.loops, ranAt := if k = 0 then s.tick else y.ranAt })
  let s := fset s .CLK_CLASS [k] Fld.CLK_CLASS_MHZ mhz
  if k = 0 then trimBaseline s else s

/-- FMAX over the clusters logical or spare; a lower one is set at once (R388). -/
def newFmax (s : State) : State :=
  let f := ((List.range 1024).filter (fun c => !(isOut s c))).foldl (fun m c => min m (Config.fusedFmax c)) 2000
  let s := fset s .CLK_CLASS [0] Fld.CLK_CLASS_FMAX f
  if f < classMhz s 0 then classSwitch 0 f s else s

/-- The shares of HP_HDM_SHARE in force from here on (R315). -/
def latchShare (s : State) : State :=
  { s with host := { s.host with share := (List.range 4096).filter (fun r => tbit (rget s .HP_HDM_SHARE [r / 64]) (r % 64)) } }

/-- The compute domain returns to reset: registers, cores, units, launches, groups, collectives and accesses held. A row refresh
that runs or is due is carried out as the pillars enter self-refresh (R63, R439). -/
def computeClear (s : State) : State :=
  let refr : Tbl Refr := s.refr.map (fun e => (e.1, ⟨(e.2.row + b2n e.2.due + b2n e.2.busy) % 8192, false, false, false⟩))
  let s := kvClear { s with nb := [], refr := refr }
  let s := regsReset (fun r => r.desc.domain == .compute) s
  { s with clu := [], nbFlight := [], nbOut := [], nbHeld := [], bucket := [], jobOf := [], launches := [],
           graphs := [], chans := List.replicate 8 none, groups := [], readies := [], colls := [],
           nbBlock := [], ecc := { s.ecc with cmdTries := [] } }

/-- The tests that re-verify runs after a compute reset from `s` to `u` (R342): clusters newly taken from the spares, pillars
given a lane or bank repair, resources marked for re-verify, and regulator domains in the fault set. A cluster that is out of
service has none (log entry 128). -/
def verifyTests (acts : List FaultRes) (failed : List (Nat × Nat)) (s u : State) : List (Nat × Nat) :=
  let taken := (u.topo.lmap.zip s.topo.lmap).filterMap (fun p => if p.1 == p.2 then none else p.1)
  let fixed := (s.ecc.noms.filter (fun n => n.kind == .bank && !(u.ecc.noms.contains n))).map (fun n => n.c)
    ++ (lanesDue failed s).map (fun x => x.1)
  let marked : List (Nat × Nat) := acts.filterMap (fun x => match x.res, x.act with
    | .domain d, _ => some (4, d)
    | .cluster c, .reverify => some (if x.cause = 4 then 1 else 2, c)
    | .pillar c, .reverify => some (3, c)
    | .floor k, .reverify => some (5, k)
    | .floor k, .mapOut => some (5, k)
    | _, _ => none)
  (taken.flatMap (fun c => [(1, c), (2, c), (3, c)]) ++ fixed.map (fun c => (3, c)) ++ marked).eraseDups.filter
    (fun x => x.1 == 5 || decide (1024 ≤ x.2) || !(isOut u x.2))

/-- The compute reset stage, all steps of R439. `hostLost` are tracked lines whose answer does not come, `failed` the shaft
lanes (cluster, lane) found failed (R77, R349). -/
def computeResetStage (hostLost : List Nat) (failed : List (Nat × Nat)) (s : State) : State :=
  if s.rcv.stage ≠ 4 then s
  else
    let acts := s.rcv.res ++ s.rcv.taken
    let s0 := s
    let s := cachesClear (resolveAll hostLost s)
    let s := bypassIslands s
    let s := repairAll acts failed s
    let s := newFmax (renumber acts s)
    let s := foldUp 16 (fun s t => setTc s t { tcOf s t with wayEn := fget s .TC_WAY_EN [t] Fld.TC_WAY_EN_EN }) s
    let s := rebuildPool (closeWindows (computeClear s))
    let s := latchShare (modTopo s (fun t => { t with dark := [], closed := [] }))
    let s := buildSett s
    let new := (verifyTests acts failed s0 s).filter (fun x => !(s.rcv.tests.contains x))
    logStage { s with rcv := { s.rcv with stage := 5, taken := [], undrained := [], tests := s.rcv.tests ++ new } }

/-! ### Re-verify and ready (R342) -/

/-- CAUSE of the mapping out that a failing test asks for; an address walk has `unit` 0 for the shaft. -/
def verifyCause (f : VerifyFail) : Nat :=
  match f.kind with
  | 1 => 4
  | 3 => if f.unit = 0 then 2 else 5
  | 4 => 3
  | _ => 1

/-- Resource and action of a failing test (R342). DESIGN CHOICE (log entry 128): a floor unit takes the action too, though no map
holds it, so that mapping it out changes nothing. -/
def verifyRes (f : VerifyFail) : FaultRes :=
  if f.kind = 4 then ⟨.domain f.c, .mapOut, false, 3, 0⟩
  else if f.kind = 2 ∧ 16 ≤ f.unit then ⟨.floor f.unit, .mapOut, false, 1, 0⟩
  else if f.kind = 3 then ⟨.pillar f.c, .mapOut, false, verifyCause f, 0⟩
  else ⟨.cluster f.c, .mapOut, false, verifyCause f, 0⟩

/-- Its report. -/
def verifyRep (s : State) (f : VerifyFail) : Report :=
  let floor := decide (f.kind = 2 ∧ 16 ≤ f.unit)
  mkRep s 0x19 4 (if f.kind = 4 then 2 else if floor then 0 else 1) (if floor then 0 else f.c) 0 0
    (f.kind * 2 ^ 48 + verifyCause f * 2 ^ 40 + (if f.kind = 2 then f.unit % 256 else 0))

/-- Answer the COMPUTE_RESET and HELD_RELEASE commands that wait. -/
def answerWaiters (st : Nat) (s : State) : State :=
  s.rcv.waiters.foldl (fun s id => match cmdOf s id with
    | some c => finishPost s c st 0
    | none => s) { s with rcv := { s.rcv with waiters := [] } }

/-- The ready stage (R338). -/
def becomeReady (s : State) : State :=
  let s := logStage { s with rcv := { s.rcv with stage := 6, tests := [], acked := fget s .QD_STAT [] Fld.QD_STAT_FENCE_LAST }, ready := true,
                             boot := { s.boot with frrOpen := 0 } }
  answerWaiters 0 (finc s .LOG_RCV_CNT [] Fld.LOG_RCV_CNT_RECOVERIES 1)

/-- Whether re-verify runs a test: the check of the map copies always, the others by their list (R342). -/
def isTested (s : State) (f : VerifyFail) : Bool :=
  f.kind == 0 || decide (f.kind < 5) && s.rcv.tests.contains (if f.kind = 2 ∧ 16 ≤ f.unit then (5, f.unit) else (f.kind, f.c))

/-- Re-verify: `fails` are the failing tests; one it does not run cannot fail. Each is a new fault (R342): the first restarts the
recovery, and those after it meet the recovery at its fence stage (R344); with none the device is ready. A dark domain that feeds no cluster fails its phase current check every time (R342, R365). -/
def reverify (fails : List VerifyFail) (s : State) : State :=
  if s.rcv.stage ≠ 5 then s
  else
    let dark : List VerifyFail := ((List.range 27).filter (fun i => fbit s .PWR_DOM_STAT [1024 + i] Fld.PWR_DOM_STAT_DARK)).map
      (fun i => ⟨4, 1024 + i, 0⟩)
    match fails.filter (isTested s) ++ dark with
    | [] => becomeReady s
    | f :: rest =>
      (f :: rest).foldl (fun s g => raiseFault s 0 [verifyRes g] (verifyRep s g) (verify := true)) s

/-! ### COMPUTE_RESET and HELD_RELEASE (R345–R347) -/

/-- Start a recovery with a set, without a fault: begun by a command with no recovery running it has no fence number until that of
the reset fence (R341, R347). -/
def startRcv (jobs : List Nat) (res : List FaultRes) (byCommand : Bool) (id : Nat) (s : State) : State :=
  let s := fset (if isHeld s then heldMark id s else s) .QD_STAT [] Fld.QD_STAT_HELD 0
  beginStages { s with rcv := { s.rcv with stage := 1, jobs := jobs, res := res.map (fun (x : FaultRes) => { x with fixed := false }),
                                           restarts := 0, faults := 0, culprits := [], undrained := [], tests := [],
                                           waiters := s.rcv.waiters ++ [id], byCommand := byCommand,
                                           fence := if byCommand then 0 else s.rcv.fence } }

/-- COMPUTE_RESET. -/
def computeReset (c : Cmd) (s : State) : State :=
  if isHeld s then startRcv s.rcv.jobs s.rcv.res false c.id s
  else if rcvRunning s then { s with rcv := { s.rcv with waiters := s.rcv.waiters ++ [c.id] } }
  else startRcv [] [] true c.id s

/-- HELD_RELEASE: as COMPUTE_RESET, with every culprit mapped out. -/
def heldRelease (c : Cmd) (s : State) : State :=
  if isHeld s then
    let res := s.rcv.res.map (fun (x : FaultRes) => if s.rcv.culprits.contains x.res then { x with act := .mapOut } else x)
    startRcv s.rcv.jobs res false c.id s
  else computeReset c s

def execDrainComplete (s : State) : Res3 := s.run drainComplete
def execDrainTimeout (c : Option (Fin 1024)) (unit : Nat) (s : State) : Res3 := s.run (drainTimeout (c.map Fin.val) unit)
def execUnitParity (c : Option (Fin 1024)) (unit : Nat) (s : State) : Res3 := s.run (unitParity (c.map Fin.val) unit)
def execComputeResetStage (hostLost : List Nat) (failed : List (Nat × Nat)) (s : State) : Res3 :=
  s.run (computeResetStage hostLost failed)
def execReverify (fails : List VerifyFail) (s : State) : Res3 := s.run (reverify fails)
def execComputeReset (k : Nat) (s : State) : Res3 := s.run (cmdStart k 0xA0 computeReset)
def execHeldRelease (k : Nat) (s : State) : Res3 := s.run (cmdStart k 0xA1 heldRelease)

end Sys2Proof.Machine
end

