-- ==== Sys2Proof/Machine/Log.lean ====
section
/-! DEFINITION. The event and fault log (R351–R358, R471), its commands and the snapshots' shared write. -/

namespace Sys2Proof.Machine

def logSize : Nat := 8192
def nextSeq (s : State) : Nat := fget s .LOG_STAT [] Fld.LOG_STAT_NEXT_SEQ
def oldestSeq (s : State) : Nat := fget s .LOG_STAT [] Fld.LOG_STAT_OLDEST_SEQ

/-- The four words of an entry (R352). `head` is the fault's own entry, not a continuation. -/
def entryWords4 (r : Report) (seq ev detail : Nat) (head : Bool) : List Word :=
  [BitVec.ofNat 64 r.tick,
   BitVec.ofNat 64 (seq * 2 ^ 32 + ev % 256 * 2 ^ 24 + r.cls % 16 * 2 ^ 20 + r.kind % 16 * 2 ^ 16 + r.status % 65536),
   BitVec.ofNat 64 (r.job % 65536 * 2 ^ 48 + r.tenant % 256 * 2 ^ 40 + b2n (r.job != 0) * 2 ^ 39 + b2n (r.merged && head) * 2 ^ 38
     + b2n (r.restart && head) * 2 ^ 37 + b2n (r.fence && head) * 2 ^ 36 + r.fno % 2 ^ 32),
   BitVec.ofNat 64 (r.idx % 4096 * 2 ^ 52 + detail % 2 ^ 52)]

/-- Signal an entry: its interrupt and its alert (R358). -/
def entrySignal (cls : Nat) (s : State) : State :=
  let p := fget s .LOG_CFG [] Fld.LOG_CFG_PORT
  let s := if tbit (fget s .LOG_CFG [] Fld.LOG_CFG_IRQ_MASK) cls && portRole s p == 1 then
      emit s (.msix p (fget s .LOG_CFG [] Fld.LOG_CFG_VEC)) else s
  if tbit (fget s .LOG_CFG [] Fld.LOG_CFG_ALERT_MASK) cls then
    emit { s with boot := { s.boot with alert := true } } (.pin "ALERT_N" 0)
  else s

/-- Give the next sequence number to an entry and place it; the oldest entry is overwritten when the ring is full (R351). -/
def placeEntry (r : Report) (ev detail : Nat) (head : Bool) (s : State) : State :=
  let q := nextSeq s
  let slot := q % logSize
  let full := (tfind s.log.slots slot).isSome
  let s := { s with log := { s.log with slots := tput slot (entryWords4 r q ev detail head) s.log.slots } }
  let s := fset s .LOG_STAT [] Fld.LOG_STAT_NEXT_SEQ (q + 1)
  let s := if full then
      fset (finc s .LOG_LOST [] Fld.LOG_LOST_COUNT 1) .LOG_STAT [] Fld.LOG_STAT_OLDEST_SEQ (oldestSeq s + 1)
    else s
  entrySignal r.cls s

/-- Whether report `a` is ordered before `b`: by (TICK, SRCKIND, SRCIDX), and one made before a join step of the tick before
one made after it (R353). -/
def repBefore (a b : Report) : Bool :=
  if a.steps ≠ b.steps then decide (b.steps < a.steps)
  else decide (a.tick < b.tick) || (a.tick == b.tick && (decide (a.kind < b.kind) || (a.kind == b.kind && decide (a.idx < b.idx))))

/-- Whether the log has held a report for 2 µs, a join step of the tick apart (R353). -/
def heldLong (s : State) (r : Report) : Bool := decide ((r.tick : Int) + r.shift + 2000 ≤ s.tick)

/-- The waiting report that comes first, the earliest arrived among equals. -/
def firstRep : List Report → Option Report
  | [] => none
  | r :: rest => some (rest.foldl (fun m x => if repBefore x m then x else m) r)

/-- The first waiting report and its continuation entries receive their sequence numbers, once the log has held it for 2 µs
(R353). -/
def sequenceAssign (s : State) : State :=
  match firstRep s.log.waiting with
  | none => s
  | some r =>
    if !(heldLong s r) then s
    else
    let s := { s with log := { s.log with waiting := s.log.waiting.erase r,
                                          traps := s.log.traps ++ (r.more.zipIdx.filter (fun m => decide (m.1.1 % 256 = 2 ∧ 256 ≤ m.1.1))).map
                                            (fun m => (m.1.1 / 256 - 1, r.status, m.1.2 / 2 ^ 48, (nextSeq s + 1 + m.2) % 2 ^ 32)) } }
    r.more.foldl (fun s m => placeEntry r m.1 m.2 false s) (placeEntry r r.ev r.detail true s)

/-- Clear the log (R356). -/
def logClear (s : State) : State :=
  fset { s with log := { s.log with slots := [], traps := [] } } .LOG_STAT [] Fld.LOG_STAT_OLDEST_SEQ (nextSeq s)

/-- A CE summary per tower with corrections in the period (R357). -/
def ceSummary (s : State) : State :=
  if fget s .LOG_CFG [] Fld.LOG_CFG_CE_PERIOD = 0 then s
  else
    let s' := s.ecc.perTower.foldl (fun s e =>
      if e.2 = 0 then s
      else
        let valid := ((List.range 32).filter (fun i => tbit (rget s .ECC_TBL (tblIx e.1 i)) 63)).length
        logEv s 0x14 1 3 e.1 0 0 (valid * 2 ^ 40 + min (2 ^ 32 - 1) e.2)) s
    { s' with ecc := { s'.ecc with perTower := [] } }

/-- Whether a held entry is reached from the Tenant side (R355, R452). -/
def tenantReaches (s : State) (ws : List Word) : Bool :=
  let w := (lget 0 ws 2).toNat
  fbit s .LCS_TENANT [] Fld.LCS_TENANT_LOG && tbit w 39 && bits w 47 40 == s.tenant

/-- Where LOG_READ starts, or none when FIRST lies at or after NEXT_SEQ (R471). -/
def readStart (s : State) (first : Nat) : Option Nat :=
  let o := oldestSeq s
  let h := (nextSeq s + 2 ^ 32 - o) % 2 ^ 32
  let d := (first + 2 ^ 32 - o) % 2 ^ 32
  let back := (o + 2 ^ 32 - first) % 2 ^ 32
  if d < h then some first else if 1 ≤ back ∧ back ≤ 2 ^ 31 then some o else none

/-- Copy records: (status, next sequence number, records copied). -/
def copyRecords (c : Cmd) (tenant : Bool) : Nat → Nat → Nat → State → Nat × Nat × Nat × State
  | 0, q, n, s => (0, q, n, s)
  | fuel + 1, q, n, s =>
    if q == nextSeq s || par c 12 2 ≤ n then (0, q, n, s)
    else match tfind s.log.slots (q % logSize) with
      | none => copyRecords c tenant fuel ((q + 1) % 2 ^ 32) n s
      | some ws =>
        if tenant && !(tenantReaches s ws) then copyRecords c tenant fuel ((q + 1) % 2 ^ 32) n s
        else
          let w := accWrite s (agentOf s c) (par c 0 8 + 32 * n) (ws.flatMap (fun x => leBytes 8 x.toNat))
          if w.1 != 0 then (w.1, q, n, w.2) else copyRecords c tenant fuel ((q + 1) % 2 ^ 32) (n + 1) w.2

/-- LOG_READ (R471): its whole buffer is checked first (R39). -/
def logRead (c : Cmd) (s : State) : State :=
  if !(mapped s (par c 0 8) (32 * par c 12 2)) then finishPost s c 0x0301 0
  else match readStart s (par c 8 4) with
  | none => finishPost s c 0 (nextSeq s * 2 ^ 32)
  | some q =>
    let r := copyRecords c (qTenant s c.q) logSize q 0 s
    finishPost r.2.2.2 c r.1 (r.2.1 * 2 ^ 32 + r.2.2.1)

/-- LOG_CLEAR. -/
def logClearCmd (c : Cmd) (s : State) : State := finishPost (logClear s) c 0 0

def execLogSequenceAssign (s : State) : Res3 := s.runAny sequenceAssign
def execCeSummaryPeriod (s : State) : Res3 := s.run ceSummary
def execLogRead (k : Nat) (s : State) : Res3 := s.run (cmdStart k 0x90 logRead)
def execLogClear (k : Nat) (s : State) : Res3 := s.run (cmdStart k 0x92 logClearCmd)

end Sys2Proof.Machine
end

