-- ==== Sys2Proof/Machine/Power.lean ====
section
/-! DEFINITION. Power delivery and the Heord governor (R359–R386). Powers are in mW and energies in nJ where a name does not
say otherwise. -/

namespace Sys2Proof.Machine

def modPwr (s : State) (f : Pwr → Pwr) : State := { s with pwr := f s.pwr }

/-! ### Settings and bounds -/

def ceilingMw (s : State) : Nat := 1000 * fget s .PWR_CEILING [] Fld.PWR_CEILING_WATTS

/-- Base slopes: raised to 50, cut to the ceiling of the slope (HRD_SLOPE_UP, HRD_SLOPE_DN). -/
def baseUp (s : State) : Nat :=
  min (max 50 (fget s .HRD_SLOPE_UP [] Fld.HRD_SLOPE_UP_RATE)) (fget s .HRD_SLOPE_CEIL [] Fld.HRD_SLOPE_CEIL_UP_CEIL)
def baseDn (s : State) : Nat :=
  min (max 50 (fget s .HRD_SLOPE_DN [] Fld.HRD_SLOPE_DN_RATE)) (fget s .HRD_SLOPE_CEIL [] Fld.HRD_SLOPE_CEIL_DN_CEIL)

/-- The slope asked for: a target's own, or the base (R371, R378). -/
def askedUp (s : State) : Nat := match s.pwr.tgt with | some t => if t.up = 0 then baseUp s else t.up | none => baseUp s
def askedDn (s : State) : Nat := match s.pwr.tgt with | some t => if t.dn = 0 then baseDn s else t.dn | none => baseDn s

/-- A slope above the base is had only by credit while a coordinator is designated (R381). -/
def withCredit (s : State) (asked base grantW : Nat) : Nat :=
  if fbit s .HRD_COORD [] Fld.HRD_COORD_V && decide (base < asked) then min asked (base + 100 * grantW) else asked

def upEff (s : State) : Nat := withCredit s (askedUp s) (baseUp s) (fget s .HRD_GRANT [] Fld.HRD_GRANT_UP)
def dnEff (s : State) : Nat := withCredit s (askedDn s) (baseDn s) (fget s .HRD_GRANT [] Fld.HRD_GRANT_DN)

def floorMw (s : State) : Nat := min (1000 * fget s .HRD_BALLAST [] Fld.HRD_BALLAST_FLOOR) (ceilingMw s)
def holdMs (s : State) : Nat := min 60000 (fget s .HRD_BALLAST [] Fld.HRD_BALLAST_HOLD)

/-- Sum of the first `n` milliseconds of a measured history. -/
def histSum : List (Nat × Nat) → Nat → Nat
  | [], _ => 0
  | h :: r, n => if n ≤ h.2 then h.1 * n else h.1 * h.2 + histSum r (n - h.2)

/-- The first `n` milliseconds of a history. -/
def histTake : List (Nat × Nat) → Nat → List (Nat × Nat)
  | [], _ => []
  | h :: r, n => if n = 0 then [] else if n ≤ h.2 then [(h.1, n)] else h :: histTake r (n - h.2)

/-- A millisecond enters the history. -/
def histPush (v : Nat) (h : List (Nat × Nat)) : List (Nat × Nat) :=
  match h with
  | (x, n) :: r => if x = v then histTake ((x, n + 1) :: r) 60000 else histTake ((v, 1) :: h) 60000
  | [] => [(v, 60000)]

/-- Length of an average window and its limit (R374). -/
def winLen (w : Nat) : Nat := match w with | 0 => 1000 | 1 => 10000 | _ => 60000
def winLimit (s : State) (w : Nat) : Nat :=
  let l := match w with
    | 0 => fget s .HRD_AVG [] Fld.HRD_AVG_L1
    | 1 => fget s .HRD_AVG [] Fld.HRD_AVG_L10
    | _ => fget s .HRD_AVG [] Fld.HRD_AVG_L60
  if l = 0 then ceilingMw s else 1000 * l

/-- Whether a window's limit bounds the envelope (R374): A + (e − L)² ÷ (2 × dn × N) ≥ L, free of fractions. -/
def winBinds (s : State) (w : Nat) : Bool :=
  let l := winLimit s w
  let e := s.pwr.env
  let k := 2 * dnEff s
  decide (l < e) && decide (l * winLen w * k ≤ histSum s.pwr.hist (winLen w) * k + (e - l) * (e - l))

def winBound (s : State) (w : Nat) : Nat := if winBinds s w then winLimit s w else ceilingMw s

def hiSoft (s : State) : Nat := min (ceilingMw s) (min (winBound s 0) (min (winBound s 1) (winBound s 2)))

/-- The three hard bounds (R359, R360, R417): input current at a VIN in 10 mV, converters, heat. -/
def inputBound (vin : Nat) : Nat := 700 * vin
def ibcBound (s : State) : Nat := 400000 * popCount 8 (fget s .PWR_REF [] Fld.PWR_REF_IBC_GOOD)
def heatBound (s : State) : Option Nat :=
  let l := fget s .THM_STAT [] Fld.THM_STAT_LIMIT
  if l = 0xFFFF then none else some (1000 * l)

/-- The lowest hard bound and its code in SLOPE_OVERRIDE. -/
def hiHard (s : State) (vin : Nat) : Nat × Nat :=
  let a := inputBound vin
  let b := ibcBound s
  let m : Nat × Nat := if a ≤ b then (a, 0) else (b, 1)
  match heatBound s with
  | some h => if h < m.1 then (h, 2) else m
  | none => m

/-! ### The envelope within a millisecond -/

/-- The envelope after `us` microseconds: linear from `prev` to `env` (R370). -/
def envNow (s : State) : Nat :=
  let u := min 1000 s.pwr.us
  (s.pwr.prev * (1000 - u) + s.pwr.env * u) / 1000

/-- The registers that show the governor. -/
def showGov (s : State) : State :=
  let s := fset s .HRD_STAT [] Fld.HRD_STAT_ENV (envNow s / 1000)
  let s := fset s .HRD_STAT [] Fld.HRD_STAT_TARGET (match s.pwr.tgt with | some t => t.watts | none => 0)
  fset s .HRD_STAT [] Fld.HRD_STAT_DEMAND (s.pwr.demand / 1000)

/-! ### Targets (R378) -/

/-- A reply value: the envelope in W in [63:32]. -/
def envDetail (s : State) : Nat := envNow s / 1000 % 2 ^ 32 * 2 ^ 32

/-- Whether the envelope is more than 100 ms behind the time it would have taken at the requested slopes, for want of credit:
the milliseconds lost on rises and on falls together (R378). -/
def behind (s : State) : Bool :=
  decide (100 * askedUp s * askedDn s < s.pwr.lagUp * askedDn s + s.pwr.lagDn * askedUp s)

/-- The target in force completes when the envelope comes within 2 % of it, or falls more than 100 ms behind for want of
credit. -/
def judgeTarget (s : State) : State :=
  match s.pwr.tgt with
  | none => s
  | some t =>
    if s.pwr.done then s
    else
      let w := 1000 * t.watts
      let d := (envNow s - w) + (w - envNow s)
      if 50 * d ≤ w then finish (modPwr s (fun p => { p with done := true })) t.cmd 0 (envDetail s)
      else if behind s then
        finish (modPwr s (fun p => { p with done := true })) t.cmd 0x0503 (envDetail s)
      else s

/-! ### Reasons in force (R385) -/

/-- The active reasons: those of the last boundary, and RESET while a compute reset stage runs. -/
def activeMask (s : State) : Nat := setBits (fget s .HRD_REASON [] Fld.HRD_REASON_ACTIVE) 15 15 (b2n (s.rcv.stage == 4))

/-- Count microseconds for the active reasons. -/
def countReasons (us : Nat) (s : State) : State :=
  let m := activeMask s
  if m = 0 then fincWrap s .HRD_THR_TIME [0] Fld.HRD_THR_TIME_US us
  else (List.range 16).foldl (fun s i => if tbit m i then fincWrap s .HRD_THR_TIME [i] Fld.HRD_THR_TIME_US us else s) s

/-- The microseconds of the millisecond that the tick says are over are counted, and the envelope moves with them. -/
def catchUp (s : State) : State :=
  let d := min 1000 ((s.tick - lget 0 s.pwr.snap 0) / 1000) - s.pwr.us
  if d = 0 then s else countReasons d (modPwr s (fun p => { p with us := p.us + d }))

/-- The binding throttle reason: the lowest bound, the lower code on a tie; CREDIT in place of SLOPE_UP when the envelope
rises at less than the requested slope. -/
def bindThr (s : State) (rs : List (Nat × Option Nat)) : Nat :=
  let slow := decide (upEff s < askedUp s)
  let thr := rs.filter (fun r => decide (r.1 ≤ 10) && !(r.1 == 1 && slow))
  let key : Nat × Option Nat → Nat := fun r => match r.2 with | some b => b | none => 2 ^ 64
  match thr with
  | [] => 0
  | r :: rest => (rest.foldl (fun m x => if key x < key m then x else m) r).1

/-- The reasons that a target in force gives at a demand: TARGET and TARGET_LOW. -/
def targetWhy (tgt : Option Target) (demand : Nat) : List (Nat × Option Nat) × List (Nat × Option Nat) :=
  match tgt with
  | none => ([], [])
  | some t => (if 1000 * t.watts < demand then [(2, some (1000 * t.watts))] else [],
               if demand < 1000 * t.watts then [(14, none)] else [])

/-- Show the active reasons and the binding throttle reason. -/
def showWhy (rs : List (Nat × Option Nat)) (s : State) : State :=
  let s := fset s .HRD_REASON [] Fld.HRD_REASON_ACTIVE (rs.foldl (fun n r => n + 2 ^ r.1) 0)
  modPwr (fset s .HRD_REASON [] Fld.HRD_REASON_BIND_THR (bindThr s rs)) (fun p => { p with why := rs })

/-- TARGET and TARGET_LOW follow the target in force at once. -/
def targetReasons (s : State) : State :=
  let w := targetWhy s.pwr.tgt s.pwr.demand
  let old := s.pwr.why.filter (fun r => r.1 != 2 && r.1 != 14)
  showWhy (old.filter (fun r => decide (r.1 < 2)) ++ w.1 ++ old.filter (fun r => decide (2 < r.1)) ++ w.2) s

/-- Apply a target; the one in force before it is superseded (R371, R378). -/
def applyTarget (t : Target) (s : State) : State :=
  let s := catchUp s
  let s := match s.pwr.tgt with
    | some o => if s.pwr.done then s else finish s o.cmd 0 (envDetail s + 1)
    | none => s
  if t.watts = 0 then
    let s := targetReasons (modPwr s (fun p => { p with tgt := none, done := true, lagUp := 0, lagDn := 0 }))
    showGov (finish s t.cmd 0 (envDetail s))
  else
    let s := targetReasons (modPwr s (fun p => { p with tgt := some t, done := false, lagUp := 0, lagDn := 0 }))
    let s := logEv s 0x69 7 0 0 0 0 (t.watts % 65536 * 65536 + envNow s / 1000 % 65536)
    showGov (judgeTarget s)

/-- HRD_TARGET. -/
def hrdTarget (c : Cmd) (s : State) : State :=
  let at_ := par c 0 8
  let t : Target := { cmd := c.id, tick := at_, watts := par c 8 4, up := par c 12 4, dn := par c 16 4 }
  let bad := fun v top => v != 0 && (decide (v < 50) || decide (100000 < v) || decide (top < v))
  if bad t.up (fget s .HRD_SLOPE_CEIL [] Fld.HRD_SLOPE_CEIL_UP_CEIL) || bad t.dn (fget s .HRD_SLOPE_CEIL [] Fld.HRD_SLOPE_CEIL_DN_CEIL)
      || decide (16 ≤ s.pwr.pend.length) then finish s c.id 0x0160 0
  else if ceilingMw s < 1000 * t.watts then finish s c.id 0x0501 0
  else if fget s .THM_STAT [] Fld.THM_STAT_THROTTLED ≠ 0 ∧ fget s .THM_STAT [] Fld.THM_STAT_LIMIT < t.watts then
    finish s c.id 0x0502 0
  else if at_ ≠ 0 ∧ at_ < s.tick then finish s c.id 0x0504 0
  else if at_ = 0 then applyTarget { t with tick := s.tick } s
  else modPwr s (fun p => { p with pend := p.pend ++ [t] })

/-- The earliest tick of the pending targets. -/
def firstAt : List Target → Option Nat
  | [] => none
  | t :: r => match firstAt r with | none => some t.tick | some x => some (min t.tick x)

/-- Of several targets the one fetched last, command numbers rising in fetch order. -/
def lastFetched : List Target → Option Target
  | [] => none
  | t :: r => match lastFetched r with | none => some t | some x => if x.cmd < t.cmd then some t else some x

/-- The next pending target takes effect at its tick; of several with one tick only the one fetched last applies. -/
def targetApply (s : State) : State :=
  match firstAt s.pwr.pend with
  | none => s
  | some a =>
    let due := s.pwr.pend.filter (fun t => t.tick == a)
    let s := { modPwr s (fun p => { p with pend := p.pend.filter (fun t => t.tick != a) }) with tick := max s.tick a }
    match lastFetched due with
    | none => s
    | some t =>
      let s := (due.filter (fun x => x.cmd != t.cmd)).foldl (fun s x => finish s x.cmd 0 (envDetail s + b2n (x.watts != 0))) s
      applyTarget t s

/-- HRD_BALLAST (R380). -/
def hrdBallast (c : Cmd) (s : State) : State :=
  if ceilingMw s < 1000 * par c 0 4 then finish s c.id 0x0501 0
  else if 60000 < par c 4 4 then finish s c.id 0x0160 0
  else
    let s := fset (fset s .HRD_BALLAST [] Fld.HRD_BALLAST_FLOOR (par c 0 4)) .HRD_BALLAST [] Fld.HRD_BALLAST_HOLD (par c 4 4)
    let s := modPwr s (fun p => { p with holdLeft := if p.holdLeft = 0 then 0 else par c 4 4 })
    finish s c.id 0 0

/-! ### Ballast and the load within a millisecond (R361, R372, R373) -/

/-- Set the ballast level; the scrub boost takes what matrix ballast cannot, and none in a compute reset (R373). -/
def setBallast (n : Nat) (s : State) : State :=
  let room := matrixRoom s
  let top := if s.rcv.stage = 4 then 0 else 4094
  let n := min n (room + top)
  fset (ballastEnd (modPwr s (fun p => { p with bal := n }))) .MEM_SCRUB_CTL [] Fld.MEM_SCRUB_CTL_BOOST (1 + (n - room))

/-- Energy of the shunt, in kJ when a whole one is reached (PWR_BUF.SHUNT_KJ). -/
def shuntTake (nj : Nat) (s : State) : State :=
  let e := s.pwr.shuntE + nj
  finc (modPwr s (fun p => { p with shuntE := e % 10 ^ 12, shuntMs := p.shuntMs + nj, shunt := nj }))
    .PWR_BUF [] Fld.PWR_BUF_SHUNT_KJ (e / 10 ^ 12)

/-- Capacity of the boost store, in nJ. -/
def boostCap : Nat := 6000000000

/-- The binding ballast reason: RESET whenever it is active (R385). -/
def boundBal (s : State) : Nat := if s.rcv.stage = 4 then 15 else fget s .HRD_REASON [] Fld.HRD_REASON_BIND_BAL

/-- HRD_REASON as it reads. -/
def reasonStat (s : State) : Nat :=
  setBits (setBits (rget s .HRD_REASON []) 15 0 (activeMask s)) Fld.HRD_REASON_BIND_BAL.hi Fld.HRD_REASON_BIND_BAL.lo (boundBal s)

/-- One microsecond with `load` mW drawn behind the converters (R361, R372). The gate duty and the ballast that a load calls
for are open values within their steps. -/
def envelopeStep (load : Nat) (s : State) : State :=
  let s := modPwr s (fun p => { p with us := min 1000 (p.us + 1) })
  let e := envNow s
  let s := countReasons 1 s
  let f := free s
  let s := f.2
  let s := if e < load ∨ e < s.pwr.demand then modPwr s (fun p => { p with gate := 1 + f.1 % 64 })
    else modPwr s (fun p => { p with gate := f.1 % (p.gate + 1) })
  let g := free s
  let s := if load < e then setBallast (s.pwr.bal + g.1 % (matrixRoom s + 4095)) g.2 else setBallast (g.1 % (s.pwr.bal + 1)) g.2
  let s := if e < load then
      let need := load - e
      let got := min need s.pwr.boost
      let dry := decide (got < need)
      let s := if dry && !s.pwr.boostDry then logEv s 0x66 7 0 0 0 0 0 else s
      shuntTake 0 (modPwr s (fun p => { p with boost := p.boost - got, boostDry := dry, shuntSat := false }))
    else
      let margin := e - load
      let fill := min margin (boostCap - s.pwr.boost)
      let rest := margin - fill
      let short := rest - 1800000
      let s := if short != 0 && !s.pwr.shuntSat then logEv s 0x65 7 0 0 0 0 (short / 1000 % 65536) else s
      shuntTake (min rest 1800000) (modPwr s (fun p => { p with boost := p.boost + fill, boostDry := false, shuntSat := decide (short ≠ 0) }))
  let s := fset s .PWR_BUF [] Fld.PWR_BUF_BOOST (s.pwr.boost / 10 ^ 7)
  judgeTarget (showGov s)

/-! ### The millisecond boundary (R368–R376) -/

/-- Tick of the boundary at hand: the multiple of 1,000,000 reached and not yet latched, or else the next. -/
def boundaryTick (s : State) : Nat :=
  let b := s.tick / 10 ^ 6 * 10 ^ 6
  if lget 0 s.pwr.snap 0 < b then b else b + 10 ^ 6

/-- Whether a cluster domain is held at its cap (R366): 2.5 A on VCORE or 1.0 A on VPIL times CAP_PCT. -/
def atCap (s : State) (d : Nat) : Bool :=
  let cap := fget s .PWR_DOM_STAT [d] Fld.PWR_DOM_STAT_CAP_PCT
  let x := tget (0, 0) s.pwr.cur d
  cap != 0 && (decide (250 * cap ≤ 100 * x.1) || decide (100 * cap ≤ 100 * x.2))

/-- What one evaluation of R370 yields. -/
structure GovStep where
  /-- The envelope before the hard bounds, and after. -/
  pre   : Nat
  next  : Nat
  held  : Bool
  /-- The floor set want. -/
  floored : Bool
  /-- Want before the soft bounds. -/
  want0 : Nat
  want  : Nat
  holdLeft : Nat
  deriving DecidableEq, Repr

/-- R370, for slopes, a demand and a hard bound. -/
def governAt (s : State) (up dn demand hard : Nat) : GovStep :=
  let e := s.pwr.env
  let hold := if e ≤ demand then holdMs s else s.pwr.holdLeft
  let r : Nat × Bool × Bool × Nat := match s.pwr.tgt with
    | some t => (1000 * t.watts, false, false, s.pwr.holdLeft)
    | none =>
      if demand < e ∧ 0 < hold then (e, true, false, hold - 1)
      else (max demand (floorMw s), false, decide (demand < floorMw s), hold)
  let want := min r.1 (hiSoft s)
  let pre := min (e + up) (max (e - dn) want)
  { pre := pre, next := min pre hard, held := r.2.1, floored := r.2.2.1, want0 := r.1, want := want, holdLeft := r.2.2.2 }

/-- R370 at the slopes in force. -/
def govern (s : State) (demand hard : Nat) : GovStep := governAt s (upEff s) (dnEff s) demand hard

/-- Clusters at their domain cap have issue gated over the coming millisecond, at an open duty (R366; log entry 1). -/
def capStep (s : State) : State :=
  let l := (List.range 1024).filter (atCap s)
  { modPwr s (fun p => { p with capGate := l.zipIdx.map (fun e => (e.1, 1 + Config.freeNat (s.freeCtr + e.2) % 64)) }) with
    freeCtr := s.freeCtr + l.length }

/-- The reasons active over the coming millisecond (R385), with the bound a throttle reason puts on the envelope. -/
def reasons (s : State) (demand vin : Nat) (g : GovStep) : List (Nat × Option Nat) :=
  let e := s.pwr.env
  let tw := targetWhy s.pwr.tgt demand
  let input := min (inputBound vin) (ibcBound s)
  let rising := decide (e < g.next) && g.next == e + upEff s && decide (e < demand)
  let credit := decide (upEff s < askedUp s) || decide (dnEff s < askedDn s)
  let opt := fun (b : Bool) (r : Nat × Option Nat) => if b then [r] else []
  opt rising (1, some g.next)
    ++ tw.1
    ++ opt (decide (ceilingMw s < g.want0)) (3, some (ceilingMw s))
    ++ opt (winBinds s 0) (4, some (winLimit s 0)) ++ opt (winBinds s 1) (5, some (winLimit s 1)) ++ opt (winBinds s 2) (6, some (winLimit s 2))
    ++ opt (decide (input < g.pre)) (7, some input)
    ++ opt (match heatBound s with | some h => decide (h < g.pre) | none => false) (8, heatBound s)
    ++ opt ((List.range 1024).any (atCap s)) (9, none)
    ++ opt credit (10, if rising then some g.next else none)
    ++ opt (decide (0 < e) && g.next == e - dnEff s && decide (demand < e)) (11, none)
    ++ opt g.held (12, none)
    ++ opt (g.floored && g.next == floorMw s) (13, none)
    ++ tw.2

/-- The binding ballast reason of a boundary, RESET apart: the one that set want. -/
def bindBal (rs : List (Nat × Option Nat)) : Nat :=
  let has := fun k => rs.any (fun r => r.1 == k)
  if has 14 then 14 else if has 12 then 12 else if has 13 then 13 else if has 11 then 11 else 0

/-- The header fields of the millisecond just ended (R369), before the governor moves on. -/
def latchSnap (b : Nat) (m : Measured) (s : State) : State :=
  let hdr := [b, m.vin, m.iin, m.pin / 1000, (s.pwr.prev + s.pwr.env) / 2000, (match s.pwr.tgt with | some t => t.watts | none => 0),
    m.demand / 1000, s.pwr.shuntMs / 10 ^ 6, s.pwr.boost / 10 ^ 7, activeMask s, fget s .HRD_REASON [] Fld.HRD_REASON_BIND_THR, boundBal s]
  let s := countReasons (1000 - min 1000 s.pwr.us) s
  let s := fset s .PWR_BUF [] Fld.PWR_BUF_SHUNT (s.pwr.shuntMs / 10 ^ 6)
  let s := capStep (modPwr s (fun p => { p with snap := hdr, cur := m.cur, demand := m.demand, shuntMs := 0, us := 1000, hist := histPush m.pin p.hist }))
  let s := fset (fset (fset s .PWR_IN [] Fld.PWR_IN_VIN m.vin) .PWR_IN [] Fld.PWR_IN_IIN m.iin) .PWR_IN [] Fld.PWR_IN_PIN (m.pin / 1000)
  fset { s with tick := max s.tick b } .HRD_STAT [] Fld.HRD_STAT_MEASURED (m.pin / 1000)

/-- Whether a millisecond's input power missed the tolerance of R376. -/
def missed (s : State) (pin : Nat) : Bool :=
  let two := s.pwr.prev + s.pwr.env
  let d := (2 * pin - two) + (two - 2 * pin)
  if 10 * two < 4 * ceilingMw s then decide (8 * ceilingMw s < 1000 * d) else decide (2 * two < 100 * d)

/-- HOLD_MISS at the tenth miss in a row (R376), and AVG_OVER once an excursion (R374). -/
def judgeHold (pin : Nat) (s : State) : State :=
  let n := if missed s pin then min 11 (s.pwr.miss + 1) else 0
  let s := if n = 10 then logEv s 0x64 7 0 0 0 0 ((s.pwr.prev + s.pwr.env) / 2000 % 65536 * 65536 + pin / 1000 % 65536) else s
  let s := modPwr s (fun p => { p with miss := n })
  (List.range 3).foldl (fun s w =>
    let sum := histSum s.pwr.hist (winLen w)
    if winLimit s w * winLen w < sum then
      if s.pwr.exceeded.contains w then s
      else logEv (modPwr s (fun p => { p with exceeded := w :: p.exceeded })) 0x63 7 0 0 0 0 (w * 2 ^ 48 + sum / winLen w / 1000 % 65536)
    else modPwr s (fun p => { p with exceeded := p.exceeded.filter (fun x => x != w) })) s

/-- The governor's work at a boundary, after the measurements are latched. A hard bound that lowers the envelope does so at
once; a rise that it trims stays linear (R370, R375). -/
def governStep (m : Measured) (s : State) : State :=
  let s := judgeTarget (judgeHold m.pin s)
  let hard := hiHard s m.vin
  let g := govern s m.demand hard.1
  let rs := reasons s m.demand m.vin g
  let e := s.pwr.env
  let s := fset (showWhy rs s) .HRD_REASON [] Fld.HRD_REASON_BIND_BAL (bindBal rs)
  let cut := decide (hard.1 < g.pre)
  let s := if decide (hard.1 < e - dnEff s) then
      logEv s 0x62 7 0 0 0 0 (hard.2 * 2 ^ 48 + e / 1000 % 65536 * 65536 + hard.1 / 1000 % 65536) else s
  let wantUp := if g.want0 < e then 0 else min (askedUp s) (g.want - e) - (g.pre - e)
  let wantDn := if e ≤ g.want then 0 else min (askedDn s) (e - g.want) - (e - g.pre)
  let prev := if cut then min g.next e else e
  let s := modPwr s (fun p => { p with
    env := g.next, prev := prev, us := 0, holdLeft := g.holdLeft, lagUp := p.lagUp + wantUp, lagDn := p.lagDn + wantDn })
  judgeTarget (showGov s)

/-! ### Fabric ramp credits (R381–R384) -/

/-- Whether the device asks for credit at all: a coordinator is designated and is a member (R384). -/
def askable (s : State) : Bool :=
  fbit s .HRD_COORD [] Fld.HRD_COORD_V && s.syn.members.contains (fget s .HRD_COORD [] Fld.HRD_COORD_ID)

/-- The target that will be in force at a tick. -/
def targetAt (s : State) (tick : Nat) : Option Target :=
  let due := s.pwr.pend.filter (fun t => decide (t.tick ≤ tick))
  let last := due.foldl (fun (m : Option Target) t => match m with
    | none => some t
    | some x => if x.tick < t.tick ∨ (x.tick = t.tick ∧ x.cmd < t.cmd) then some t else m) none
  match last with
  | some t => if t.watts = 0 then none else some t
  | none => s.pwr.tgt

/-- Project the envelope over `n` milliseconds from a tick, an envelope and a hold by R370, at the demand of now and no hard
bound: the envelope and the hold, rises and falls. With `plan` the slopes are those asked for, else those in force. -/
def project (s : State) (plan : Bool) : Nat → Nat → Nat × Nat → (Nat × Nat) × Nat × Nat
  | 0, _, e => (e, 0, 0)
  | n + 1, tick, e =>
    let u := modPwr s (fun p => { p with tgt := targetAt s tick, env := e.1, holdLeft := e.2 })
    let g := governAt u (if plan then askedUp u else upEff u) (if plan then askedDn u else dnEff u) s.pwr.demand (2 ^ 64)
    let r := project s plan n (tick + 10 ^ 6) (g.next, g.holdLeft)
    (r.1, r.2.1 + (g.next - e.1), r.2.2 + (e.1 - g.next))

/-- BEACON payload for epoch `k` (R382). -/
def beaconBytes (s : State) (k : Nat) : List Byte × Nat × Nat :=
  let start := k * 10 ^ 7
  let e0 := project s false ((start - s.tick) / 10 ^ 6) s.tick (envNow s, s.pwr.holdLeft)
  let r := project s true 10 start e0.1
  let rise := r.2.1 / 1000
  let fall := r.2.2 / 1000
  let up := if askable s then rise - 10 * baseUp s / 1000 else 0
  let dn := if askable s then fall - 10 * baseDn s / 1000 else 0
  let act := fget s .HRD_REASON [] Fld.HRD_REASON_ACTIVE
  let flags := b2n s.pwr.tgt.isSome + 2 * b2n (tbit act 12) + 4 * b2n (tbit act 7 || tbit act 8)
  (leBytes 5 k ++ leBytes 1 (fget s .HRD_COORD [] Fld.HRD_COORD_PRIO) ++ leBytes 1 flags ++ leBytes 1 0
    ++ leBytes 2 (envNow s / 1000) ++ leBytes 2 (match s.pwr.tgt with | some t => t.watts | none => 0)
    ++ leBytes 2 up ++ leBytes 2 dn ++ leBytes 2 rise ++ leBytes 2 fall ++ leBytes 12 0, up, dn)

/-- A beacon joins those the coordinator holds, one a device. -/
def addBeacon (b : Beacon) (s : State) : State :=
  modPwr s (fun p => { p with beacons := p.beacons.filter (fun x => x.dev != b.dev) ++ [b] })

def epochNow (s : State) : Nat := fget s .HRD_EPOCH [] Fld.HRD_EPOCH_EPOCH
def isCoord (s : State) : Bool := fbit s .HRD_COORD [] Fld.HRD_COORD_SELF

/-- BEACON_SEND. -/
def beaconSend (s : State) : State :=
  if !(isMember s) then s
  else
    let b := beaconBytes s (epochNow s + 1)
    let s := synBroadcast s 0x14 0 b.1
    let s := modPwr s (fun p => { p with asked := decide (b.2.1 ≠ 0) || decide (b.2.2 ≠ 0) })
    if isCoord s then addBeacon ⟨ownId s, fget s .HRD_COORD [] Fld.HRD_COORD_PRIO, b.2.1, b.2.2⟩ s else s

/-- A beacon of another device reaches the coordinator in time (R383). -/
def beaconRx (x : Pkt) (s : State) : State :=
  if !(isCoord s) || leNat (x.data.take 5) != epochNow s + 1 || (s.tick / 10 ^ 7 == epochNow s && decide (6000000 ≤ s.tick % 10 ^ 7)) then s
  else addBeacon ⟨x.src, (lget 0 x.data 5).toNat, leNat ((x.data.drop 12).take 2), leNat ((x.data.drop 14).take 2)⟩ s

/-- Beacons in grant order: priority descending, then device ID ascending. -/
def insertBeacon (b : Beacon) : List Beacon → List Beacon
  | [] => [b]
  | x :: r => if x.prio < b.prio ∨ (x.prio = b.prio ∧ b.dev < x.dev) then b :: x :: r else x :: insertBeacon b r

/-- A device holds a grant for an epoch to come (R384). -/
def takeGrant (k up dn : Nat) (s : State) : State :=
  if epochNow s < k then modPwr s (fun p => { p with grant := some (k, up, dn) }) else s

/-- GRANT_ISSUE: R383. -/
def grantIssue (s : State) : State :=
  if !(isCoord s) then s
  else
    let k := epochNow s + 1
    let order := (s.pwr.beacons.filter (fun b => b.up != 0 || b.dn != 0)).foldl (fun l b => insertBeacon b l) []
    let r := order.foldl (fun (acc : State × Nat × Nat) b =>
      let s := acc.1
      let gu := min b.up acc.2.1
      let gd := min b.dn acc.2.2
      let s := if b.dev = ownId s then takeGrant k gu gd s
        else (synSend s 0 ⟨mkHdr b.dev (ownId s) 2 0 7 0 0x15 true true 0 0 0 0 0, 0,
          leBytes 5 k ++ leBytes 3 0 ++ leBytes 2 gu ++ leBytes 2 gd ++ leBytes 20 0⟩).2
      (s, acc.2.1 - gu, acc.2.2 - gd))
      (s, fget s .HRD_FLEET [] Fld.HRD_FLEET_UP_W, fget s .HRD_FLEET [] Fld.HRD_FLEET_DN_W)
    modPwr r.1 (fun p => { p with beacons := [] })

/-- A grant arrives. -/
def grantRx (x : Pkt) (s : State) : State :=
  takeGrant (leNat (x.data.take 5)) (leNat ((x.data.drop 8).take 2)) (leNat ((x.data.drop 10).take 2)) s

/-- EPOCH_START: the grant of the epoch applies, or the epoch is missed (R384). -/
def epochStart (s : State) : State :=
  let k := if epochNow s < s.tick / 10 ^ 7 then s.tick / 10 ^ 7 else epochNow s + 1
  let s := { fset s .HRD_EPOCH [] Fld.HRD_EPOCH_EPOCH k with tick := max s.tick (k * 10 ^ 7) }
  let g : Option (Nat × Nat) := match s.pwr.grant with | some (e, u, d) => if e = k then some (u, d) else none | none => none
  let s := fset (fset s .HRD_GRANT [] Fld.HRD_GRANT_UP (g.getD (0, 0)).1) .HRD_GRANT [] Fld.HRD_GRANT_DN (g.getD (0, 0)).2
  let miss := s.pwr.asked && g.isNone
  let s := if miss then
      let s := finc s .HRD_GRANT [] Fld.HRD_GRANT_MISSED 1
      if s.pwr.missing then s else logEv s 0x67 7 0 0 0 0 (k % 2 ^ 40)
    else s
  modPwr s (fun p => { p with grant := none, asked := false, missing := miss, beacons := [] })

/-! ### Domains and converters (R359–R366) -/

/-- Frequency in force of a cluster island. -/
def cluMhz (s : State) : Nat := fget s .CLK_CLASS [0] Fld.CLK_CLASS_MHZ

/-- Signed trim of an island, in 5 mV units. -/
def trimOf (s : State) (i : Nat) : Int := sext 8 (fget s .CLK_ISL_STAT [i] Fld.CLK_ISL_STAT_TRIM)

/-- Frequency the VCORE of the cluster class is set for: that in force, or the next pending one when it is a rise; after a fall
that before it, until every island has switched (R363, R391). -/
def vcoreMhz (s : State) : Nat :=
  let p := s.clk.pend.filter (fun x => x.cls == 0)
  let first := p.foldl (fun (m : Option ClkChange) x => match m with | none => some x | some y => if x.tick < y.tick then some x else m) none
  let now := match first with | some x => max (cluMhz s) x.mhz | none => cluMhz s
  (s.clk.swing.filter (fun x => x.cls == 0)).foldl (fun m x => max m x.was) now

/-- Main rail setpoint of a domain, in mV (R362, R363), VCORE from 0.55 V to 0.95 V; 0 for a domain dark or gated off, or not
yet on in bring-up: the always-on domain comes on in POWER_IN, the others in DOMAINS (R425); a halt leaves the always-on and the
host port domains on (R427). -/
def vset (s : State) (d : Nat) : Nat :=
  if fbit s .PWR_DOM_STAT [d] Fld.PWR_DOM_STAT_DARK || fbit s .PWR_DOM_STAT [d] Fld.PWR_DOM_STAT_GATED then 0
  else if fget s .BOOT_STAT [] Fld.BOOT_STAT_STAGE < (if d = 1050 then 2 else 6) || (s.boot.life == .halted && d != 1048 && d != 1050) then 0
  else if d < 1024 then max 550 (min 950 ((Config.vcorePoint d (vcoreMhz s) : Int) + 5 * trimOf s d).toNat)
  else if d < 1040 ∨ (1044 ≤ d ∧ d < 1049) then 850 else 800

/-- PWR_DOM_STAT as it reads: the currents last latched and the setpoint. -/
def domStat (s : State) (d : Nat) : Nat :=
  let x := tget (0, 0) s.pwr.cur d
  setBits (setBits (setBits (rget s .PWR_DOM_STAT [d]) Fld.PWR_DOM_STAT_VSET.hi Fld.PWR_DOM_STAT_VSET.lo (vset s d))
    Fld.PWR_DOM_STAT_ISEC.hi Fld.PWR_DOM_STAT_ISEC.lo (if d < 1024 then x.2 else 0)) Fld.PWR_DOM_STAT_IMAIN.hi Fld.PWR_DOM_STAT_IMAIN.lo x.1

/-- CAP_PCT for a number of lost phases (R365). -/
def capAfter (d lost : Nat) : Nat :=
  if d < 1024 then (if lost = 0 then 100 else if lost = 1 then 95 else 0)
  else if lost ≤ 1 then 100 else if lost = 2 then 95 else 0

def phaseCount (d : Nat) : Nat := if d < 1024 then 4 else 6

/-- A domain loses a phase: PHASE_GOOD and CAP_PCT. -/
def losePhase (d ph : Nat) (s : State) : State :=
  let good := setBits (fget s .PWR_DOM_STAT [d] Fld.PWR_DOM_STAT_PHASE_GOOD) ph ph 0
  let s := fset s .PWR_DOM_STAT [d] Fld.PWR_DOM_STAT_PHASE_GOOD good
  fset s .PWR_DOM_STAT [d] Fld.PWR_DOM_STAT_CAP_PCT (capAfter d (phaseCount d - popCount (phaseCount d) good))

/-- Whether a waiting report is a PHASE_FAIL of a domain in a microsecond. -/
def sameFail (d us : Nat) (r : Report) : Bool := r.ev == 0x08 && r.idx == d && r.tick / 1000 == us

/-- The PHASE_FAIL entries of a domain's failures of this microsecond in ascending phase order, each with CAP_PCT and PHASE_GOOD
after it, take the place of those written before; the last keeps the marks of a fence raised (R365). -/
def phaseEntries (d : Nat) (phases : List Nat) (s : State) : State :=
  let us := s.tick / 1000
  let old := s.log.waiting.filter (sameFail d us)
  let job := if d < 1024 then jobOfC s d else 0
  let now := fget s .PWR_DOM_STAT [d] Fld.PWR_DOM_STAT_PHASE_GOOD
  let base : Report := (old.find? (fun r => r.fence || r.merged || r.restart)).getD (mkRep s 0x08 4 2 d 0 job 0)
  let tick := (old.head?.map Report.tick).getD s.tick
  let plain := { mkRep s 0x08 4 2 d 0 job 0 with tick := tick }
  let entries := phases.map (fun p =>
    let later := phases.filter (fun q => decide (p < q))
    let good := later.foldl (fun g q => setBits g q q 1) now
    let detail := capAfter d (phaseCount d - popCount (phaseCount d) good) * 2 ^ 8 + good % 16
    if later.isEmpty then { base with tick := tick, detail := detail } else { plain with detail := detail })
  let w := s.log.waiting
  let before := w.takeWhile (fun r => !(sameFail d us r))
  let after := (w.dropWhile (fun r => !(sameFail d us r))).filter (fun r => !(sameFail d us r))
  { s with log := { s.log with waiting := before ++ entries ++ after } }

/-- PHASE_FAIL (R365). The entry of a cluster domain carries the current job of its cluster (R335). Phases of one domain that
fail within one microsecond have their entries in ascending order, also when the first left the domain dark. -/
def phaseFail (d ph : Nat) (s : State) : State :=
  let us := s.tick / 1000
  let with_ := (s.pwr.fails.filter (fun x => x.1 == d && x.2.1 == us)).map (fun x => x.2.2)
  if 1051 ≤ d ∨ phaseCount d ≤ ph ∨ !(tbit (fget s .PWR_DOM_STAT [d] Fld.PWR_DOM_STAT_PHASE_GOOD) ph)
      ∨ (fbit s .PWR_DOM_STAT [d] Fld.PWR_DOM_STAT_DARK && with_.isEmpty) then s
  else
    let was := fbit s .PWR_DOM_STAT [d] Fld.PWR_DOM_STAT_DARK
    let s := modPwr (losePhase d ph s) (fun p => { p with fails := p.fails.filter (fun x => x.2.1 == us) ++ [(d, us, ph)] })
    let cap := fget s .PWR_DOM_STAT [d] Fld.PWR_DOM_STAT_CAP_PCT
    let s := phaseEntries d ((List.range 8).filter (fun p => p == ph || with_.contains p)) s
    if cap ≠ 0 || was then s
    else
      let l := s.log.waiting.filter (sameFail d us)
      let rep := l.getLast?.getD (mkRep s 0x08 4 2 d 0 0 0)
      let s := fset s .PWR_DOM_STAT [d] Fld.PWR_DOM_STAT_DARK 1
      if d < 1024 then
        let s := discardPillar (modTopo s (fun t => { t with dark := if t.dark.contains d then t.dark else d :: t.dark })) d
        let j := jobOfC s d
        raiseFault s j [⟨.domain d, .mapOut, false, 3, 0⟩] (mkRep s 0x07 4 2 d 0 j d)
      else if d = 1050 then
        emit { s with boot := { s.boot with life := .dark } } (.pin "ALERT_N" 0)
      else raiseJobs { s with log := { s.log with waiting := s.log.waiting.erase rep } } (activeJobs s) [⟨.domain d, .reverify, false, 0, 0⟩] rep

/-- IBC_FAIL (R360). -/
def ibcFail (i : Nat) (s : State) : State :=
  let good := fget s .PWR_REF [] Fld.PWR_REF_IBC_GOOD
  if tbit good i then
    let g := setBits good i i 0
    logEv (fset s .PWR_REF [] Fld.PWR_REF_IBC_GOOD g) 0x60 7 0 0 0 0 g
  else s

/-- INPUT_RANGE (R359): VIN, in mV, falls below 40 V or is back in range. -/
def inputRange (mv : Nat) (s : State) : State :=
  if mv < 40000 then
    if s.pwr.low then s else logEv (modPwr s (fun p => { p with low := true })) 0x61 7 0 0 0 0 (mv / 10 % 65536)
  else if s.pwr.low && decide (mv ≤ 60000) then
    logEv (modPwr s (fun p => { p with low := false })) 0x61 7 0 0 0 0 (2 ^ 16 + mv / 10 % 65536)
  else s

/-! ### Telemetry (R369) -/

/-- Whether a snapshot is kept from the command's sender (R452). -/
def snapDenied (s : State) (c : Cmd) : Bool := qTenant s c.q && !(fbit s .LCS_TENANT [] Fld.LCS_TENANT_SNAP)

/-- The 8,472 bytes of the power snapshot. -/
def powerSnap (s : State) : List Byte :=
  let f := fun i => lget 0 s.pwr.snap i
  leBytes 8 (f 0) ++ ((List.range 9).flatMap (fun i => leBytes 2 (f (i + 1)))) ++ leBytes 1 (f 10) ++ leBytes 1 (f 11) ++ leBytes 36 0
    ++ (List.range 1051).flatMap (fun d => leBytes 8 (domStat s d))

/-- TELEM_SNAP with a KIND other than 1. -/
def telemSnap (c : Cmd) (s : State) : State :=
  if par c 8 1 ≠ 0 then finishPost s c 0x0101 0
  else if snapDenied s c then finishPost s c 0x0701 0
  else
    let w := accWrite s (agentOf s c) (par c 0 8) (powerSnap s)
    finishPost w.2 c w.1 0

def execHrdTarget (k : Nat) (s : State) : Res3 := s.run (cmdStart k 0x80 hrdTarget)
def execHrdBallast (k : Nat) (s : State) : Res3 := s.run (cmdStart k 0x82 hrdBallast)
def execTargetApply (s : State) : Res3 := s.run targetApply
def execEnvelopeStep (load : Nat) (s : State) : Res3 := s.run (envelopeStep load)
def execBeaconSend (s : State) : Res3 := s.run beaconSend
def execGrantIssue (s : State) : Res3 := s.run grantIssue
def execEpochStart (s : State) : Res3 := s.run epochStart
def execBeacon (s : State) : Res3 := s.run (onPkt 0x14 (fun _ x s => beaconRx x s))
def execGrant (s : State) : Res3 := s.run (onPkt 0x15 (fun _ x s => grantRx x s))
def execPhaseFail (d : Nat) (phase : Fin 8) (s : State) : Res3 := s.run (phaseFail d phase.val)
def execIbcFail (i : Fin 8) (s : State) : Res3 := s.run (ibcFail i.val)
def execInputRange (mv : Nat) (s : State) : Res3 := s.run (inputRange mv)
def execTelemSnap (k : Nat) (s : State) : Res3 :=
  s.run (fun s => match cmdOf s k with | some c => if par c 8 1 = 1 then s else cmdStart k 0x91 telemSnap s | none => s)

end Sys2Proof.Machine
end

