-- ==== Sys2Proof/Machine/Clocks.lean ====
section
/-! DEFINITION. Clocks: classes, synchronized change, hung switches, loops, holdover, gating, margin monitors and the
observation output (R387–R403). -/

namespace Sys2Proof.Machine

/-! ### Islands (R388) -/

/-- Frequency of an island in force; 0 of one that has no clock (R393, R395). -/
def islMhz (s : State) (i : Nat) : Nat :=
  if noClock s i then 0 else match islClass i with
  | some k => classMhz s k
  | none => if i < 2048 then classMhz s 0 / 2 else if i < 2100 then 1750 else if i = 2102 then s.clk.core else 1000

/-- Whether a bit of CLK_GATE is set (R398). -/
def gateBit (s : State) (b : Nat) : Bool := tbit (rget s .CLK_GATE []) b

/-- Whether an island's clock is gated or the island held in reset (R367, R398). -/
def islGated (s : State) (i : Nat) : Bool :=
  domDark s (islDomain i) || fbit s .PWR_DOM_STAT [islDomain i] Fld.PWR_DOM_STAT_GATED
    || (decide (2084 ≤ i ∧ i < 2100) && gateBit s (i - 2084)) || (decide (2100 ≤ i ∧ i < 2102) && gateBit s (i - 2084))
    || (i == 2103 && gateBit s 18)

/-- CLK_ISL_STAT as it reads: an island that has not switched shows the loop it was on. -/
def islStat (s : State) (i : Nat) : Nat :=
  let k := islClass i
  let j := if 1024 ≤ i ∧ i < 2048 then i - 1024 else i
  let src := match tfind s.clk.stuck j, k with
    | some b, _ => b
    | none, some k => lget 0 s.clk.src k
    | none, none => if i < 2048 then lget 0 s.clk.src 0 else if i = 2102 then lget 0 s.clk.src 4 else 0
  let cal := (tget [] s.clk.cal i).contains (islMhz s i)
  b2n (s.clk.hung.contains i) * 2 ^ 63 + src % 2 * 2 ^ 62 + b2n cal * 2 ^ 61 + b2n (islGated s i) * 2 ^ 60
    + fget s .CLK_ISL_STAT [i] Fld.CLK_ISL_STAT_TRIM * 2 ^ 48 + islMhz s i % 65536 * 2 ^ 32
    + fget s .CLK_ISL_STAT [i] Fld.CLK_ISL_STAT_STRETCH

/-- CLK_CLASS as it reads: PENDING counts the changes pending (R390). -/
def classStat (s : State) (k : Nat) : Nat :=
  setBits (rget s .CLK_CLASS [k]) Fld.CLK_CLASS_PENDING.hi Fld.CLK_CLASS_PENDING.lo ((s.clk.pend.filter (fun x => x.cls == k)).length)

/-- CLK_STAT as it reads. -/
def clkStat (s : State) : Nat :=
  let w := setBits (rget s .CLK_STAT []) 62 62 (b2n s.clk.hold.isSome)
  setBits w Fld.CLK_STAT_HUNG.hi Fld.CLK_STAT_HUNG.lo s.clk.hung.length

/-! ### Synchronized change (R390–R393) -/

/-- Range and step of a class. -/
def mhzOk (s : State) (k mhz : Nat) : Bool :=
  let lo := if k = 0 then 400 else 500
  let hi := match k with
    | 0 => min 2000 (fget s .CLK_CLASS [0] Fld.CLK_CLASS_FMAX)
    | 2 => 2000
    | _ => 1500
  decide (lo ≤ mhz) && decide (mhz ≤ hi) && mhz % 50 == 0

/-- Earliest tick of the changes pending for a class. -/
def firstChange (k : Nat) : List ClkChange → Option Nat
  | [] => none
  | x :: r => match firstChange k r with
    | none => if x.cls = k then some x.tick else none
    | some y => if x.cls = k then some (min x.tick y) else some y

/-- Of several changes the one fetched last. -/
def lastChange : List ClkChange → Option ClkChange
  | [] => none
  | t :: r => match lastChange r with | none => some t | some x => if x.cmd < t.cmd then some t else some x

/-- Set the idle loops of a pair for a frequency (R391 step 1); a loop that has the setting keeps it. -/
def setLoop (k mhz : Nat) (s : State) : State :=
  let key := 2 * k + (1 - lget 0 s.clk.src k % 2)
  let x := tget (0, 0, 0) s.clk.loops key
  let n := pllOf mhz
  if x.1 = n.1 ∧ x.2.1 = n.2 then s else modClk s (fun y => { y with loops := tput key (n.1, n.2, s.tick) y.loops })

/-- The idle loops of a class are set for its next pending change. -/
def setIdle (k : Nat) (s : State) : State :=
  match firstChange k s.clk.pend with
  | none => s
  | some a => match lastChange (s.clk.pend.filter (fun x => x.cls == k && x.tick == a)) with
    | none => s
    | some x => setLoop k x.mhz s

/-- CLK_SYNC. -/
def clkSync (c : Cmd) (s : State) : State :=
  let at_ := par c 0 8
  let k := par c 8 1
  let mhz := par c 10 2
  if decide (3 < k) || !(mhzOk s k mhz) || decide (4 ≤ (s.clk.pend.filter (fun x => x.cls == k)).length) || s.clk.hold.isSome then
    finish s c.id 0x0160 0
  else if at_ ≠ 0 ∧ at_ < s.tick + 100000 then finish s c.id 0x0504 0
  else
    setIdle k (modClk s (fun x => { x with pend := x.pend ++ [⟨c.id, k, mhz, if at_ = 0 then s.tick + 100000 else at_, 0⟩] }))

/-- The generator that feeds an island of a class (R387). -/
def genOf (i : Nat) : Nat :=
  if i < 1024 then i / 64
  else if i < 2064 then i - 2048
  else if i < 2080 then 16 + towerQuad (i - 2064)
  else if i < 2084 then 16 + (i - 2080)
  else if i < 2102 then 20
  else if i = 2102 then 21 else 16 + towerQuad (floorTower i)

/-- Number of a loop of a pair within its generator. -/
def loopNo (k ab : Nat) : Nat := if k = 1 ∨ k = 3 ∨ k = 5 then 2 + ab else ab

/-- Whether a loop of a pair is locked within 1 µs of now: 40 µs after its setting and after a loss of lock (R387). -/
def loopLocked (s : State) (i k ab : Nat) : Bool :=
  decide ((tget (0, 0, 0) s.clk.loops (2 * k + ab)).2.2 + 39000 ≤ s.tick)
    && !(s.clk.lost.any (fun x => x.1 == genOf i && x.2.1 == loopNo k ab && decide (s.tick < x.2.2 + 39000)))

/-- Whether an island's switch completes (R392–R394): one that is gated or held in reset passes its bypass; another needs its old
clock and the loop it goes to. -/
def switches (s : State) (k i : Nat) : Bool :=
  islGated s i || (!(noClock s i) && loopLocked s i k (1 - lget 0 s.clk.src k % 2))

/-- CLOCK_SWITCH: every island of the class that can switches to its next pending frequency; in holdover the change is cancelled
(R396). Of two with one tick the one fetched later applies. The reply waits for islands whose switch does not complete. -/
def clockSwitch (k : Nat) (s : State) : State :=
  match firstChange k s.clk.pend with
  | none => s
  | some a =>
    let due := s.clk.pend.filter (fun x => x.cls == k && x.tick == a)
    let s := { modClk s (fun y => { y with pend := y.pend.filter (fun x => !(x.cls == k && x.tick == a)) }) with tick := max s.tick a }
    if s.clk.hold.isSome then due.foldl (fun s x => finish s x.cmd 0x0504 0) s
    else match lastChange due with
      | none => s
      | some x =>
        let s := if k = 0 then countCycles s else s
        let old := lget 0 s.clk.src k % 2
        let was := classMhz s k
        let held := (islOfClass s k).filter (fun i => !(switches s k i))
        let now := (islOfClass s k).filter (switches s k)
        let s := classSwitch k x.mhz s
        let s := modClk s (fun y =>
          { y with unlocked := y.unlocked.filter (fun i => !(now.contains i)),
                   stuck := (held.filter (fun i => (tfind y.stuck i).isNone)).foldl (fun t i => tput i old t) (now.foldl (fun t i => tdel i t) y.stuck),
                   hung := y.hung.filter (fun i => !(now.contains i)),
                   swing := y.swing ++ [{ x with was := was }] })
        let s := setIdle k (swingDone k (logEv s 0x70 7 0 0 0 0 (k * 2 ^ 16 + x.mhz % 65536)))
        (due.filter (fun y => y.cmd != x.cmd)).foldl (fun s y => let f := free s; finish f.2 y.cmd 0 (f.1 % 2 ^ 64)) s

/-! ### Fences of an island (R335, R394, R395) -/

/-- The resource an island's fault names, and its re-verify. -/
def islRes (i : Nat) : List FaultRes :=
  if i < 1024 then [⟨.cluster i, .reverify, false, 1, 0⟩]
  else if i < 2048 then [⟨.pillar (i - 1024), .reverify, false, 5, 0⟩]
  else if 2103 ≤ i ∧ i < 2106 then [⟨.floor (if i = 2103 then 17 else if i = 2104 then 16 else 18), .reverify, false, 1, 0⟩] else []

/-- Jobs with work on an island: of its cluster, of the clusters of its tower, of the commands in flight in its unit, or
every active one. -/
def islJobs (s : State) (i : Nat) : List Nat :=
  if i < 2048 then [jobOfC s (i % 1024)]
  else if i < 2064 then (List.range 64).map (fun k => jobOfC s (64 * (i - 2048) + k))
  else if 2103 ≤ i ∧ i < 2106 then
    (s.cmds.filter (fun c => unitOpcode (if i = 2103 then 17 else if i = 2104 then 16 else 18) c.opc && c.begun && c.status.isNone)).map
      (fun c => queueJob s c.q)
  else activeJobs s

/-- SWITCH_HUNG: a switch that has started has not completed after 1 µs (R394). -/
def switchHung (i : Nat) (s : State) : State :=
  if nIslands ≤ i ∨ s.clk.hung.contains i ∨ (tfind s.clk.stuck i).isNone then s
  else
    let s := modClk s (fun y => { y with hung := y.hung ++ [i] })
    raiseJobs s (islJobs s i) (islRes i) (mkRep s 0x73 7 0 i 0 0 ((match islClass i with | some k => classMhz s k | none => s.clk.core) % 65536))

/-- The escape asked for by CLK_BYPASS.GO: BYPASS_APPLIED, and the fence of an island that was not hung. -/
def bypass (i : Nat) (s : State) : State :=
  if nIslands ≤ i then s
  else
    let was := s.clk.hung.contains i
    let s := escape i s
    let rep := mkRep s 0x74 7 0 i 0 0 1
    let s := if was then sendRep s rep else raiseJobs s (islJobs s i) (islRes i) rep
    match islClass i with | some k => swingDone k s | none => s

/-- Islands that a loop feeds at the time: towers 0–15 (cluster A, B; S layer A, B), quadrants 16–19 (mesh A, B; floor A, B;
fixed), host ports 20, management 21 (core A, B; register bus A, B), always-on 22 (R387). -/
def loopIslands (s : State) (gen loop : Nat) : List Nat :=
  let used := fun k => lget 0 s.clk.src k % 2 == loop % 2
  if gen < 16 then
    (if loop < 2 then (if used 0 then (List.range 64).flatMap (fun k => [64 * gen + k, 1024 + 64 * gen + k]) else [])
     else if loop < 4 then (if used 1 then [2048 + gen] else []) else [])
  else if gen < 20 then
    let q := gen - 16
    (if loop < 2 then (if used 2 then (2080 + q) :: ((List.range 16).filter (fun t => towerQuad t == q)).map (fun t => 2064 + t) else [])
     else if loop < 4 then (if used 3 then [2103, 2104, 2105].filter (fun i => towerQuad (floorTower i) == q) else [])
     else ((List.range 16).filter (fun i => towerQuad (synTower i) == q)).map (fun i => 2084 + i))
  else if gen = 20 then [2100, 2101]
  else if gen = 21 then (if loop < 4 ∧ lget 0 s.clk.src (4 + loop / 2) % 2 = loop % 2 then [2102] else [])
  else if gen = 22 then [2106] else []

/-- PLL_UNLOCK (R395): its islands are restored by the escape at the next compute reset. -/
def pllUnlock (gen loop : Nat) (s : State) : State :=
  let is := loopIslands s gen loop
  let rep := mkRep s 0x71 7 0 0 0 0 (gen % 256 * 16 + loop % 4)
  let js := (is.flatMap (islJobs s)).eraseDups
  let s := modClk s (fun y => { y with
    unlocked := (y.unlocked ++ is).eraseDups,
    lost := y.lost.filter (fun x => !(x.1 == gen && x.2.1 == loop)) ++ [(gen, loop, s.tick)] })
  if is.isEmpty then sendRep s rep else raiseJobs s js [] rep

/-! ### Loss of the reference (R396) -/

/-- A REF_LOSS entry. DETAIL has 52 bits; the code stands in bits [63:62] of the entry's last word. -/
def refRep (s : State) (code : Nat) : Report :=
  mkRep s 0x76 7 0 (code * 1024) 0 0 (match s.clk.hold with | some t => min (2 ^ 40 - 1) (s.tick - t) | none => 0)

def refLoss (s : State) : State :=
  if s.clk.hold.isSome then s
  else
    let s := modClk s (fun y => { y with hold := some s.tick, lossTold := false })
    fset (fset s .CLK_STAT [] Fld.CLK_STAT_REF_OK 0) .SYN_TIME [] Fld.SYN_TIME_LOCKED 0

def holdoverTimeout (s : State) : State :=
  if s.clk.hold.isNone || s.clk.lossTold then s
  else
    let s := modClk s (fun y => { y with lossTold := true })
    let s := emit s (.pin "ALERT_N" 0)
    raiseJobs s (activeJobs s) [] (refRep s 0)

/-- REF_RETURN: pending changes whose tick fell in holdover are cancelled. -/
def refReturn (s : State) : State :=
  if s.clk.hold.isNone then s
  else
    let s := sendRep s (refRep s 1)
    let gone := s.clk.pend.filter (fun x => decide (x.tick ≤ s.tick))
    let s := gone.foldl (fun s x => finish s x.cmd 0x0504 0) s
    let t := fset (modClk s (fun y => { y with hold := none, lossTold := false, pend := y.pend.filter (fun x => decide (s.tick < x.tick)) }))
      .CLK_STAT [] Fld.CLK_STAT_REF_OK 1
    if alertOn s && !(alertOn t) then emit t (.pin "ALERT_N" 1) else t

def holdoverLimit (s : State) : State :=
  if s.clk.hold.isNone then s else { s with boot := { s.boot with life := .held } }

/-! ### Management clocks (R397) -/

/-- The nearest step of a range; which of two at one distance is open. -/
def nearStep (lo hi st v : Nat) (s : State) : Nat × State :=
  let v := min hi (max lo v)
  let d := v / st * st
  if 2 * (v - d) < st then (d, s)
  else if st < 2 * (v - d) then (d + st, s)
  else let f := free s; (if f.1 % 2 = 0 then d else d + st, f.2)

/-- The idle loops of the management pairs are set for the first values that wait. -/
def mgmtIdle (s : State) : State :=
  match s.clk.mgmt with
  | [] => s
  | (c, r) :: _ => setLoop 5 r (setLoop 4 c s)

/-- CLK_MGMT is written; its values take effect through their pairs 50 µs later, one write after the other. -/
def clkMgmtWrite (v : Nat) (s : State) : State :=
  let s := fset (fset s .CLK_MGMT [] Fld.CLK_MGMT_CORE_MHZ (bits v 15 0)) .CLK_MGMT [] Fld.CLK_MGMT_RBUS_MHZ (bits v 31 16)
  let a := nearStep 400 1200 50 (bits v 15 0) s
  let b := nearStep 250 600 25 (bits v 31 16) a.2
  mgmtIdle (modClk b.2 (fun y => { y with mgmt := y.mgmt ++ [(a.1, b.1)] }))

def mgmtClockChange (s : State) : State :=
  match s.clk.mgmt with
  | [] => s
  | (c, r) :: rest =>
    let flip := fun (l : List Nat) k => lset l k (1 - lget 0 l k % 2)
    mgmtIdle (modClk s (fun y => { y with mgmt := rest, core := c, rbus := r, src := flip (flip y.src 4) 5 }))

/-- Whether the ratio in force lies outside 2 to 8 (R397). -/
def ratioBad (s : State) : Option Fault :=
  if s.clk.core < 2 * s.clk.rbus ∨ 8 * s.clk.rbus < s.clk.core then some .mgmtClockRatio else none

/-! ### Gating (R398) -/

/-- Whether the block of a gate bit is in use. -/
def blockUsed (s : State) (b : Nat) : Bool :=
  if b < 16 then portState s b != 0
  else if b < 18 then portRole s (b - 16) != 0
  else b == 18 && s.colls.any (fun c => c.begun)

/-- The observation output is held low (R465). -/
def obsLow (s : State) : State := emit (emit s (.pin "CLKOBS_P" 0)) (.pin "CLKOBS_N" 1)

/-- CLK_GATE is written, bit by bit. The clock of the observation output stops low with its block, and a port whose clock
returns trains when the layer is enabled. -/
def clkGateWrite (v : Nat) (s : State) : State :=
  let rej := (List.range 20).any (fun b => tbit v b && !(gateBit s b) && blockUsed s b)
  let w := foldUp 20 (fun n b => if tbit v b && (gateBit s b || !(blockUsed s b)) then n + 2 ^ b else n) 0
  let back := (List.range 16).filter (fun b => gateBit s b && !(tbit w b))
  let s := if tbit w 19 && !(gateBit s 19) then obsLow s else s
  let s := rput s .CLK_GATE [] w
  let s := if fbit s .SYN_CFG [] Fld.SYN_CFG_EN then back.foldl (fun s p => if portState s p = 0 then setPortState s p 1 else s) s else s
  if rej then fset s .CLK_STAT [] Fld.CLK_STAT_GATE_REJ 1 else s

/-! ### Observation output (R402) -/

/-- Whether the output is held low: above 500 MHz, an island gated or without a clock, SEL above 2,107, or its own clock gated. -/
def obsOver (s : State) : Bool :=
  let sel := fget s .CLK_OBS [] Fld.CLK_OBS_SEL
  let n := min 16 (max 1 (fget s .CLK_OBS [] Fld.CLK_OBS_N))
  let f := if sel = 2107 then 100 else islMhz s sel
  decide (2107 < sel) || decide (500 * 2 ^ n < f) || (decide (sel < 2107) && (islGated s sel || noClock s sel)) || gateBit s 19

/-- CLK_OBS as it reads. -/
def obsStat (s : State) : Nat :=
  setBits (rget s .CLK_OBS []) 62 62 (b2n (fbit s .CLK_OBS [] Fld.CLK_OBS_EN && obsOver s))

/-- CLK_OBS is written: a change of SEL or N, or EN cleared, holds the output low. -/
def clkObsWrite (v : Nat) (s : State) : State :=
  let old := rget s .CLK_OBS []
  let s := rput s .CLK_OBS [] (bits v 63 63 * 2 ^ 63 + bits v 43 32 * 2 ^ 32 + bits v 20 16 * 2 ^ 16)
  if bits old 43 32 = bits v 43 32 ∧ bits old 20 16 = bits v 20 16 ∧ !(tbit old 63 && !(tbit v 63)) then s else obsLow s

/-- CLK_BYPASS is written. -/
def clkBypassWrite (v : Nat) (s : State) : State :=
  let s := rput s .CLK_BYPASS [] (bits v 11 0)
  if tbit v 63 then bypass (bits v 11 0) s else s

/-! ### Margin monitors (R400, R401) -/

/-- A measurement, slack in ps: the trim moves one step, and below 0 at full trim one cycle in 16 is dropped, 10 µs of them
between two measurements. -/
def marginMeasure (i : Nat) (slack : Int) (s : State) : State :=
  if 1024 ≤ i ∨ islGated s i ∨ noClock s i then s
  else
    let trim := trimOf s i
    let cal := (tget [] s.clk.cal i).contains (classMhz s 0)
    let low := s.clk.low.contains i
    let s := if low then finc s .CLK_ISL_STAT [i] Fld.CLK_ISL_STAT_STRETCH (10 * classMhz s 0 / 16) else s
    let t' := if !cal then 0 else if slack < 30 then min 10 (trim + 1) else if 60 < slack then max (-10) (trim - 1) else trim
    let s := fset s .CLK_ISL_STAT [i] Fld.CLK_ISL_STAT_TRIM (wrap 8 t')
    if slack < 0 ∧ trim = 10 then
      if low then s
      else logEv (modClk s (fun y => { y with low := i :: y.low })) 0x75 7 0 i 0 0 (wrap 16 slack)
    else modClk s (fun y => { y with low := y.low.filter (fun x => !(x == i && decide (0 ≤ slack))) })

/-- Whether an island has run for 1 s at one frequency with its K-layer sensor good and steady within 2 °C over 100 ms (R401). -/
def calReady (s : State) (i : Nat) : Bool :=
  let k := 212 * (i / 64) + i % 64
  decide (max s.clk.ranAt (tget 0 s.clk.ranOf i) + 10 ^ 9 ≤ s.tick) && !(s.thm.excluded.contains k)
    && (match tfind s.thm.steady k with | some x => decide (x.2 + 10 ^ 8 ≤ s.tick) | none => false)

/-- A calibration at the frequency in force. -/
def marginCalibrate (i : Nat) (s : State) : State :=
  if 1024 ≤ i ∨ islGated s i ∨ noClock s i ∨ !(calReady s i) then s
  else
    let l := tget [] s.clk.cal i
    if l.contains (classMhz s 0) then s
    else modClk s (fun y => { y with cal := tput i (classMhz s 0 :: l) y.cal })

def execClkSync (k : Nat) (s : State) : Res3 := s.run (cmdStart k 0x81 clkSync)
def execClockSwitch (cls : Fin 4) (s : State) : Res3 := s.run (clockSwitch cls.val)
def execSwitchHung (isl : Nat) (s : State) : Res3 := s.run (switchHung isl)
def execPllUnlock (gen : Nat) (loop : Fin 5) (s : State) : Res3 := s.run (pllUnlock gen loop.val)
def execRefLoss (s : State) : Res3 := s.run refLoss
def execHoldoverTimeout (s : State) : Res3 := s.run holdoverTimeout
def execRefReturn (s : State) : Res3 := s.run refReturn
def execHoldoverLimit (s : State) : Res3 := s.run holdoverLimit
def execMgmtClockChange (s : State) : Res3 := s.run mgmtClockChange
def execMarginMeasure (isl : Nat) (slack : Int) (s : State) : Res3 := s.run (marginMeasure isl slack)
def execMarginCalibrate (isl : Nat) (s : State) : Res3 := s.run (marginCalibrate isl)

end Sys2Proof.Machine
end

