-- ==== Sys2Proof/Machine/Thermal.lean ====
section
/-! DEFINITION. Thermal sensing and control (R404–R422), and the millisecond boundary, which the power latch, the thermal
control and the governor share (R368). Temperatures are in 1/16 °C unless a name says otherwise. -/

namespace Sys2Proof.Machine

def modThm (s : State) (f : Thm → Thm) : State := { s with thm := f s.thm }

def modBootMeas (s : State) (x : Nat × Nat × Nat) : State := { s with boot := { s.boot with meas := x } }

/-! ### Nodes and sensors (R404–R406) -/

/-- Node number: tower, layer (0 floor, 1 K, 2 S, 3 + d die d, 19 cap), region. -/
def nodeNum (t y r : Nat) : Nat := 160 * t + 8 * y + r

/-- Layer code of the log (R422). -/
def layerCode (y : Nat) : Nat := if y < 3 then y else 16 + (y - 3)

/-- Row of THM_LIM for a layer. -/
def limRow (y : Nat) : Nat := min y 3

/-- Node of a sensor (R405); a floor sensor stands for its first region. -/
def sensNode (i : Nat) : Nat :=
  let t := i / 212
  let k := i % 212
  if k < 64 then nodeNum t 1 (k / 8)
  else if k < 80 then nodeNum t 2 ((k - 64) / 2)
  else if k < 208 then nodeNum t (3 + (k - 80) / 8) ((k - 80) % 8)
  else nodeNum t 0 (4 * ((k - 208) / 2))

/-- Sensors whose readings give a node's control value: those of a K region, else the node's pair; none for the cap. -/
def nodeSens (n : Nat) : List Nat :=
  let t := n / 160
  let y := n % 160 / 8
  let r := n % 8
  (if y = 0 then [208 + 2 * (r / 4), 209 + 2 * (r / 4)]
   else if y = 1 then (List.range 8).map (fun j => 8 * r + j)
   else if y = 2 then [64 + 2 * r, 65 + 2 * r]
   else if y < 19 then [80 + 8 * (y - 3) + r, 80 + 8 * ((y - 3) ^^^ 1) + r]
   else []).map (fun k => 212 * t + k)

/-- Partner of a sensor, by global index. -/
def sensPair (i : Nat) : Option Nat := (sensPartner (i % 212)).map (fun k => 212 * (i / 212) + k)

def readingOf (s : State) (i : Nat) : Int := tget 0 s.thm.read i

/-- A rational temperature in °C, in 1/16 °C, rounded down. -/
def sixteenths (x : Rat) : Int := (16 * x).floor

/-- Model estimate of a node (R409). -/
def estOf (s : State) (n : Nat) : Int := sixteenths (tget 0 s.thm.tm n + tget 0 s.thm.off n)

def modelReady (s : State) : Bool := fbit s .THM_STAT [] Fld.THM_STAT_MODEL_READY

/-- Highest of a list of readings. -/
def maxInt : List Int → Option Int
  | [] => none
  | x :: r => some (r.foldl max x)

/-- The model's estimate for a hot spot: a die pair shares one, so the higher of the two dies' estimates stands for both (R406;
log entry 165). -/
def spotEst (s : State) (n : Nat) : Int :=
  let y := n % 160 / 8
  if y < 3 || y == 19 then estOf s n else max (estOf s n) (estOf s (nodeNum (n / 160) (3 + ((y - 3) ^^^ 1)) (n % 8)))

/-- Control value of a node (R406); none while both sensors are excluded before the model is ready, and for the cap. -/
def ctrlOf (s : State) (n : Nat) : Option Int :=
  let l := nodeSens n
  let good := l.filter (fun i => !(s.thm.excluded.contains i))
  match maxInt (good.map (readingOf s)) with
  | some v => some v
  | none => if l.isEmpty then none else if modelReady s then some (spotEst s n + 48) else none

def overridden (s : State) (n : Nat) : Bool := s.thm.overrides.any (fun o => o.node == n)

/-- Governing temperature of a node (R413). -/
def govTemp (s : State) (n : Nat) : Option Int := if overridden s n then some (estOf s n) else ctrlOf s n

/-- Thresholds of a layer in 1/16 °C (R414): THR is cut to the fused value and raised to MAX − 20 °C. -/
def limMax (s : State) (y : Nat) : Int := 16 * (fget s .THM_LIM [limRow y] Fld.THM_LIM_MAX : Int)
def limCrit (s : State) (y : Nat) : Int := 16 * (fget s .THM_LIM [limRow y] Fld.THM_LIM_CRIT : Int)
def limShut (s : State) (y : Nat) : Int := 16 * (fget s .THM_LIM [limRow y] Fld.THM_LIM_SHUT : Int)
def limThr (s : State) (y : Nat) : Int :=
  let fused : Int := bits (resetWord .THM_LIM [limRow y]) 15 0
  max (limMax s y - 320) (16 * min fused (fget s .THM_LIM [limRow y] Fld.THM_LIM_THR : Int))

/-- Layer and region bits of a thermal event. -/
def nodeDetail (n : Nat) : Nat := layerCode (n % 160 / 8) * 2 ^ 43 + n % 8 * 2 ^ 40

def logTower (s : State) (ev code n : Nat) (g : Int) : State :=
  logEv s ev 7 3 (n / 160) 0 0 (code * 2 ^ 48 + nodeDetail n + wrap 16 g)

def thmCount (s : State) (i : Nat) : State := finc s .THM_CNT [i] Fld.THM_CNT_COUNT 1

/-! ### Exclusion and the vote (R407, R408) -/

/-- A sensor is excluded: `code` 0 by vote, 1 out of range, 2 no conversion. The other of its pair returns to good: no pair is
left to disagree (R407). -/
def exclude (i code : Nat) (reading : Int) (s : State) : State :=
  if s.thm.excluded.contains i then s
  else
    let s := modThm s (fun x => { x with excluded := i :: x.excluded, suspect := x.suspect.filter (fun k => k != i && some k != sensPair i) })
    thmCount (logEv s 0x7B 7 9 i 0 0 (code * 2 ^ 48 + wrap 16 reading * 2 ^ 16 + wrap 16 (estOf s (sensNode i)))) 3

/-- The model votes on a suspect pair; at equal distance the sensor voted out is open. -/
def vote (i j : Nat) (s : State) : State :=
  let d := fun k => (readingOf s k - estOf s (sensNode k)).natAbs
  let f := free s
  let out := if d j < d i then i else if d i < d j then j else if f.1 % 2 = 0 then i else j
  let s := exclude out 0 (readingOf s out) f.2
  modThm s (fun x => { x with suspect := x.suspect.filter (fun k => k != i && k != j) })

/-- Whether a pair's readings differ by more than 4 °C (R407). -/
def disagree (s : State) (i j : Nat) : Bool := decide (64 < (readingOf s i - readingOf s j).natAbs)

/-- SENSOR_SUSPECT: a disagreement has lasted 100 ms (R407). -/
def sensorSuspect (i : Nat) (s : State) : State :=
  match sensPair i with
  | none => s
  | some j =>
    if s.thm.excluded.contains i || s.thm.excluded.contains j || s.thm.suspect.contains i || !(disagree s i j) then s
    else
      let s := logEv s 0x7A 7 9 i 0 0 (j * 2 ^ 32 + wrap 16 (readingOf s i) * 2 ^ 16 + wrap 16 (readingOf s j))
      let s := modThm s (fun x => { x with suspect := i :: j :: x.suspect })
      if modelReady s then vote i j s else s

/-- SENSOR_PAIR_RECOVER: a suspect pair's readings have stayed within 2 °C for 1 s (R407). -/
def sensorPairRecover (i : Nat) (s : State) : State :=
  match sensPair i with
  | none => s
  | some j =>
    if 32 < (readingOf s i - readingOf s j).natAbs then s
    else modThm s (fun x => { x with suspect := x.suspect.filter (fun k => k != i && k != j) })

def sensorConvTimeout (i : Nat) (s : State) : State := exclude i 2 (readingOf s i) s

/-! ### Critical towers and shutdown (R418, R419) -/

/-- A tower turns critical at a node: its allowance falls to its idle share. -/
def goCritical (n : Nat) (g : Int) (s : State) : State :=
  let t := n / 160
  if fbit s .THM_TWR [t] Fld.THM_TWR_CRIT then s
  else
    let s := fset (fset s .THM_TWR [t] Fld.THM_TWR_CRIT 1) .THM_TWR [t] Fld.THM_TWR_W (Config.towerIdle t)
    let s := fset s .THM_STAT [] Fld.THM_STAT_CRIT (setBits (fget s .THM_STAT [] Fld.THM_STAT_CRIT) t t 1)
    thmCount (logTower s 0x79 0 n g) 1

/-- Thermal shutdown at a node: every rail but the always-on domain is off, the contacts are driven and THM_TRIP latches. -/
def shutdown (n : Nat) (g : Int) (s : State) : State :=
  let s := raiseJobs s (activeJobs s) [] (mkRep s 0x7F 7 3 (n / 160) 0 0 (nodeDetail n + wrap 16 g))
  let s := rput s .THM_TRIP [] (2 ^ 63 + n / 160 * 2 ^ 52 + layerCode (n % 160 / 8) * 2 ^ 47 + n % 8 * 2 ^ 44 + wrap 16 g)
  emit (emit { s with boot := { s.boot with life := .shut, trip := true } } (.pin "THERMTRIP_N" 0)) (.pin "ALERT_N" 0)

/-- A sample of a sensor (R404): range, shutdown and critical checks on it and the sample before it. -/
def sensorSample (i : Nat) (v : Int) (s : State) : State :=
  if s.thm.excluded.contains i then s
  else if v < -640 ∨ 2400 < v then exclude i 1 v s
  else
    let prev := tfind s.thm.last i
    let n := sensNode i
    let y := n % 160 / 8
    let s := modThm s (fun x =>
      let a := tget (0, 0) x.acc i
      { x with last := tput i v x.last, acc := tput i (a.1 + v, a.2 + 1) x.acc })
    match prev with
    | none => s
    | some w =>
      if limShut s y ≤ v ∧ limShut s y ≤ w then shutdown n v s
      else if limCrit s y ≤ v ∧ limCrit s y ≤ w then goCritical n v s else s

/-- The nodes of a tower with their governing temperatures. -/
def towerTemps (s : State) (t : Nat) : List (Nat × Int) :=
  (List.range 152).filterMap (fun k => (govTemp s (160 * t + k)).map (fun g => (160 * t + k, g)))

/-- The highest of a list of nodes by a key, the first among equals. -/
def hottest (key : Nat × Int → Int) : List (Nat × Int) → Option (Nat × Int)
  | [] => none
  | x :: r => some (r.foldl (fun m y => if key m < key y then y else m) x)

/-- CRITICAL_EXIT: every node is below CRIT − 5 °C; the tower goes on throttled from its idle share. -/
def criticalExit (t : Nat) (s : State) : State :=
  let l := towerTemps s t
  if !(fbit s .THM_TWR [t] Fld.THM_TWR_CRIT) || l.any (fun x => decide (limCrit s (x.1 % 160 / 8) - 80 ≤ x.2)) then s
  else
    let m := (hottest (fun x => x.2 - limCrit s (x.1 % 160 / 8)) l).getD (160 * t, 0)
    let s := fset (fset s .THM_TWR [t] Fld.THM_TWR_CRIT 0) .THM_TWR [t] Fld.THM_TWR_THROTTLED 1
    let s := fset s .THM_TWR [t] Fld.THM_TWR_W (Config.towerIdle t)
    let s := fset s .THM_STAT [] Fld.THM_STAT_CRIT (setBits (fget s .THM_STAT [] Fld.THM_STAT_CRIT) t t 0)
    let s := fset s .THM_STAT [] Fld.THM_STAT_THROTTLED (setBits (fget s .THM_STAT [] Fld.THM_STAT_THROTTLED) t t 1)
    logTower s 0x79 1 m.1 m.2

/-! ### The layer model (R409–R412) -/

/-- Neighbours of a node: above and below, and the adjacent regions of its layer. -/
def neighbours (n : Nat) : List Nat :=
  let y := n % 160 / 8
  let r := n % 8
  (if y = 0 then [] else [n - 8]) ++ (if y = 19 then [] else [n + 8]) ++ (if r = 0 then [] else [n - 1]) ++ (if r = 7 then [] else [n + 1])

/-- Temperature of the plate, in °C: inlet plus RTH times input power, in the units of THM_COOL (R409, R420). -/
def plateTemp (s : State) : Rat :=
  let v := fbit s .THM_COOL [] Fld.THM_COOL_VALID
  let inlet : Rat := if v then (fget s .THM_COOL [] Fld.THM_COOL_INLET : Rat) / 10 else 45
  let rth : Rat := if v then (fget s .THM_COOL [] Fld.THM_COOL_RTH : Rat) / 100000 else 1 / 100
  inlet + rth * (fget s .PWR_IN [] Fld.PWR_IN_PIN : Rat)

/-- Where the model starts (R411): control values, and the cap from D15. A node with no control value starts at an open
temperature. -/
def modelStart (s : State) : State :=
  let base := s.freeCtr
  let val := fun n => match ctrlOf s n with | some v => (v : Rat) / 16 | none => (Config.freeNat (base + n) : Rat) / 16
  let tm := (List.range 2560).map (fun n => (n, if n % 160 / 8 = 19 then val (n - 8) else val n))
  { modThm s (fun x => { x with tm := tm }) with freeCtr := base + 2560 }

/-- Rail power of a domain in 10 µW: currents in 10 mA times setpoints in mV. -/
def domPower (s : State) (d : Nat) : Nat :=
  let x := tget (0, 0) s.pwr.cur d
  x.1 * vset s d + (if d < 1024 then x.2 * 800 else 0)

/-- VCORE power of a cluster domain, and its VPIL power, in W. -/
def coreWatts (s : State) (c : Nat) : Rat := (((tget (0, 0) s.pwr.cur c).1 * vset s c : Nat) : Rat) / 100000
def pilWatts (s : State) (c : Nat) : Rat := (((tget (0, 0) s.pwr.cur c).2 * 800 : Nat) : Rat) / 100000

/-- The part of a count in the whole; none of an empty whole. -/
def partOf (k total : Nat) : Option Rat := if total = 0 then none else some ((k : Rat) / (total : Rat))

/-- The heat p[n] of a node, in W, from the domain currents last latched (R410). -/
def nodeHeat (s : State) (m : Measured) (n : Nat) : Rat :=
  let t := n / 160
  let y := n % 160 / 8
  let r := n % 8
  let sum := fun (l : List Nat) (f : Nat → Rat) => l.foldl (fun (a : Rat) x => a + f x) 0
  let cs := (List.range 8).map (fun k => 64 * t + 8 * r + k)
  let sShare := fun c => Config.coreShare c (tget 0 m.spAcc c)
  if y = 0 then
    sum ((List.range 11).map (fun i => 1040 + i)) (fun d => ((domPower s d : Nat) : Rat) / 100000 * Config.floorShare d n)
      + sum (List.range 1051) (fun d => Config.regLoss d (domPower s d) * Config.floorShare d n)
      + ((fget s .PWR_BUF [] Fld.PWR_BUF_SHUNT : Nat) : Rat) / 128
  else if y = 1 then sum cs (fun c => coreWatts s c * (1 - sShare c))
  else if y = 2 then
    let looks := fun k => tget 0 m.looks (64 * t + k)
    let all := foldUp 64 (fun a k => a + looks k) 0
    let mine := foldUp 8 (fun a k => a + looks (8 * r + k)) 0
    sum cs (fun c => coreWatts s c * sShare c)
      + ((domPower s (1024 + t) : Nat) : Rat) / 100000 * (partOf mine all).getD (Config.idleShare (1024 + t) n)
  else if y = 19 then 0
  else
    sum cs (fun c => pilWatts s c * (partOf (tget 0 m.cols (16 * c + (y - 3))) (foldUp 16 (fun a d => a + tget 0 m.cols (16 * c + d)) 0)).getD
      (Config.idleShare c n))

/-- One step of the model (R409). -/
def modelStep (m : Measured) (s : State) : State :=
  let tm := fun n => tget 0 s.thm.tm n
  let plate := plateTemp s
  let next := (List.range 2560).map (fun n =>
    let q : Rat := nodeHeat s m n - (neighbours n).foldl (fun a m => a + (tm n - tm m) / Config.heatResistance n m) 0
    let q : Rat := if n % 160 / 8 = 19 then q - (tm n - plate) / Config.capResistance n else q
    (n, tm n + q / 1000 / Config.heatCapacity n))
  modThm s (fun x => { x with tm := next, steps := x.steps + 1 })

/-- During the first 10 s the differences between control value and model enter the offsets (R411). -/
def offsetStep (s : State) : State :=
  if modelReady s || decide (10000 < s.thm.steps) then s
  else
    let bad := (List.range 2560).filter (fun n => (nodeSens n).any (fun i => sensStatus s i != 0))
    let sum := (List.range 2560).filterMap (fun n => (ctrlOf s n).map (fun v => (n, tget 0 s.thm.offSum n + (v : Rat) / 16 - tget 0 s.thm.tm n)))
    modThm s (fun x => { x with offSum := sum, offBad := (x.offBad ++ bad).eraseDups })

/-- MODEL_READY: offsets of the nodes whose sensors stayed good; the vote on suspect pairs is taken (R407). -/
def modelReadyNow (s : State) : State :=
  if modelReady s || s.thm.tm.isEmpty then s
  else
    let n : Rat := min 10000 s.thm.steps
    let off := (s.thm.offSum.filter (fun e => !(s.thm.offBad.contains e.1))).map (fun e => (e.1, e.2 / n))
    let s := fset (modThm s (fun x => { x with off := off })) .THM_STAT [] Fld.THM_STAT_MODEL_READY 1
    let s := logEv s 0x7D 7 0 0 0 0 (off.length % 4096)
    s.thm.suspect.foldl (fun s i => match sensPair i with
      | some j => if s.thm.suspect.contains i && decide (i < j) then vote i j s else s
      | none => s) s

/-- How far a node's estimate exceeds its control value. -/
def excess (s : State) (n : Nat) : Int := match ctrlOf s n with | some v => estOf s n - v | none => 0

def logOverride (s : State) (code n : Nat) : State :=
  logEv s 0x7C 7 3 (n / 160) 0 0 (code * 2 ^ 48 + nodeDetail n + wrap 16 (estOf s n) * 2 ^ 16 + wrap 16 ((ctrlOf s n).getD 0))

/-- THM_TWR.OVERRIDE follows the overrides of the tower. -/
def showOverride (t : Nat) (s : State) : State :=
  fset s .THM_TWR [t] Fld.THM_TWR_OVERRIDE (b2n (s.thm.overrides.any (fun o => o.node / 160 == t)))

/-- MODEL_OVERRIDE: an S or D node whose estimate exceeds its control value by more than 6 °C. -/
def modelOverride (n : Nat) (s : State) : State :=
  let y := n % 160 / 8
  if !(modelReady s) || overridden s n || decide (y < 2) || y == 19 || decide (excess s n ≤ 96) then s
  else showOverride (n / 160) (thmCount (logOverride (modThm s (fun x => { x with overrides := x.overrides ++ [⟨n, false⟩] })) 0 n) 2)

/-- MODEL_OVERRIDE_END: the excess is 3 °C or less. -/
def modelOverrideEnd (n : Nat) (s : State) : State :=
  if !(overridden s n) || decide (48 < excess s n) then s
  else
    let s := logOverride s 1 n
    showOverride (n / 160) (modThm s (fun x =>
      { x with overrides := x.overrides.filter (fun o => o.node != n),
               estCrit := x.estCrit.filter (fun k => k != n), estShut := x.estShut.filter (fun k => k != n) }))

/-- Estimates of overridden nodes count as samples for the critical and shutdown rules (R418). -/
def overrideSamples (s : State) : State :=
  let l := s.thm.overrides.map (fun o => (o.node, estOf s o.node))
  let crit := l.filter (fun x => decide (limCrit s (x.1 % 160 / 8) ≤ x.2))
  let shut := l.filter (fun x => decide (limShut s (x.1 % 160 / 8) ≤ x.2))
  let was := s.thm
  let s := modThm s (fun x =>
    { x with estCrit := crit.map (fun x => x.1), estShut := shut.map (fun x => x.1),
             overrides := x.overrides.map (fun o => { o with low := decide (excess s o.node ≤ 48) }) })
  let s := (crit.filter (fun x => was.estCrit.contains x.1)).foldl (fun s x => goCritical x.1 x.2 s) s
  match shut.filter (fun x => was.estShut.contains x.1) with
  | [] => s
  | x :: _ => shutdown x.1 x.2 s

/-! ### The tower controller (R415–R417) -/

/-- Rail power of a tower over the last millisecond, in W. -/
def towerPower (s : State) (t : Nat) : Nat :=
  (foldUp 64 (fun n k => n + domPower s (64 * t + k)) (domPower s (1024 + t))) / 100000

/-- Nodes of a tower with both sensors excluded before the model is ready: the tower is throttled as though they governed it
at their throttle threshold (R406). -/
def blindNodes (s : State) (t : Nat) : List (Nat × Int) :=
  (List.range 152).filterMap (fun k =>
    if (govTemp s (160 * t + k)).isNone then some (160 * t + k, limThr s ((160 * t + k) % 160 / 8)) else none)

/-- The decrease of one millisecond, in W: x in 1/16 °C, at most 20. -/
def decrease (x span : Int) : Nat := min 20 (Int.toNat (-(-(20 * (max x 0 + 16)) / (16 * span))))

/-- R415 for one tower: its allowance, its throttle and their events. -/
def towerStep (demand : List Nat) (s : State) (t : Nat) : State :=
  let l := towerTemps s t
  let m := (hottest (fun x => x.2 - limThr s (x.1 % 160 / 8)) (l ++ blindNodes s t)).getD (nodeNum t 1 0, limThr s 1 - 16)
  let y := m.1 % 160 / 8
  let x := m.2 - limThr s y
  let g := m.2
  let p := towerPower s t
  let ovr := s.thm.overrides.filter (fun o => o.node / 160 == t)
  let was := fbit s .THM_TWR [t] Fld.THM_TWR_THROTTLED
  let crit := fbit s .THM_TWR [t] Fld.THM_TWR_CRIT
  let start := !was && (decide (0 ≤ x) || !ovr.isEmpty)
  let s := modThm s (fun z => { z with towerW := lset (if z.towerW.isEmpty then List.replicate 16 0 else z.towerW) t p })
  let s := fset s .THM_TWR [t] Fld.THM_TWR_GMAX (wrap 16 (((hottest (fun x => x.2) l).getD (0, 0)).2))
  let s := if start then
      let s := fset s .THM_TWR [t] Fld.THM_TWR_THROTTLED 1
      let s := if crit then s else fset s .THM_TWR [t] Fld.THM_TWR_W p
      let s := fset s .THM_STAT [] Fld.THM_STAT_THROTTLED (setBits (fget s .THM_STAT [] Fld.THM_STAT_THROTTLED) t t 1)
      thmCount (logTower s 0x78 0 m.1 g) 0
    else s
  if crit || !(was || start) then s
  else
    let w := fget s .THM_TWR [t] Fld.THM_TWR_W
    let f := free s
    let s := modThm f.2 (fun z => { z with duty := tput t (1 + f.1 % 64) z.duty })
    if 0 ≤ x ∨ ovr.any (fun o => decide (48 < excess s o.node)) then
      fset s .THM_TWR [t] Fld.THM_TWR_W (max (Config.towerIdle t) (w - decrease x ((limMax s y - limThr s y) / 16 + 1)))
    else if !ovr.isEmpty then s
    else if x < -32 then
      if lget 0 demand t + 50 ≤ w + 1 then
        let s := fset (fset s .THM_TWR [t] Fld.THM_TWR_THROTTLED 0) .THM_TWR [t] Fld.THM_TWR_W 0xFFFF
        let s := fset s .THM_STAT [] Fld.THM_STAT_THROTTLED (setBits (fget s .THM_STAT [] Fld.THM_STAT_THROTTLED) t t 0)
        logTower s 0x78 1 m.1 g
      else fset s .THM_TWR [t] Fld.THM_TWR_W (w + 1)
    else s

/-- The module thermal limit (R417). With no power drawn at the rails η is not defined, and the limit is open. -/
def moduleLimit (s : State) : State :=
  let any_ := fget s .THM_STAT [] Fld.THM_STAT_THROTTLED != 0
  let total := foldUp 1051 (fun n d => n + domPower s d) 0
  let floor_ := (List.range 11).foldl (fun n i => n + domPower s (1040 + i)) 0
  let a := foldUp 16 (fun n t =>
    n + (if fbit s .THM_TWR [t] Fld.THM_TWR_THROTTLED || fbit s .THM_TWR [t] Fld.THM_TWR_CRIT then fget s .THM_TWR [t] Fld.THM_TWR_W
         else fget s .THM_TWR [t] Fld.THM_TWR_TMAX)) 0
  let pin := fget s .PWR_IN [] Fld.PWR_IN_PIN
  let f := free s
  let lim : Nat × State := if !any_ then (0xFFFF, s)
    else if total = 0 then (f.1 % 0xFFFF, f.2)
    else (min 0xFFFE ((100000 * a + floor_) * pin / total), s)
  fset lim.2 .THM_STAT [] Fld.THM_STAT_LIMIT (if fbit s .THM_COOL [] Fld.THM_COOL_VALID then lim.1 else min lim.1 2000)

/-- Die regions above 85 °C (R62): in at the first value above, out after ten in a row at or below 82 °C. -/
def hotStep (s : State) : State :=
  let hot := (List.range 2048).filterMap (fun k =>
    let n := nodeNum (k / 128) (3 + k % 128 / 8) (k % 8)
    match govTemp s n, tfind s.thm.hot n with
    | some g, none => if 1360 < g then some (n, 0) else none
    | some g, some c => if g ≤ 1312 then (if 9 ≤ c then none else some (n, c + 1)) else some (n, 0)
    | none, some c => some (n, c)
    | none, none => none)
  modThm s (fun x => { x with hot := hot })

/-- A cooling descriptor accepted in the last millisecond takes effect (R420). -/
def coolStep (s : State) : State :=
  match s.thm.cool with
  | none => s
  | some w =>
    let s := rput (modThm s (fun x => { x with cool := none })) .THM_COOL [] (2 ^ 63 + w % 2 ^ 48)
    logEv s 0x7E 7 0 0 0 0 (w % 2 ^ 48)

/-- The readings of the millisecond just ended: the mean of its samples, rounded down. -/
def latchReadings (s : State) : State :=
  let mean := s.thm.acc.map (fun e => (e.1, e.2.1 / (e.2.2 : Int)))
  let steady := (mean.filter (fun e => decide (e.1 % 212 < 64))).foldl (fun (t : Tbl (Int × Nat)) e =>
    match tfind t e.1 with
    | some x => if (e.2 - x.1).natAbs ≤ 32 then t else tput e.1 (e.2, s.tick) t
    | none => tput e.1 (e.2, s.tick) t) s.thm.steady
  modThm s (fun x => { x with acc := [], read := mean.foldl (fun t e => tput e.1 e.2 t) x.read, steady := steady })

/-- The thermal control at a boundary, after the currents are latched. -/
def thermalStep (m : Measured) (s : State) : State :=
  let s := coolStep (latchReadings s)
  let s := if s.thm.tm.isEmpty then modelStart s else s
  let s := overrideSamples (offsetStep (modelStep m s))
  let s := foldUp 16 (towerStep m.towerDemand) s
  hotStep (moduleLimit s)

/-- MEASURE (R437): the idle power and the ballast maximum are the means of the input power over 100 ms each, rounded down; the
first starts when the envelope has settled at demand, the second when every ballast source runs at full duty. -/
def measureStep (m : Measured) (s : State) : State :=
  if fget s .BOOT_STAT [] Fld.BOOT_STAT_STAGE ≠ 12 then s
  else
    let go := fun (s : State) (x : Nat × Nat × Nat) => modBootMeas s x
    let p := s.boot.meas
    let full := decide (s.pwr.bal = matrixRoom s + 4094)
    match p.1 with
    | 0 => if s.pwr.prev = s.pwr.env ∧ s.pwr.env = max m.demand (floorMw s) then go s (1, 0, 0) else s
    | 1 =>
      if p.2.1 + 1 < 100 then go s (1, p.2.1 + 1, p.2.2 + m.pin)
      else go (fset s .PWR_REF [] Fld.PWR_REF_IDLE ((p.2.2 + m.pin) / 100000)) (2, 0, 0)
    | 2 => if full then go s (3, 0, 0) else s
    | 3 =>
      if p.2.1 + 1 < 100 then go s (3, p.2.1 + 1, p.2.2 + m.pin)
      else go (fset s .PWR_REF [] Fld.PWR_REF_BALLAST_MAX ((p.2.2 + m.pin) / 100000)) (4, 0, 0)
    | _ => s

/-- MILLISECOND_BOUNDARY (R368): the measurements are latched, then the thermal control and the governor act. -/
def millisecondBoundary (m : Measured) (s : State) : State :=
  let s := thermalStep m (latchSnap (boundaryTick s) m s)
  if s.alive then governStep m (measureStep m s) else s

/-! ### Cooling descriptor and registers (R420, R421) -/

/-- THM_COOL is written. -/
def thmCoolWrite (v : Nat) (s : State) : State :=
  let inlet := bits v 47 32
  if inlet < 170 ∨ 450 < inlet ∨ bits v 31 16 < 20 ∨ bits v 15 0 = 0 then fset s .THM_STAT [] Fld.THM_STAT_COOL_ERR 1
  else modThm s (fun x => { x with cool := some (v % 2 ^ 48) })

/-- THM_SENS as it reads. -/
def sensWord (s : State) (i : Nat) : Nat :=
  let n := sensNode i
  sensStatus s i * 2 ^ 62 + (if s.thm.steps = 0 then 0 else wrap 16 (estOf s n)) * 2 ^ 32
    + wrap 16 ((ctrlOf s n).getD 0) * 2 ^ 16 + wrap 16 (readingOf s i)

/-- The 27,328 bytes of the thermal snapshot. -/
def thermalSnap (s : State) : List Byte :=
  let w := rget s .THM_COOL []
  leBytes 8 (lget 0 s.pwr.snap 0) ++ leBytes 2 (bits w 47 32) ++ leBytes 2 (bits w 31 16) ++ leBytes 2 (bits w 15 0)
    ++ leBytes 1 (b2n (modelReady s) + 2 * b2n (tbit w 63)) ++ leBytes 49 0
    ++ (List.range 3392).flatMap (fun i => leBytes 8 (sensWord s i))
    ++ (List.range 16).flatMap (fun t => leBytes 8 (rget s .THM_TWR [t]))

/-- TELEM_SNAP with KIND 1. -/
def telemThermal (c : Cmd) (s : State) : State :=
  if snapDenied s c then finishPost s c 0x0701 0
  else
    let w := accWrite s (agentOf s c) (par c 0 8) (thermalSnap s)
    finishPost w.2 c w.1 0

def execMillisecondBoundary (m : Measured) (s : State) : Res3 := s.run (millisecondBoundary m)
def execSensorSample (i : Fin 3392) (v : Int) (s : State) : Res3 := s.run (sensorSample i.val v)
def execSensorConvTimeout (i : Fin 3392) (s : State) : Res3 := s.run (sensorConvTimeout i.val)
def execSensorSuspect (i : Fin 3392) (s : State) : Res3 := s.run (sensorSuspect i.val)
def execSensorPairRecover (i : Fin 3392) (s : State) : Res3 := s.run (sensorPairRecover i.val)
def execModelReady (s : State) : Res3 := s.run modelReadyNow
def execModelOverride (t : Fin 16) (layer : Fin 20) (r : Fin 8) (s : State) : Res3 := s.run (modelOverride (nodeNum t.val layer.val r.val))
def execModelOverrideEnd (t : Fin 16) (layer : Fin 20) (r : Fin 8) (s : State) : Res3 :=
  s.run (modelOverrideEnd (nodeNum t.val layer.val r.val))
def execCriticalExit (t : Fin 16) (s : State) : Res3 := s.run (criticalExit t.val)
def execTelemSnapThermal (k : Nat) (s : State) : Res3 :=
  s.run (fun s => match cmdOf s k with | some c => if par c 8 1 = 1 then cmdStart k 0x91 telemThermal s else s | none => s)

end Sys2Proof.Machine
end

