-- ==== Sys2Proof/Machine/Bringup.lean ====
section
/-! DEFINITION. Cold reset and bring-up (R423–R437, R441, R442), input power and the package's management contacts
(R359, R466–R469). -/

namespace Sys2Proof.Machine

def modBoot (s : State) (f : Boot → Boot) : State := { s with boot := f s.boot }

/-! ### Cold reset (R423, R424) -/

/-- Power is lost or a cold reset begins: an entry of the field repair record whose programming is cut short fails its CRC;
whether one is, is open (R435, R441; log entry 86). -/
def frrTear (s : State) : State :=
  let n := s.boot.frrOpen
  let l := s.boot.frr
  let cut := (l.drop (l.length - n)).zipIdx.map (fun e =>
    { e.1 with ok := e.1.ok && Config.freeNat (s.freeCtr + e.2) % 2 == 1 })
  { modBoot s (fun b => { b with frr := l.take (l.length - n) ++ cut, frrOpen := 0 }) with freeCtr := s.freeCtr + n }

/-- A cold reset from a source, given as its bit of RST_CAUSE. Power-on registers, fuses, the ledger and the credentials
stay; every Synur port goes down after a LEAVE; bring-up starts at its first stage. -/
def coldReset (bit : Nat) (s : State) : State :=
  let s := if s.alive && fbit s .SYN_CFG [] Fld.SYN_CFG_EN then synDisable s else s
  let s := frrTear (ledgerTear s)
  let s := if alertOn s then emit s (.pin "ALERT_N" 1) else s
  let s := if s.boot.trip then emit s (.pin "THERMTRIP_N" 1) else s
  let kept := (regsReset (fun r => r.desc.domain != .powerOn) s).regs
  let minSvn := fget s .BOOT_FW [] Fld.BOOT_FW_MIN_SVN
  let cred := rget s .LCS_STAT []
  let t : State :=
    { State.reset with
      pending := s.pending, freeCtr := s.freeCtr, mem := s.mem, chk := s.chk, out := s.out, regs := kept,
      lcs := { Lcs.init with records := s.lcs.records, keys := s.lcs.keys },
      boot := { Boot.init with frr := s.boot.frr, mfg := s.boot.mfg, trst := s.boot.trst, tap := s.boot.tap, raises := s.boot.raises } }
  let t := if minSvn = fget t .BOOT_FW [] Fld.BOOT_FW_MIN_SVN then t else fset t .BOOT_FW [] Fld.BOOT_FW_MIN_SVN minSvn
  let t := if s.boot.raises = 0 then t else fset t .BOOT_FW_CTL [] Fld.BOOT_FW_CTL_RAISES_LEFT (32 - s.boot.raises)
  let t := fset (fset (fset t .LCS_STAT [] Fld.LCS_STAT_COMMISSIONED (bits cred 63 63)) .LCS_STAT [] Fld.LCS_STAT_BOUND (bits cred 47 40))
    .LCS_STAT [] Fld.LCS_STAT_REVOKED (bits cred 39 32)
  let t := rput t .RST_CAUSE [] (2 ^ bit)
  let t := if s.boot.fresh then t else finc t .RST_CNT [] Fld.RST_CNT_COLD 1
  if bit = 6 then finc t .RST_CNT [] Fld.RST_CNT_WDOG 1 else t

/-- Whether a cold-reset source other than input power acts: the device is powered, not dark, and RESET_N is high. -/
def canReset (s : State) : Bool :=
  s.boot.vin && !s.boot.resetN && (s.boot.life == .run || s.boot.life == .halted || s.boot.life == .held || s.boot.life == .shut)

/-- POWER_ON: VIN reaches its operating range. With RESET_N low the cold reset waits for its release. -/
def powerOn (s : State) : State :=
  if s.boot.vin || s.boot.life == .dark then s
  else
    let s := modBoot s (fun b => { b with vin := true })
    if s.boot.resetN then s else coldReset 1 s

/-- POWER_LOSS (R359): the converters stop. A device whose always-on domain is dark stays so. -/
def powerLoss (mv : Nat) (s : State) : State :=
  if (36000 < mv ∧ mv ≤ 63000) ∨ !s.boot.vin then s
  else
    let s := frrTear (ledgerTear s)
    modBoot s (fun b => { b with vin := false, life := if b.life == .dark then .dark else .standby })

/-- POWER_REMOVED (R469): VIN stays below 10 V for 100 ms; the power-on domain is reset. -/
def powerRemoved (s : State) : State :=
  let s := frrTear (ledgerTear s)
  let s := if s.boot.trip then emit s (.pin "THERMTRIP_N" 1) else s
  let s := regsReset (fun r => r.desc.domain == .powerOn) s
  modBoot s (fun b => { b with vin := false, life := .unpowered, trip := false, alert := false, fresh := true })

/-- STANDBY_RAIL_UP (R466). -/
def standbyUp (s : State) : State :=
  if s.boot.life == .unpowered then modBoot s (fun b => { b with life := .standby }) else s

/-- Contacts of the flash interface. -/
def spiPins : List String := ["SPI_SCK", "SPI_CS_N", "SPI_IO0", "SPI_IO1", "SPI_IO2", "SPI_IO3"]

/-- RESET_N_ASSERT (R467). -/
def resetAssert (s : State) : State :=
  if s.boot.resetN then s
  else
    let s := modBoot s (fun b => { b with resetN := true })
    if s.boot.life == .unpowered then s else spiPins.foldl (fun s n => emit s (.pin n 2)) s

/-- RESET_N_RELEASE: with VIN in range the cold reset begins, unless the always-on domain is dark. -/
def resetRelease (s : State) : State :=
  if !s.boot.resetN then s
  else
    let s := modBoot s (fun b => { b with resetN := false })
    if s.boot.vin && s.boot.life != .dark then coldReset 2 s else s

/-- PERST_COLD: PERST# of a selected upstream port is a cold reset; of another, it resets only the port's link (R424). -/
def perst (p : Nat) (s : State) : State :=
  if tbit (fget s .RST_CFG [] Fld.RST_CFG_PERST_COLD) p && portRole s p == 1 then
    (if canReset s then coldReset (4 + p) s else s)
  else if s.alive then hostLinkReset p s else s

/-- WATCHDOG_SERVICE and WATCHDOG_EXPIRE (R442). -/
def wdogService (s : State) : State :=
  if s.boot.wdog.isSome then modBoot s (fun b => { b with wdog := some s.tick }) else s
def wdogExpire (s : State) : State :=
  if canReset s && s.boot.wdog.isSome && fbit s .RST_CFG [] Fld.RST_CFG_WDOG_EN
      && (s.boot.life == .run || s.boot.life == .held) then coldReset 6 s else s

/-- A write of RST_CTL. -/
def rstCtlWrite (v : Nat) (s : State) : State := if tbit v 0 && canReset s then coldReset 3 s else s

/-! ### Firmware (R430, R431) -/

/-- `n` bytes of an image from an offset. -/
def imgBytes (img : List Byte) (off n : Nat) : List Byte := (img.drop off).take n

/-- The first failing check of an image; 0 when all pass. A key index above 3 names no key and counts as revoked; LEN is
held to the 24 MiB of the header. -/
def fwCheck (s : State) (img : List Byte) : Nat :=
  let f := fun off n => leNat (imgBytes img off n)
  if f 0 4 ≠ 0x464C574F then 1
  else if 3 < f 9 1 ∨ tbit (fget s .BOOT_FW [] Fld.BOOT_FW_REVOKED) (f 9 1) then 2
  else if Config.sha384 (imgBytes img 16 96) ≠ Config.fusedKeyHash (f 9 1) then 3
  else if f 8 1 < fget s .BOOT_FW [] Fld.BOOT_FW_MIN_SVN then 4
  else if 24 * 2 ^ 20 < f 12 4 then 5
  else if !(Config.ecdsaVerify (beNat (imgBytes img 16 96)) (Config.sha384 (imgBytes img 0 160)) (beNat (imgBytes img 160 96))) then 6
  else if Config.sha384 (imgBytes img 512 (f 12 4)) ≠ beNat (imgBytes img 112 48) then 7 else 0

/-- The slot that runs, or the check codes of A and B. -/
def fwSelect (s : State) (slots : List (List Byte)) : Sum Nat (Nat × Nat) :=
  let a := lget [] slots 0
  let b := lget [] slots 1
  let svn := fun img => leNat (imgBytes img 8 1)
  let ca := fwCheck s a
  let cb := fwCheck s b
  if svn a < svn b then (if cb = 0 then .inl 1 else if ca = 0 then .inl 0 else .inr (ca, cb))
  else if ca = 0 then .inl 0 else if cb = 0 then .inl 1 else .inr (ca, cb)

/-- The registers of the image that runs, and the measurement that SPDM carries (R430); the watchdog starts (R442). -/
def fwRun (slot : Nat) (img : List Byte) (s : State) : State :=
  let f := fun off n => leNat (imgBytes img off n)
  let s := fset (fset s .BOOT_FW [] Fld.BOOT_FW_VERSION (f 4 4)) .BOOT_FW [] Fld.BOOT_FW_SVN (f 8 1)
  let s := fset (fset s .BOOT_FW [] Fld.BOOT_FW_KEY (f 9 1)) .BOOT_FW [] Fld.BOOT_FW_SLOT slot
  let d := (List.range 6).map (fun i => f (112 + 8 * i) 8)
  let s := foldUp 6 (fun s i => rput s .BOOT_FW_DIGEST [i] (lget 0 d i)) s
  modBoot s (fun b => { b with wdog := some s.tick, spdm := d })

/-- A write of BOOT_FW_CTL (R431). -/
def fwCtlWrite (v : Nat) (s : State) : State :=
  let s := if tbit v 1 then fset s .BOOT_FW_CTL [] Fld.BOOT_FW_CTL_COMMIT_ERR 0 else s
  if !(tbit v 0) then s
  else
    let svn := fget s .BOOT_FW [] Fld.BOOT_FW_SVN
    if svn ≤ fget s .BOOT_FW [] Fld.BOOT_FW_MIN_SVN ∨ 32 ≤ s.boot.raises then fset s .BOOT_FW_CTL [] Fld.BOOT_FW_CTL_COMMIT_ERR 1
    else
      let s := modBoot s (fun b => { b with raises := b.raises + 1 })
      fset (fset s .BOOT_FW [] Fld.BOOT_FW_MIN_SVN svn) .BOOT_FW_CTL [] Fld.BOOT_FW_CTL_RAISES_LEFT (32 - s.boot.raises)

/-! ### Stages (R425–R437) -/

/-- A cluster fails at test (ROLE 3). -/
def failCluster (cause : Nat) (s : State) (c : Nat) : State := takeOut 3 c cause s

/-- A stage halts: code, and the location of what failed. -/
structure Halt where
  code : Nat
  kind : Nat
  idx  : Nat
  det  : Nat
  deriving DecidableEq, Repr

/-- R427. -/
def haltBoot (h : Halt) (s : State) : State :=
  let st := fget s .BOOT_STAT [] Fld.BOOT_STAT_STAGE
  let s := rput (fset s .BOOT_STAT [] Fld.BOOT_STAT_HALTED 1) .BOOT_FAIL []
    (h.code % 256 * 2 ^ 56 + st % 16 * 2 ^ 52 + h.kind % 16 * 2 ^ 48 + h.idx % 4096 * 2 ^ 36 + h.det % 2 ^ 36)
  emit (emit (modBoot s (fun b => { b with life := .halted })) (.pin "ALERT_N" 0)) (.pldm st h.code)

/-- The halt of a stage, with the location that its code gives (R427): none for a missing reference, a bank, a generator and
loop, a floor unit. -/
def namedHalt (code : Nat) (r : StageResult) : Option Halt :=
  r.halt.map (fun x => ⟨code, 0, 0, if code = 1 then 0 else if code = 5 then x / 16 % 256 * 16 + x % 4 else x % 256⟩)

/-- The bytes of a fuse bank: those of the first copy that checks (R429). -/
def fuseLoad (b : FuseBank) : Option (List Byte) :=
  if crc32c b.first.1 = b.first.2 then some b.first.1 else if crc32c b.second.1 = b.second.2 then some b.second.1 else none

/-- FUSE (R429): the fuse banks and the change ledger are loaded; a bank with both copies failing halts, as does a ledger that
cannot be read. -/
def stageFuse (r : StageResult) (s : State) : Option Halt × State :=
  match r.fuses.findIdx? (fun b => (fuseLoad b).isNone) with
  | some i => (some ⟨2, 0, 0, i % 256⟩, s)
  | none =>
    let s := modBoot s (fun b => { b with fuses := r.fuses.filterMap fuseLoad })
    (namedHalt 2 r, fset (applyLedger s) .BOOT_STAT [] Fld.BOOT_STAT_FRR_USED s.boot.frr.length)

/-- DOMAINS: phases lost, clusters whose domain is dark failed with CAUSE 3; another domain at cap 0 halts. -/
def stageDomains (r : StageResult) (s : State) : Option Halt × State :=
  let s := (r.phases.filter (fun x => decide (x.1 < 1051) && decide (x.2 < phaseCount x.1))).foldl (fun s x => losePhase x.1 x.2 s) s
  let zero := fun d => fget s .PWR_DOM_STAT [d] Fld.PWR_DOM_STAT_CAP_PCT == 0
  let dead := (List.range 1024).filter zero
  let s' := dead.foldl (fun s c => failCluster 3 (fset s .PWR_DOM_STAT [c] Fld.PWR_DOM_STAT_DARK 1) c) s
  match (List.range 27).find? (fun i => zero (1024 + i)) with
  | some i => (some ⟨4, 2, 1024 + i, fget s .PWR_DOM_STAT [1024 + i] Fld.PWR_DOM_STAT_PHASE_GOOD % 16⟩, s')
  | none => (none, s')

/-- CLOCKS: the cluster class starts at the lowest fused limit of the clusters whose domains came on (R388). -/
def stageClocks (r : StageResult) (s : State) : Option Halt × State :=
  let f := ((List.range 1024).filter (fun c => !(isOut s c))).foldl (fun m c => min m (Config.fusedFmax c)) 2000
  let s := fset (fset s .CLK_CLASS [0] Fld.CLK_CLASS_FMAX f) .CLK_CLASS [0] Fld.CLK_CLASS_MHZ f
  let s := modClk s (fun y => { y with loops := tput 0 ((pllOf f).1, (pllOf f).2, s.tick) y.loops, ranAt := s.tick })
  (namedHalt 5 r, r.clocks.foldl (failCluster 6) s)

/-- Failing bonds of the bundle of a bond. -/
def sameBundle (l : List (Nat × Nat × Nat × Nat)) (b : Nat × Nat × Nat × Nat) : List (Nat × Nat × Nat × Nat) :=
  (l.filter (fun x => x.1 == b.1 && x.2.1 == b.2.1 && x.2.2.1 == b.2.2.1)).eraseDups

/-- VERTICAL (R432): a bundle with more than two failed bonds halts, the lowest tower and layer first; others are steered to
spare vias. Then the manufacturing lane repairs, and the lanes that fail in training; clusters failed before are left out. -/
def stageVertical (r : StageResult) (s : State) : Option Halt × State :=
  let bad := r.bonds.filter (fun b => decide (2 < (sameBundle r.bonds b).length))
  match bad.foldl (fun (m : Option (Nat × Nat)) b => match m with
      | some x => if b.1 < x.1 ∨ (b.1 = x.1 ∧ b.2.1 < x.2) then some (b.1, b.2.1) else some x
      | none => some (b.1, b.2.1)) none with
  | some x => (some ⟨6, 3, x.1, x.2⟩, s)
  | none =>
    let s := modTopo s (fun t => { t with bonds := r.bonds.eraseDups })
    let made := (s.boot.mfg.filter (fun e => e.kind == 0)).map (fun e => (e.c, e.x))
    (none, laneRepairs 3 false r.lanes (laneRepairs 3 false made s))

/-- SELFTEST (R433): logic, scratchpads, merge and codec units, tower cache ways; then the scratchpads are filled. -/
def stageSelftest (r : StageResult) (s : State) : Option Halt × State :=
  let s := r.logic.foldl (failCluster 1) s
  let s := r.scratch.foldl (failCluster 4) s
  let s := r.units.foldl (fun s t => foldUp 64 (fun s k => failCluster 1 s (64 * t + k)) s) s
  let s := ((s.boot.mfg.filter (fun e => e.kind == 2)).map (fun e => (e.c, e.x)) ++ r.ways).foldl (fun s x => wayOff false x.1 x.2 s) s
  (namedHalt 7 r, scratchClear s)

/-- Place of a failing bank in the order its spare is asked for: tower, die, j, side, bank (R434). -/
def bankOrder (x : Nat × Nat × Nat) : Nat := (spareKey x.1 x.2.1 * 2 + x.1 % 2) * 32 + x.2.2 % 32

def insertBank (x : Nat × Nat × Nat) : List (Nat × Nat × Nat) → List (Nat × Nat × Nat)
  | [] => [x]
  | y :: r => if bankOrder x < bankOrder y then x :: y :: r else y :: insertBank x r

/-- One failing bank takes its spare, or takes its pillar offline, whose spares are released and not offered again in the
stage: `shut` are those. -/
def bankAtTest (acc : List Nat × State) (x : Nat × Nat × Nat) : List Nat × State :=
  let c := x.1
  let s := acc.2
  let key := spareKey c x.2.1
  if isOut s c then acc
  else if spareTaken s c x.2.1 || acc.1.contains key then
    let mine := fun (e : Nat × (Nat × Nat)) => e.1 / 512 == c / 64 && e.1 % 32 == c % 64 / 2 && e.2.1 == c % 2
    let freed := (s.topo.bankSpare.filter mine).map (fun e => e.1)
    (acc.1 ++ freed, failCluster 5 (modTopo s (fun t => { t with bankSpare := t.bankSpare.filter (fun e => !(mine e)) })) c)
  else (acc.1, logRepair 3 1 c (x.2.1 * 2 ^ 44 + x.2.2 * 2 ^ 39) (modTopo s (fun t => { t with bankSpare := tput key (c % 2, x.2.2) t.bankSpare })))

/-- DRAM: spares that fail, then the banks of the manufacturing repairs and the failing banks in order; every word of the stack
is filled (R76, R429, R434). -/
def stageDram (r : StageResult) (s : State) : State :=
  let bad := (r.banks.filter (fun x => x.2.2 == 32)).map (fun x => spareKey x.1 x.2.1)
  let s := modTopo s (fun t => { t with badSpare := bad })
  let made := (s.boot.mfg.filter (fun e => e.kind == 1)).map (fun e => (e.c, e.x, e.y))
  let order := ((r.banks.filter (fun x => decide (x.2.2 < 32))).filter (fun x => !(made.contains x))).foldl (fun l x => insertBank x l) []
  zeroFill ((made.foldl (fun l x => insertBank x l) [] ++ order).foldl bankAtTest ([], s)).2 0 spBase

/-- An entry of the field repair record whose CRC checks is applied as if found at test; a mapped-out cluster keeps ROLE 2 and its
CAUSE, whatever the tests found (R435). -/
def frrApply (s : State) (e : Frr) : State :=
  if !e.ok then s else match e.kind with
  | 0 =>
    if (s.topo.ctlSpare.any (fun x => x.1 / 8 == e.c && decide (512 ≤ e.x) && x.2 == e.x - 512))
        || (s.topo.dataSpare.any (fun x => x.1 / 32 == e.c && x.2 == e.x)) then s
    else laneRepairs 3 false [(e.c, e.x)] s
  | 1 =>
    if (tfind s.topo.bankSpare (spareKey e.c e.x)) == some (e.c % 2, e.y) then s
    else (bankAtTest ([], s) (e.c, e.x, e.y)).2
  | 2 => wayOff false e.c e.x s
  | _ =>
    modTopo (takeOut 3 e.c e.x s) (fun t => { t with out := tput e.c ⟨2, e.x⟩ t.out })

/-- The repairs in force that the field repair record and the manufacturing repairs do not hold: lanes and banks on spares, ways
disabled. -/
def newRepairs (s : State) : List Frr :=
  let lanes := s.topo.dataSpare.map (fun e => (⟨0, e.1 / 32, e.2, 0, true⟩ : Frr))
    ++ s.topo.ctlSpare.map (fun e => (⟨0, e.1 / 8, 512 + e.2, 0, true⟩ : Frr))
  let banks := s.topo.bankSpare.map (fun e => (⟨1, 64 * (e.1 / 512) + 2 * (e.1 % 32) + e.2.1, e.1 / 32 % 16, e.2.2, true⟩ : Frr))
  let ways := (List.range 16).flatMap (fun t =>
    ((List.range 16).filter (fun w => !(tbit (fget s .TC_WAY_EN [t] Fld.TC_WAY_EN_EN) w))).map (fun w => (⟨2, t, w, 0, true⟩ : Frr)))
  (lanes ++ banks ++ ways).filter (fun e => !(s.boot.frr.contains e) && !(s.boot.mfg.contains e))

/-- MAP (R35, R425, R436): the field repair record is applied, and what the tests repaired is written to it. The good clusters take logical numbers in ascending order, the rest are spares with their domains
gated. The rows that the fill of DRAM left in tower cache lines have their tower and set by the map. -/
def stageMap (s : State) : Option Halt × State :=
  let s := s.boot.frr.foldl frrApply s
  let s := (newRepairs s).foldl (fun s e => frrAppend e s) s
  let good := (List.range 1024).filter (fun c => !(isOut s c))
  let n := grade s
  let lmap := (List.range n).map (fun l => if l < good.length then some (lget 0 good l) else none)
  let s := modTopo s (fun t => { t with loaded := true, lmap := lmap })
  let s := fillLines (fun _ => true) s
  let s := (good.drop n).foldl (fun s c => gateDomain c true s) s
  let s := if good.length < n then fset s .BOOT_STAT [] Fld.BOOT_STAT_SHORT 1 else s
  let f := good.foldl (fun m c => min m (Config.fusedFmax c)) 2000
  let s := fset s .CLK_CLASS [0] Fld.CLK_CLASS_FMAX f
  let s := if f = classMhz s 0 then s else classSwitch 0 f s
  let s := modKv s (fun k => { k with pool := poolOf s })
  (if good.isEmpty then some ⟨8, 0, 0, 0⟩ else none, s)

/-- Whether a link of four is there and downstream: link 1 of a port only with BIF = 1 (R309). -/
def spillLink (s : State) (k : Nat) : Bool := decide (k < 4) && portRole s (k / 2) == 2 && (k % 2 == 0 || bifOn s (k / 2))

/-- Devices in placement order: by link, in the order found. -/
def spillOrder (l : List Found) : List Found := (List.range 4).flatMap (fun p => l.filter (fun x => x.port == p))

/-- The Type-3 devices enumerated: up to four per port, over both links together (R311). -/
def spillDevs (s : State) (l : List Found) : List Found :=
  (List.range 2).flatMap (fun p => ((spillOrder l).filter (fun x => x.cxl && x.port / 2 == p && spillLink s x.port)).take 4)

/-- A device's capacity as it is placed: whole GiB, rounded down (R321). -/
def Found.gib (x : Found) : Nat := x.bytes / 2 ^ 30

/-- SPILL (R321): the Type-3 devices behind downstream ports are placed. -/
def stageSpill (r : StageResult) (s : State) : State :=
  let s := r.links.foldl (fun s x =>
    if spillLink s x.1 then
      let f := free s
      let n := ((spillDevs s r.found).filter (fun y => y.port == x.1)).length
      let flit := if x.2.1 % 8 = 6 then 1 else f.1 % 2
      let width := if bifOn s (x.1 / 2) then min (x.2.2 % 32) 8 else x.2.2 % 32
      rput f.2 .HP_LINK_STAT [x.1] (n * 2 ^ 12 + flit * 2 ^ 10 + 2 ^ 9 + width * 2 ^ 4 + x.2.1 % 8 * 2 + 1)
    else s) s
  let up := fun (x : Found) => fbit s .HP_LINK_STAT [x.port] Fld.HP_LINK_STAT_UP
  let devs := (spillDevs s r.found).filter (fun x => up x && Found.gib x != 0)
  let placed := devs.foldl (fun (acc : List Expander × Nat) x =>
    let n := min (Found.gib x) (16384 - acc.2)
    if n = 0 then acc else (acc.1 ++ [⟨x.port, acc.2 * 2 ^ 30, n * 2 ^ 30, none⟩], acc.2 + n)) ([], 0)
  let ilv := fbit s .HP_SPILL_CFG [] Fld.HP_SPILL_CFG_ILV && (devs.length == 2 || devs.length == 4)
    && devs.all (fun x => Found.gib x == (devs.head?.map Found.gib).getD 0 && x.port / 2 == (devs.head?.map Found.port).getD 0 / 2)
  let total := placed.2
  let exps := if ilv then placed.1.zipIdx.map (fun (e : Expander × Nat) =>
      { e.1 with base := 0, size := total * 2 ^ 30, stripe := some (e.2, devs.length) }) else placed.1
  let s := { s with host := { s.host with expanders := exps, lost := [] } }
  rput s .HP_SPILL_STAT [] (placed.1.length % 16 * 2 ^ 16 + b2n ilv * 2 ^ 15 + total % 2 ^ 15)

/-- MEASURE (R437): the Sett latency records; a pillar whose cluster failed before is not measured (R54). The powers are latched
by `measureStep`. -/
def stageMeasure (r : StageResult) (s : State) : State :=
  modTopo s (fun t => { t with readLat := r.readLat.filter (fun e => (tfind t.out e.1).isNone), lat := r.lat })

/-- FIRMWARE (R430). -/
def stageFirmware (r : StageResult) (s : State) : Option Halt × State :=
  match fwSelect s r.slots with
  | .inl k => (none, fwRun k (lget [] r.slots k) s)
  | .inr (a, b) => (some ⟨3, 0, 0, b * 16 + a⟩, s)

/-- HOST_LINK: upstream links that are up; one that is not sets LINK_LATE. -/
def stageHostLink (r : StageResult) (s : State) : State :=
  let s := r.links.foldl (fun s x => if x.1 < 2 ∧ portRole s x.1 = 1 then hostLinkUp x.1 x.2.1 x.2.2 s else s) s
  if (List.range 2).any (fun p => portRole s p == 1 && !(hostUp s p)) then fset s .BOOT_STAT [] Fld.BOOT_STAT_LINK_LATE 1 else s

/-- The work of a stage, and the halt it ends in. -/
def stageWork (st : Nat) (r : StageResult) (s : State) : Option Halt × State :=
  match st with
  | 1 =>
    let s := (r.phases.filter (fun x => x.1 == 1050 && decide (x.2 < 6))).foldl (fun s x => losePhase x.1 x.2 s) s
    (namedHalt 1 r, fset s .CLK_STAT [] Fld.CLK_STAT_REF_OK 1)
  | 2 => stageFuse r s
  | 3 => (none, stageHostLink r s)
  | 4 => stageFirmware r s
  | 5 => stageDomains r s
  | 6 => stageClocks r s
  | 7 => stageVertical r s
  | 8 => stageSelftest r s
  | 9 => (none, stageDram r s)
  | 10 => stageMap s
  | 11 => (none, stageSpill r s)
  | 12 => (none, stageMeasure r s)
  | _ => (none, buildSett s)

/-- A stage completes: its tick is latched and the next begins. The clusters that failed in DOMAINS have their log entries
once stage 6 begins. Reaching the last stage, the device reports ready (R426). -/
def stageAdvance (st : Nat) (s : State) : State :=
  let s := rput s .BOOT_TICK [st] s.tick
  let s := fset s .BOOT_STAT [] Fld.BOOT_STAT_OUT ((s.topo.out.filter (fun e => e.2.role == 3)).length)
  let s := emit (fset s .BOOT_STAT [] Fld.BOOT_STAT_STAGE (st + 1)) (.pldm (st + 1) 0)
  let s := if st = 5 then s.topo.out.foldl (fun s e => logMapped s e.1 e.2.cause 0) s else s
  if st = 13 then
    { rput s .BOOT_TICK [14] s.tick with
      ready := true, rcv := { s.rcv with acked := fget s .QD_STAT [] Fld.QD_STAT_FENCE_LAST }, boot := { s.boot with frrOpen := 0 } }
  else s

/-- BRINGUP_STAGE_COMPLETE; MEASURE lasts until both powers are latched (R437). The always-on domain at cap 0 in POWER_IN leaves the device without an answer (R365). -/
def stageComplete (r : StageResult) (s : State) : State :=
  let st := fget s .BOOT_STAT [] Fld.BOOT_STAT_STAGE
  if st = 0 ∨ 14 ≤ st ∨ (st = 12 ∧ s.boot.meas.1 ≠ 4) then s
  else
    let w := stageWork st r s
    if st = 1 ∧ fget w.2 .PWR_DOM_STAT [1050] Fld.PWR_DOM_STAT_CAP_PCT = 0 then modBoot w.2 (fun b => { b with life := .dark })
    else match w.1 with
      | some h => haltBoot h w.2
      | none => stageAdvance st w.2

/-! ### Test access port (R468) -/

def tapName : TapIr → String
  | .bypass => "BYPASS"
  | .idcode => "IDCODE"
  | .extest => "EXTEST"
  | .extestPulse => "EXTEST_PULSE"
  | .extestTrain => "EXTEST_TRAIN"
  | .intest => "INTEST"
  | .clamp => "CLAMP"
  | .sample => "SAMPLE/PRELOAD"

/-- IDCODE: version, part, maker, and 1. -/
def idcode (s : State) : Nat :=
  fget s .ID_DEVICE [] Fld.ID_DEVICE_STEP_MAJOR % 16 * 2 ^ 28 + 0xD5A1 * 2 ^ 12 + Config.idcodeMaker % 2048 * 2 + 1

/-- An instruction of the port: those that drive or sample contacts act as BYPASS unless RESET_N is low; the port does
nothing while TRST_N holds it in reset. -/
def tapRun (ir : TapIr) (s : State) : State :=
  if s.boot.trst || s.boot.life == .unpowered then s
  else
    let ir := if ir == .bypass || ir == .idcode || s.boot.resetN then ir else .bypass
    emit (modBoot s (fun b => { b with tap := ir })) (.tap (tapName ir) (if ir == .idcode then idcode s else 0))

/-- TAP_RESET. -/
def tapReset (held : Bool) (s : State) : State :=
  modBoot s (fun b => { b with trst := held, tap := if held then .idcode else b.tap })

def execPowerOn (s : State) : Res3 := s.runAny powerOn
def execPowerLoss (mv : Nat) (s : State) : Res3 := s.runAny (powerLoss mv)
def execPowerRemoved (s : State) : Res3 := s.runAny powerRemoved
def execStandbyRailUp (s : State) : Res3 := s.runAny standbyUp
def execResetNAssert (s : State) : Res3 := s.runAny resetAssert
def execResetNRelease (s : State) : Res3 := s.runAny resetRelease
def execPerstCold (p : Fin 2) (s : State) : Res3 := s.runAny (perst p.val)
def execWatchdogService (s : State) : Res3 := s.run wdogService
def execWatchdogExpire (s : State) : Res3 := s.runAny wdogExpire
def execBringupStageComplete (r : StageResult) (s : State) : Res3 := s.run (stageComplete r)
def execExtest (s : State) : Res3 := s.runAny (tapRun .extest)
def execExtestPulse (s : State) : Res3 := s.runAny (tapRun .extestPulse)
def execExtestTrain (s : State) : Res3 := s.runAny (tapRun .extestTrain)
def execIntest (s : State) : Res3 := s.runAny (tapRun .intest)
def execClamp (s : State) : Res3 := s.runAny (tapRun .clamp)
def execSamplePreload (s : State) : Res3 := s.runAny (tapRun .sample)
def execBypass (s : State) : Res3 := s.runAny (tapRun .bypass)
def execIdcode (s : State) : Res3 := s.runAny (tapRun .idcode)
def execTapReset (held : Bool) (s : State) : Res3 := s.runAny (tapReset held)

end Sys2Proof.Machine
end

