-- ==== Sys2Proof/Machine/RegSpace.lean ====
section
/-! DEFINITION. The register space as its requesters reach it: views, folding, partial and reserved accesses, gated blocks and
what each register reads and does when written (R14, R15, R428, R440, R443–R447, R452), with the rows that are register
writes. -/

namespace Sys2Proof.Machine

/-! ### Where an access lands -/

/-- The indices of a register of an array at a distance from its base (R443). -/
def indexIn : List (Nat × Nat) → Nat → Option (List Nat)
  | [], o => if o = 0 then some [] else none
  | (n, st) :: ds, o => if o / st < n then (indexIn ds (o % st)).map (fun ix => o / st :: ix) else none

/-- The register at a view offset. -/
def regAt (off : Nat) : Option (RegId × List Nat) :=
  RegId.all.findSome? (fun r =>
    if off < r.desc.base then none else (indexIn r.desc.dims (off - r.desc.base)).map (fun ix => (r, ix)))

/-- The Tenant view offset that a BAR2 offset reaches (R447). -/
def foldBar2 (o : Nat) : Option Nat :=
  if 2 ^ 24 ≤ o then none
  else if o < 0xA00000 then some o
  else
    let t := (o - 0xA00000) / 0x60000
    let u := (o - 0xA00000) % 0x60000
    let b := 0x1000000 + t * 0x100000
    if u < 0x40000 then some (b + u / 0x1000 * 0x2000 + u % 0x1000)
    else if u < 0x4C000 then some (b + 0x80000 + (u - 0x40000))
    else if 0x50000 ≤ u ∧ u < 0x50010 then some (b + 0xA0000 + (u - 0x50000))
    else none

/-- The view offset, by whole words, that a source's offset reaches; the upper half of BAR0 is reserved (R446). -/
def viewOff (src : RegSrc) (off : Nat) : Option Nat :=
  let o := off / 8 * 8
  match src with
  | .bar2 => foldBar2 o
  | _ => if o < 0x2000000 then some o else none

/-- Whether a source sees the Tenant view (R446). -/
def tenantSrc (src : RegSrc) : Bool := src == .bar2 || src == .synTenant

/-- The code of a source in what the block sends out. -/
def srcCode : RegSrc → Nat
  | .bar0 => 0 | .bar2 => 1 | .synOper => 2 | .synTenant => 3 | .owl => 4 | .i3c => 5

/-- Whether the device answers a source at all: the board controller on the standby rail (R466), a host while the device
runs or is halted in bring-up (R427), every other source while it runs. -/
def answers (s : State) (src : RegSrc) : Bool :=
  match src with
  | .i3c => s.boot.life != .unpowered
  | .bar0 => s.alive || (s.boot.life == .halted && !s.boot.resetN)
  | .bar2 => s.alive || (s.boot.life == .halted && !s.boot.resetN)
  | _ => s.alive

/-- Blocks served before the first ready: identity, Sett image, log, bring-up and limited-change settings (R428). -/
def earlyBlock (v : Nat) : Bool :=
  decide (v < 0x50000) || decide (0x200000 ≤ v ∧ v < 0x300000) || decide (0x900000 ≤ v ∧ v < 0xB00000)

/-- Whether an offset is served to a source now (R428). -/
def served (s : State) (src : RegSrc) (v : Nat) : Bool :=
  src == .owl || src == .i3c || booted s || earlyBlock v

/-- Whether an offset lies in the Sett image (R50). -/
def inSett (v : Nat) : Bool := decide (0x10000 ≤ v ∧ v < 0x50000)

/-- What the board controller reaches: the power-on registers, and THM_COOL while the device runs (R466). -/
def i3cReach (s : State) (r : RegId) : Bool := r.desc.domain == .powerOn || (r == .THM_COOL && s.alive)

/-- Whether a register is absent from the Tenant view (R146, R260, R446). -/
def hidden (s : State) (r : RegId) (ix : List Nat) : Bool :=
  match r.desc.view with
  | .oper => true
  | .both => false
  | .queue => !(qTenant s (lget 0 ix 0))
  | .slot => decide (48 ≤ lget 0 ix 1)

/-- Registers that the Tenant view policy makes read 0 (R452). -/
def policyZero (s : State) (r : RegId) : Bool :=
  match r with
  | .PWR_DOM_STAT => !(fbit s .LCS_TENANT [] Fld.LCS_TENANT_DOM_TELEM)
  | .THM_SENS => !(fbit s .LCS_TENANT [] Fld.LCS_TENANT_DOM_TELEM)
  | .ECC_CE_COUNT => !(fbit s .LCS_TENANT [] Fld.LCS_TENANT_CE_TELEM)
  | _ => false

/-- The bit of CLK_GATE whose block owns a register, if that block can be gated (R398). -/
def gateOf (r : RegId) (ix : List Nat) : Option Nat :=
  match r with
  | .SYN_PORT_STAT => some (lget 0 ix 0)
  | .SYN_PORT_CNT => some (lget 0 ix 0)
  | .HP_LINK_STAT => some (16 + lget 0 ix 0 / 2)
  | .SYN_COLL_CFG => some 18
  | .SYN_COLL_STAT => some 18
  | .CLK_OBS => some 19
  | _ => none

/-- The island of a gate bit (R387). -/
def gateIsland (b : Nat) : Nat := if b = 18 then 2103 else if b = 19 then 2106 else 2084 + b

/-- A bus error at a gated block is counted and logged (R399). -/
def gatedAccess (b v : Nat) (s : State) : State :=
  logEv (finc s .CLK_STAT [] Fld.CLK_STAT_GATED_ACC 1) 0x72 7 0 (gateIsland b) 0 0 (v * 2 ^ 20 + 2 ^ b)

/-- What becomes of an access (R399, R428, R440, R444, R446): nothing at the offset, the Sett image, a register that reads 0
and takes no write, a register absent from the view, a gated block, or a register. -/
inductive Landing where
  | nothing
  | sett (i : Nat)
  | absent
  | gated (bit : Nat)
  | reg (r : RegId) (ix : List Nat)
  deriving DecidableEq, Repr

/-- Where an access to a view offset lands. -/
def land (s : State) (src : RegSrc) (v : Nat) : Landing :=
  if !(served s src v) then .nothing
  else if inSett v then (if src == .i3c then .nothing else .sett ((v - 0x10000) / 8))
  else match regAt v with
    | none => .nothing
    | some (r, ix) =>
      if src == .i3c && !(i3cReach s r) then .nothing
      else if r.desc.domain == .compute && s.rcv.stage == 4 then .nothing
      else if tenantSrc src && hidden s r ix then .absent
      else match gateOf r ix with
        | some b => if gateBit s b then .gated b else .reg r ix
        | none => .reg r ix

/-! ### Fields -/

/-- The mask of a field. -/
def fldMask (f : Fld) : Nat := (2 ^ (f.hi + 1 - f.lo) - 1) * 2 ^ f.lo

/-- Bits of the fields that satisfy a test. -/
def maskOf (d : RegDesc) (p : FieldDesc → Bool) : Nat :=
  d.fields.foldl (fun n f => if p f then n ||| fldMask f.fld else n) 0

/-- Bits a read shows: reserved and write-only fields read 0, and OP fields in the Tenant view (R14, R15, R446). -/
def readMask (d : RegDesc) (tenant : Bool) : Nat := maskOf d (fun f => f.acc != .wo && !(tenant && f.op))

/-- Bits whose write data counts: not those of OP fields in the Tenant view. -/
def writeMask (d : RegDesc) (tenant : Bool) : Nat := maskOf d (fun f => f.acc != .ro && !(tenant && f.op))

/-- Bits of OP fields. -/
def opMask (d : RegDesc) : Nat := maskOf d (fun f => f.op)

def notMask (m : Nat) : Nat := (2 ^ 64 - 1) ^^^ m

/-- The write data as it takes effect: a readable and writable field whose data is discarded keeps its value, and every
other bit whose data is discarded is 0. -/
def writeData (d : RegDesc) (tenant : Bool) (cur val : Nat) : Nat :=
  (val &&& writeMask d tenant) ||| (cur &&& maskOf d (fun f => (f.acc == .rw || f.acc == .rwl) && tenant && f.op))

/-- The word after a plain write (R15). -/
def writeWord (d : RegDesc) (cur v : Nat) : Nat :=
  (cur &&& maskOf d (fun f => f.acc == .ro || f.acc == .rwl || f.acc == .wo))
    ||| (v &&& maskOf d (fun f => f.acc == .rw))
    ||| (cur &&& notMask v &&& maskOf d (fun f => f.acc == .w1c))
    ||| ((cur ||| v) &&& maskOf d (fun f => f.acc == .w1s))

/-! ### Reading -/

/-- Sum of words shifted into place. -/
def pack (l : List (Nat × Nat)) : Nat := l.foldl (fun n p => n + p.1 * 2 ^ p.2) 0

/-- Nominated lanes or banks of a kind: by R74, or by R340 once the log stage has told it. -/
def nominated (s : State) (p : Nom → Bool) : Nat := (s.ecc.noms.filter (fun n => n.told && p n)).length

/-- The word of a register as it stands, whichever state it shows. -/
def liveWord (s : State) (r : RegId) (ix : List Nat) : Nat :=
  let w := rget s r ix
  let i := lget 0 ix 0
  let c := 64 * i + lget 0 ix 1
  let put := fun (w : Nat) (f : Fld) (v : Nat) => setBits w f.hi f.lo v
  match r with
  | .MEM_ILV_STAT => put w Fld.MEM_ILV_STAT_PENDING
      (b2n ((List.range 64).any (fun k => rget s .MEM_ILV_STAGE [k] != rget s .MEM_ILV_ACTIVE [k])))
  | .ECC_REPAIR_PEND => pack
      [(nominated s (fun n => n.kind == .bank && spareTaken s n.c n.die), 32), (nominated s (fun n => n.kind == .checkLane), 24),
       (nominated s (fun n => n.kind == .dataLane), 16), (nominated s (fun n => n.kind == .bank), 0)]
  | .MEM_REFR_STAT => pack [(256 * s.thm.hot.length, 32), ((s.refr.filter (fun e => e.2.active)).length, 0)]
  | .MX_STAT => put (put (put w Fld.MX_STAT_BALLAST (b2n (ballastOn s c))) Fld.MX_STAT_BUSY (b2n (!(clu s c).mx.pipe.isEmpty)))
      Fld.MX_STAT_QDEPTH (clu s c).mx.queue.length
  | .VX_STAT =>
    let v := lget Vx.init (clu s c).vx (lget 0 ix 2)
    put (put w Fld.VX_STAT_BUSY (b2n v.sync.isSome)) Fld.VX_STAT_QDEPTH v.queue.length
  | .DMA_CH_STAT => put w Fld.DMA_CH_STAT_BUSY (b2n (!(lget DmaCh.init (clu s c).dma (lget 0 ix 2)).runs.isEmpty))
  | .NB_CAP => put (put w Fld.NB_CAP_RATE_EFF (rateTower s i)) Fld.NB_CAP_RATE_LIMIT (rateLimit s i)
  | .NB_PSTAT =>
    let us := s.nb.filter (fun e => e.1 / 512 == c)
    pack [((us.filter (fun e => e.2.pendT.isSome || e.2.pendF.isSome)).length, 16), ((us.filter (fun e => e.2.run.isSome)).length, 0)]
  | .KV_POOL_STAT => pack [(s.kv.pool.length, 32), (Config.freeNat s.freeCtr % 2 ^ 32, 0)]
  | .KV_CLS => pack [(clsTotal s i, 32), (clsFree s i, 0)]
  | .KV_EPOCH => s.kv.epoch % 2 ^ 64
  | .KV_PIN => s.kv.readers.foldl (fun m p => min m p.2) (2 ^ 64 - 1)
  | .KV_STEP => s.kv.g % 2 ^ 40
  | .KV_RETIRED => pack [((s.kv.retired.filter (fun x => x.kind == 0)).length, 32),
      ((s.kv.retired.filter (fun x => x.kind == 1 || x.kind == 2)).length, 0)]
  | .KV_SEQ => (match tfind s.kv.seqs i with
      | some q => pack [(q.state, 61), (q.profile, 57), (lget 0 q.lens 0 % 2 ^ 25, 32), (q.prio % 2 ^ 16, 16)]
      | none => 0)
  | .MRG_STAT => pack [((mrgOf s i).ctxs.length, 32)]
  | .TC_STAT =>
    let ls := (tcOf s i).lines
    put (put (put (put w Fld.TC_STAT_DIRTY ((ls.filter (fun l => l.dirty)).length / 4))
      Fld.TC_STAT_KEEP (ls.filter (fun l => l.cls == 1)).length)
      Fld.TC_STAT_PENDING (ls.filter (fun l => !l.queue.isEmpty || !l.staged.isEmpty || l.wide.isSome)).length)
      Fld.TC_STAT_INSVC (b2n (tcInService s))
  | .QD_STAT => put w Fld.QD_STAT_INFLIGHT s.cmds.length
  | .QD_Q_STAT => put w Fld.QD_Q_STAT_INFLIGHT (qCmds s i).length
  | .SYN_COLL_STAT => put w Fld.SYN_COLL_STAT_RUNNING (s.colls.filter (fun c => c.begun)).length
  | .LOG_RCV_STAT => pack [(s.rcv.fence % 2 ^ 32, 32), (s.rcv.stage, 20), (s.rcv.restarts, 16), (min 255 s.rcv.jobs.length, 8),
      (min 255 (resNames s.rcv.res).length, 0)]
  | .LOG_ENTRY_W0 => (lget 0 (tget [] s.log.slots i) 0).toNat
  | .LOG_ENTRY_W1 => (lget 0 (tget [] s.log.slots i) 1).toNat
  | .LOG_ENTRY_W2 => (lget 0 (tget [] s.log.slots i) 2).toNat
  | .LOG_ENTRY_W3 => (lget 0 (tget [] s.log.slots i) 3).toNat
  | .PWR_DOM_STAT => domStat s i
  | .HRD_REASON => reasonStat s
  | .CLK_CLASS => classStat s i
  | .CLK_STAT => clkStat s
  | .CLK_OBS => obsStat s
  | .CLK_ISL_STAT => islStat s i
  | .THM_SENS => sensWord s i
  | .BOOT_STAT => put w Fld.BOOT_STAT_READY (b2n s.ready)
  | .LCS_LEFT => lcsLeft s
  | .LCS_LEDGER_W0 => ledgerWord s i 0
  | .LCS_LEDGER_W1 => ledgerWord s i 1
  | .LCS_LEDGER_W2 => ledgerWord s i 2
  | .LCS_LEDGER_W3 => ledgerWord s i 3
  | .LCS_STAT => lcsStat s
  | .LCS_AUTH_CTL => authCtl s
  | _ => w

/-- Whether the Tenant side reads 0 in a log slot: it reaches no entry there (R355, R452). -/
def logHidden (s : State) (r : RegId) (ix : List Nat) : Bool :=
  match r with
  | .LOG_ENTRY_W0 | .LOG_ENTRY_W1 | .LOG_ENTRY_W2 | .LOG_ENTRY_W3 => !(tenantReaches s (tget [] s.log.slots (lget 0 ix 0)))
  | _ => false

/-- The word a view shows. -/
def viewWord (s : State) (tenant : Bool) (r : RegId) (ix : List Nat) : Nat :=
  if tenant && (policyZero s r || logHidden s r ix) then 0
  else if r == .ID_VIEW then (liveWord s r ix &&& readMask r.desc tenant) / 4 * 4 + (if tenant then 1 else 2)
  else liveWord s r ix &&& readMask r.desc tenant

/-- The side effects of a read: LOG_STAT releases the alert held for a log entry (R358, R466); a register with an open value
takes the next one. -/
def readEffect (r : RegId) (s : State) : State :=
  match r with
  | .LOG_STAT =>
    if s.boot.alert then
      let s := { s with boot := { s.boot with alert := false } }
      if alertOn s then s else emit s (.pin "ALERT_N" 1)
    else s
  | .KV_POOL_STAT => (free s).2
  | _ => s

/-- The enabled bytes of a word (R445). -/
def byteMask (be : BitVec 8) : Nat := (List.range 8).foldl (fun n i => if tbit be.toNat i then n + 0xFF * 2 ^ (8 * i) else n) 0

/-- A read of a word: its status, 0 or 3 for a Completer Abort of R399, and its enabled bytes. -/
def busRead (src : RegSrc) (off : Nat) (be : BitVec 8) (s : State) : (Nat × Nat) × State :=
  match viewOff src off with
  | none => ((0, 0), s)
  | some v =>
    match land s src v with
    | .nothing => ((0, 0), s)
    | .absent => ((0, 0), s)
    | .sett i => let x := settRead i s; ((0, x.1 &&& byteMask be), x.2)
    | .gated b => ((if src == .bar0 || src == .bar2 then 3 else 0, 0), gatedAccess b v s)
    | .reg r ix => ((0, viewWord s (tenantSrc src) r ix &&& byteMask be), readEffect r s)

/-! ### Writing -/

/-- Bits of the 1 GiB regions of word i that exist at the grade in force (R44, R315). -/
def regionMask (s : State) (i : Nat) : Nat := 2 ^ min 64 (4 * grade s - 64 * i) - 1

/-- A write of QD_Q_CTL: EN in the Operator view, then RESET, then FENCE_ACK (R259, R263, R272). -/
def queueCtl (tenant : Bool) (q v : Nat) (s : State) : State :=
  let s := if tenant then s else if tbit v 0 then queueEnable q s else queueDisable q s
  let s := if tbit v 1 then queueReset q s else s
  if tbit v 2 then fenceAck q s else s

/-- A write of SYN_CFG: a change of EN takes the ports up, or broadcasts LEAVE and takes them down (R300, R308); a change of
TIME_MASTER changes the stratum (R299). -/
def synCfgWrite (v : Nat) (s : State) : State :=
  let was := fbit s .SYN_CFG [] Fld.SYN_CFG_EN
  if was && !(tbit v 0) then rput (synDisable s) .SYN_CFG [] v
  else
    let master := fbit s .SYN_CFG [] Fld.SYN_CFG_TIME_MASTER
    let s := rput s .SYN_CFG [] v
    let s := if tbit v 3 != master then masterChange s else s
    if tbit v 0 && !was then synEnable s else s

/-- A routing table write (R294, R300): in a fabric of more than 4,096 members a write that stores an entry without DJ is counted. -/
def routeWrite (i v : Nat) (s : State) : State :=
  let s := rput s .SYN_RT [i] v
  if s.syn.members.length ≤ 4096 then s
  else finc s .SYN_CNT [] Fld.SYN_CNT_NO_DJ (b2n (!(tbit v 5) || !(tbit v 37)))

/-- A write of TC_CTL (R246, R252, R255). -/
def tcCtlWrite (t v : Nat) (s : State) : State :=
  let s := fset s .TC_CTL [t] Fld.TC_CTL_INV (bits v 3 3)
  let s := if tbit v 0 then unpin t s else s
  let s := if tbit v 1 then rclose t s else s
  if tbit v 2 then flushStart t s else s

/-- A write of LCS_AUTH_CTL: its actions from the highest bit down (R456). -/
def authWrite (v : Nat) (s : State) : State :=
  let s := rput s .LCS_AUTH_CTL [] (bits v 2 0)
  let s := if tbit v 63 then credStart 1 v s else s
  let s := if tbit v 62 then credClose v s else s
  let s := if tbit v 61 then credStart 2 v s else s
  let s := if tbit v 60 then credStart 4 v s else s
  if tbit v 59 then credStart 3 v s else s

/-- What a write does at its register: `v` is the data as it takes effect. -/
def regWrite (tenant : Bool) (r : RegId) (ix : List Nat) (v : Nat) (s : State) : State :=
  let i := lget 0 ix 0
  let plain := rput s r ix (writeWord r.desc (rget s r ix) v)
  match r with
  | .MEM_ILV_STAGE => rput s r ix (v &&& regionMask s i)
  | .HP_HDM_SHARE => rput s r ix (v &&& regionMask s i)
  | .DMA_CH_CFG =>
    if fget s .DMA_CH_PTR ix Fld.DMA_CH_PTR_HEAD = fget s .DMA_CH_PTR ix Fld.DMA_CH_PTR_TAIL then plain else s
  | .NB_S_CMD => nbIssue (64 * i + lget 0 ix 1) v s
  | .NB_CAP => capWrite i (writeWord r.desc (rget s r ix) v) s
  | .TC_CTL => tcCtlWrite i v s
  | .QD_SQ_BASE => if qEnabled s i then s else plain
  | .QD_CQ_BASE => if qEnabled s i then s else plain
  | .QD_Q_CFG => if qEnabled s i then s else plain
  | .QD_Q_CTL => queueCtl tenant i v s
  | .QD_DB_SQ => doorbellSq i (v % 65536) s
  | .QD_DB_CQ => doorbellCq i (v % 65536) s
  | .SYN_ID => rwlWrite 2 v s
  | .SYN_CFG => synCfgWrite (writeWord r.desc (rget s r ix) v) s
  | .SYN_RT => routeWrite i v s
  | .HP_ROLE => rwlWrite 1 v s
  | .LOG_CTL => if tbit v 0 then logClear s else s
  | .PWR_CEILING => rwlWrite 0 v s
  | .HRD_SLOPE_CEIL => rwlWrite 4 v s
  | .CLK_MGMT => clkMgmtWrite v s
  | .CLK_GATE => clkGateWrite v s
  | .CLK_OBS => clkObsWrite v s
  | .CLK_BYPASS => clkBypassWrite v s
  | .THM_COOL => thmCoolWrite v s
  | .BOOT_FW_CTL => fwCtlWrite v s
  | .RST_CTL => rstCtlWrite v s
  | .LCS_TENANT => rwlWrite 3 v s
  | .LCS_GRADE => rwlWrite 5 v s
  | .LCS_AUTH_CTL => authWrite v s
  | _ => plain

/-- A write of a word (R444–R446): discarded and counted when it is partial or its register is absent from the view, and
counted when it carries data for an OP field in the Tenant view. -/
def busWrite (src : RegSrc) (off : Nat) (be : BitVec 8) (val : Nat) (s : State) : State :=
  if be != 0xFF then finc s .ID_VIEW [] Fld.ID_VIEW_PARTIAL 1
  else match viewOff src off with
    | none => s
    | some v =>
      match land s src v with
      | .nothing => s
      | .sett _ => s
      | .absent => finc s .ID_VIEW [] Fld.ID_VIEW_DENIED 1
      | .gated b => gatedAccess b v s
      | .reg r ix =>
        let t := tenantSrc src
        let s := if t && val &&& opMask r.desc != 0 then finc s .ID_VIEW [] Fld.ID_VIEW_DENIED 1 else s
        regWrite t r ix (writeData r.desc t (rget s r ix) val) s

/-! ### Rows -/

/-- A row of the register bus: the ratio of R397 holds, and a source the device answers. -/
def State.onBus (s : State) (src : RegSrc) (f : State → State) : Res3 :=
  match (if s.alive then ratioBad s else none) with
  | some x => .fault x
  | none => s.runAny (fun s => if answers s src then f s else s)

/-- The offset at which a source reaches a view offset: a BAR2 source at the offset that folds to it (R447). -/
def offFor (src : RegSrc) (v : Nat) : Nat :=
  if src == .bar2 && decide (0x1000000 ≤ v) then
    let t := (v - 0x1000000) / 0x100000
    let u := (v - 0x1000000) % 0x100000
    0xA00000 + t * 0x60000 + (if u < 0x80000 then u / 0x2000 * 0x1000 + u % 0x2000
      else if u < 0xA0000 then 0x40000 + (u - 0x80000) else 0x50000 + (u - 0xA0000))
  else v

/-- A whole-word write to a register from a source. -/
def writeReg (src : RegSrc) (r : RegId) (ix : List Nat) (v : Nat) : State → State := busWrite src (offFor src (r.off ix)) 0xFF v

/-- Word with one bit set or clear. -/
def withBit (v : Word) (i : Nat) (b : Bool) : Nat := setBits v.toNat i i (b2n b)

/-- A write of LCS_AUTH_CTL with one action. -/
def oneAction (v : Word) (i : Nat) : Nat := bits v.toNat 2 0 + 2 ^ i

/-- NB_S_CMD data with a KIND. -/
def withKind (v : Word) (k : Nat) : Nat := setBits v.toNat 63 56 k

/-- A register read row: the data goes back to its source. -/
def regRead (src : RegSrc) (off : Nat) (be : BitVec 8) (s : State) : State :=
  let r := busRead src off be s
  emit r.2 (.data (srcCode src) r.1.1 r.1.2 [])

/-- A configuration request on an upstream link (R428): retried until stage 4 completes; configuration space is the PCIe
link's own, so what it then reads is open. -/
def configReq (p : Nat) (write : Bool) (s : State) : State :=
  if !(s.alive || (s.boot.life == .halted && !s.boot.resetN)) || portRole s p != 1 then s
  else if fget s .BOOT_STAT [] Fld.BOOT_STAT_STAGE ≤ 4 then emit s (.completion p 2 false [])
  else if write then emit s (.completion p 0 false [])
  else
    let b := freeBytes s 4
    emit b.2 (.completion p 0 false b.1)

/-- The source that SYN_CFG.RVIEW makes of remote register packets (R307). -/
def rview (s : State) : Option RegSrc :=
  match fget s .SYN_CFG [] Fld.SYN_CFG_RVIEW with
  | 1 => some .synTenant
  | 2 => some .synOper
  | _ => none

/-- REG_DATA to the sender of a register packet. -/
def regReply (x : Pkt) (v : Nat) (s : State) : State :=
  respond x 0x12 true true 0 (leBytes 8 (leNat x.data % 2 ^ 26 / 8 * 8) ++ leBytes 8 v) s

/-- REG_WR: applied through the view, or answered with 0x0701. -/
def regWr (x : Pkt) (s : State) : State :=
  match rview s with
  | none => regReply x 0x0701 s
  | some src => busWrite src (leNat x.data % 2 ^ 26 / 8 * 8) 0xFF (leNat ((x.data.drop 8).take 8)) s

/-- REG_RD: answered through the view, or with 0x0701. -/
def regRd (x : Pkt) (s : State) : State :=
  match rview s with
  | none => regReply x 0x0701 s
  | some src => let r := busRead src (leNat x.data % 2 ^ 26 / 8 * 8) 0xFF s; regReply x r.1.2 r.2

/-- REG_DATA: the data reaches the requester. -/
def regData (x : Pkt) (s : State) : State := emit s (.data x.tag 0 (leNat ((x.data.drop 8).take 8)) [])

def execRegisterWrite (src : RegSrc) (off : Nat) (be : BitVec 8) (val : Word) (s : State) : Res3 :=
  s.onBus src (busWrite src off be val.toNat)
def execRegisterRead (src : RegSrc) (off : Nat) (be : BitVec 8) (s : State) : Res3 := s.onBus src (regRead src off be)
def execConfigRequest (p : Fin 2) (write : Bool) (s : State) : Res3 := s.runAny (configReq p.val write)
def execPwrCeilingWrite (src : RegSrc) (val : Word) (s : State) : Res3 := s.onBus src (writeReg src .PWR_CEILING [] val.toNat)
def execHpRoleWrite (src : RegSrc) (val : Word) (s : State) : Res3 := s.onBus src (writeReg src .HP_ROLE [] val.toNat)
def execSynIdWrite (src : RegSrc) (val : Word) (s : State) : Res3 := s.onBus src (writeReg src .SYN_ID [] val.toNat)
def execLcsTenantWrite (src : RegSrc) (val : Word) (s : State) : Res3 := s.onBus src (writeReg src .LCS_TENANT [] val.toNat)
def execHrdSlopeCeilWrite (src : RegSrc) (val : Word) (s : State) : Res3 := s.onBus src (writeReg src .HRD_SLOPE_CEIL [] val.toNat)
def execLcsGradeWrite (src : RegSrc) (val : Word) (s : State) : Res3 := s.onBus src (writeReg src .LCS_GRADE [] val.toNat)
def execCredOpen (src : RegSrc) (val : Word) (s : State) : Res3 := s.onBus src (writeReg src .LCS_AUTH_CTL [] (oneAction val 63))
def execCredClose (src : RegSrc) (val : Word) (s : State) : Res3 := s.onBus src (writeReg src .LCS_AUTH_CTL [] (oneAction val 62))
def execCredBind (src : RegSrc) (val : Word) (s : State) : Res3 := s.onBus src (writeReg src .LCS_AUTH_CTL [] (oneAction val 61))
def execCredSeal (src : RegSrc) (val : Word) (s : State) : Res3 := s.onBus src (writeReg src .LCS_AUTH_CTL [] (oneAction val 60))
def execCredRevoke (src : RegSrc) (val : Word) (s : State) : Res3 := s.onBus src (writeReg src .LCS_AUTH_CTL [] (oneAction val 59))
def execNbRun (src : RegSrc) (t : Fin 16) (slot : Fin 64) (val : Word) (s : State) : Res3 :=
  s.onBus src (writeReg src .NB_S_CMD [t.val, slot.val] (withKind val 1))
def execNbLoad (src : RegSrc) (t : Fin 16) (slot : Fin 64) (val : Word) (s : State) : Res3 :=
  s.onBus src (writeReg src .NB_S_CMD [t.val, slot.val] (withKind val 2))
def execNbSetgrp (src : RegSrc) (t : Fin 16) (slot : Fin 64) (val : Word) (s : State) : Res3 :=
  s.onBus src (writeReg src .NB_S_CMD [t.val, slot.val] (withKind val 3))
def execNbCmdReserved (src : RegSrc) (t : Fin 16) (slot : Fin 64) (val : Word) (s : State) : Res3 :=
  s.onBus src (writeReg src .NB_S_CMD [t.val, slot.val] val.toNat)
def execTcFlush (src : RegSrc) (t : Fin 16) (val : Word) (s : State) : Res3 := s.onBus src (writeReg src .TC_CTL [t.val] (withBit val 2 true))
def execTcRclose (src : RegSrc) (t : Fin 16) (val : Word) (s : State) : Res3 := s.onBus src (writeReg src .TC_CTL [t.val] (withBit val 1 true))
def execTcUnpin (src : RegSrc) (t : Fin 16) (val : Word) (s : State) : Res3 := s.onBus src (writeReg src .TC_CTL [t.val] (withBit val 0 true))
def execDoorbellSq (src : RegSrc) (q : Fin 256) (val : Word) (s : State) : Res3 := s.onBus src (writeReg src .QD_DB_SQ [q.val] val.toNat)
def execDoorbellCq (src : RegSrc) (q : Fin 256) (val : Word) (s : State) : Res3 := s.onBus src (writeReg src .QD_DB_CQ [q.val] val.toNat)
def execQueueEnable (src : RegSrc) (q : Fin 256) (val : Word) (s : State) : Res3 :=
  s.onBus src (writeReg src .QD_Q_CTL [q.val] (withBit val 0 true))
def execQueueDisable (src : RegSrc) (q : Fin 256) (val : Word) (s : State) : Res3 :=
  s.onBus src (writeReg src .QD_Q_CTL [q.val] (withBit val 0 false))
def execQueueReset (src : RegSrc) (q : Fin 256) (val : Word) (s : State) : Res3 :=
  s.onBus src (writeReg src .QD_Q_CTL [q.val] (withBit val 1 true))
def execFenceAck (src : RegSrc) (q : Fin 256) (val : Word) (s : State) : Res3 :=
  s.onBus src (writeReg src .QD_Q_CTL [q.val] (withBit val 2 true))
def execCommandFetch (q : Fin 256) (s : State) : Res3 := s.runF (ratioBad s) (fetch q.val)
def execRegWr (s : State) : Res3 := s.runF (ratioBad s) (onPkt 0x10 (fun _ => regWr))
def execRegRd (s : State) : Res3 := s.runF (ratioBad s) (onPkt 0x11 (fun _ => regRd))
def execRegData (s : State) : Res3 := s.run (onPkt 0x12 (fun _ => regData))
def execSynEnSet (src : RegSrc) (val : Word) (s : State) : Res3 := s.onBus src (writeReg src .SYN_CFG [] (withBit val 0 true))
def execSynEnClear (src : RegSrc) (val : Word) (s : State) : Res3 := s.onBus src (writeReg src .SYN_CFG [] (withBit val 0 false))
def execRouteTableWrite (src : RegSrc) (i : Fin 16384) (val : Word) (s : State) : Res3 := s.onBus src (writeReg src .SYN_RT [i.val] val.toNat)
def execLogCtlClear (src : RegSrc) (val : Word) (s : State) : Res3 := s.onBus src (writeReg src .LOG_CTL [] (withBit val 0 true))
def execClkBypass (src : RegSrc) (val : Word) (s : State) : Res3 := s.onBus src (writeReg src .CLK_BYPASS [] (withBit val 63 true))
def execClkMgmtWrite (src : RegSrc) (val : Word) (s : State) : Res3 := s.onBus src (writeReg src .CLK_MGMT [] val.toNat)
def execClkGateWrite (src : RegSrc) (val : Word) (s : State) : Res3 := s.onBus src (writeReg src .CLK_GATE [] val.toNat)
def execClkObsWrite (src : RegSrc) (val : Word) (s : State) : Res3 := s.onBus src (writeReg src .CLK_OBS [] val.toNat)
def execThmCoolWrite (src : RegSrc) (val : Word) (s : State) : Res3 := s.onBus src (writeReg src .THM_COOL [] val.toNat)
def execRstCtlCold (src : RegSrc) (val : Word) (s : State) : Res3 := s.onBus src (writeReg src .RST_CTL [] (withBit val 0 true))
def execFwCommit (src : RegSrc) (val : Word) (s : State) : Res3 := s.onBus src (writeReg src .BOOT_FW_CTL [] (withBit val 0 true))

end Sys2Proof.Machine
end

