-- ==== Sys2Proof/Machine/Dispatch.lean ====
section
/-! DEFINITION. One arm per command: the meaning it calls, or its mnemonic where it has none. -/

namespace Sys2Proof.Machine

def exec (i : Instr) (s : State) : Host.Outcome State Fault Refusal :=
  match i with
  | .registerWrite src off be val => Sys2Proof.Machine.execRegisterWrite src off be val s
  | .configRequest p write => Sys2Proof.Machine.execConfigRequest p write s
  | .pwrCeilingWrite src val => Sys2Proof.Machine.execPwrCeilingWrite src val s
  | .hpRoleWrite src val => Sys2Proof.Machine.execHpRoleWrite src val s
  | .synIdWrite src val => Sys2Proof.Machine.execSynIdWrite src val s
  | .lcsTenantWrite src val => Sys2Proof.Machine.execLcsTenantWrite src val s
  | .hrdSlopeCeilWrite src val => Sys2Proof.Machine.execHrdSlopeCeilWrite src val s
  | .lcsGradeWrite src val => Sys2Proof.Machine.execLcsGradeWrite src val s
  | .credOpen src val => Sys2Proof.Machine.execCredOpen src val s
  | .credClose src val => Sys2Proof.Machine.execCredClose src val s
  | .credBind src val => Sys2Proof.Machine.execCredBind src val s
  | .credSeal src val => Sys2Proof.Machine.execCredSeal src val s
  | .credRevoke src val => Sys2Proof.Machine.execCredRevoke src val s
  | .stackAccess req errs => Sys2Proof.Machine.execStackAccess req errs s
  | .shaftCmdCrcFail c lane => Sys2Proof.Machine.execShaftCmdCrcFail c lane s
  | .refreshRowDue b => Sys2Proof.Machine.execRefreshRowDue b s
  | .refreshComplete b => Sys2Proof.Machine.execRefreshComplete b s
  | .nbActivityEval b busyUs => Sys2Proof.Machine.execNbActivityEval b busyUs s
  | .scrubRead c errs => Sys2Proof.Machine.execScrubRead c errs s
  | .drainTimeout c unit => Sys2Proof.Machine.execDrainTimeout c unit s
  | .computeResetStage hostLost failed => Sys2Proof.Machine.execComputeResetStage hostLost failed s
  | .reverify fails => Sys2Proof.Machine.execReverify fails s
  | .mma c => Sys2Proof.Machine.execMma c s
  | .mmaStreamStart c => Sys2Proof.Machine.execMmaStreamStart c s
  | .mmaSlotUpdate c m => Sys2Proof.Machine.execMmaSlotUpdate c m s
  | .mmaOutputRecord c => Sys2Proof.Machine.execMmaOutputRecord c s
  | .mmaComplete c => Sys2Proof.Machine.execMmaComplete c s
  | .mdrain c => Sys2Proof.Machine.execMdrain c s
  | .msync c => Sys2Proof.Machine.execMsync c s
  | .msyncComplete c => Sys2Proof.Machine.execMsyncComplete c s
  | .matrixBallastStart c => Sys2Proof.Machine.execMatrixBallastStart c s
  | .add c => Sys2Proof.Machine.execAdd c s
  | .sub c => Sys2Proof.Machine.execSub c s
  | .and c => Sys2Proof.Machine.execAnd c s
  | .or c => Sys2Proof.Machine.execOr c s
  | .xor c => Sys2Proof.Machine.execXor c s
  | .sll c => Sys2Proof.Machine.execSll c s
  | .srl c => Sys2Proof.Machine.execSrl c s
  | .sra c => Sys2Proof.Machine.execSra c s
  | .mul c => Sys2Proof.Machine.execMul c s
  | .mulh c => Sys2Proof.Machine.execMulh c s
  | .slt c => Sys2Proof.Machine.execSlt c s
  | .sltu c => Sys2Proof.Machine.execSltu c s
  | .divu c => Sys2Proof.Machine.execDivu c s
  | .remu c => Sys2Proof.Machine.execRemu c s
  | .addi c => Sys2Proof.Machine.execAddi c s
  | .andi c => Sys2Proof.Machine.execAndi c s
  | .ori c => Sys2Proof.Machine.execOri c s
  | .xori c => Sys2Proof.Machine.execXori c s
  | .slli c => Sys2Proof.Machine.execSlli c s
  | .srli c => Sys2Proof.Machine.execSrli c s
  | .srai c => Sys2Proof.Machine.execSrai c s
  | .shli c => Sys2Proof.Machine.execShli c s
  | .lds c => Sys2Proof.Machine.execLds c s
  | .sts c => Sys2Proof.Machine.execSts c s
  | .ldg c => Sys2Proof.Machine.execLdg c s
  | .ldgComplete c => Sys2Proof.Machine.execLdgComplete c s
  | .stg c => Sys2Proof.Machine.execStg c s
  | .stgComplete c => Sys2Proof.Machine.execStgComplete c s
  | .beq c => Sys2Proof.Machine.execBeq c s
  | .bne c => Sys2Proof.Machine.execBne c s
  | .blt c => Sys2Proof.Machine.execBlt c s
  | .bge c => Sys2Proof.Machine.execBge c s
  | .bltu c => Sys2Proof.Machine.execBltu c s
  | .bgeu c => Sys2Proof.Machine.execBgeu c s
  | .jal c => Sys2Proof.Machine.execJal c s
  | .jalr c => Sys2Proof.Machine.execJalr c s
  | .qpush c => Sys2Proof.Machine.execQpush c s
  | .twait c => Sys2Proof.Machine.execTwait c s
  | .tread c => Sys2Proof.Machine.execTread c s
  | .dkick c => Sys2Proof.Machine.execDkick c s
  | .dctlResume c => Sys2Proof.Machine.execDctlResume c s
  | .dctlRetry c => Sys2Proof.Machine.execDctlRetry c s
  | .dctlReset c => Sys2Proof.Machine.execDctlReset c s
  | .roinv c => Sys2Proof.Machine.execRoinv c s
  | .csrr c => Sys2Proof.Machine.execCsrr c s
  | .csrw c => Sys2Proof.Machine.execCsrw c s
  | .trap c => Sys2Proof.Machine.execTrap c s
  | .eret c => Sys2Proof.Machine.execEret c s
  | .halt c => Sys2Proof.Machine.execHalt c s
  | .asyncTrap c => Sys2Proof.Machine.execAsyncTrap c s
  | .kernelComplete l => Sys2Proof.Machine.execKernelComplete l s
  | .rocFill c code addr errs => Sys2Proof.Machine.execRocFill c code addr errs s
  | .vnop c v => Sys2Proof.Machine.execVnop c v s
  | .vadd c v => Sys2Proof.Machine.execVadd c v s
  | .vsub c v => Sys2Proof.Machine.execVsub c v s
  | .vmul c v => Sys2Proof.Machine.execVmul c v s
  | .vfma c v => Sys2Proof.Machine.execVfma c v s
  | .vmax c v => Sys2Proof.Machine.execVmax c v s
  | .vmin c v => Sys2Proof.Machine.execVmin c v s
  | .vabs c v => Sys2Proof.Machine.execVabs c v s
  | .vneg c v => Sys2Proof.Machine.execVneg c v s
  | .vaddi c v => Sys2Proof.Machine.execVaddi c v s
  | .vmuli c v => Sys2Proof.Machine.execVmuli c v s
  | .vexp2 c v => Sys2Proof.Machine.execVexp2 c v s
  | .vlog2 c v => Sys2Proof.Machine.execVlog2 c v s
  | .vrcp c v => Sys2Proof.Machine.execVrcp c v s
  | .vrsqrt c v => Sys2Proof.Machine.execVrsqrt c v s
  | .vldexp c v => Sys2Proof.Machine.execVldexp c v s
  | .vgete c v => Sys2Proof.Machine.execVgete c v s
  | .vrsum c v => Sys2Proof.Machine.execVrsum c v s
  | .vrmax c v => Sys2Proof.Machine.execVrmax c v s
  | .vperm c v => Sys2Proof.Machine.execVperm c v s
  | .vcmp c v => Sys2Proof.Machine.execVcmp c v s
  | .vsel c v => Sys2Proof.Machine.execVsel c v s
  | .vcvt c v => Sys2Proof.Machine.execVcvt c v s
  | .vld c v => Sys2Proof.Machine.execVld c v s
  | .vst c v => Sys2Proof.Machine.execVst c v s
  | .vldbc c v => Sys2Proof.Machine.execVldbc c v s
  | .vseta c v => Sys2Proof.Machine.execVseta c v s
  | .vadda c v => Sys2Proof.Machine.execVadda c v s
  | .vsync c v => Sys2Proof.Machine.execVsync c v s
  | .vsyncComplete c v => Sys2Proof.Machine.execVsyncComplete c v s
  | .scratchpadAccess c port req errs => Sys2Proof.Machine.execScratchpadAccess c port req errs s
  | .dmaCopy c ch => Sys2Proof.Machine.execDmaCopy c ch s
  | .dmaCopy2d c ch => Sys2Proof.Machine.execDmaCopy2d c ch s
  | .dmaFill c ch => Sys2Proof.Machine.execDmaFill c ch s
  | .descStatusWrite c ch => Sys2Proof.Machine.execDescStatusWrite c ch s
  | .launch k => Sys2Proof.Machine.execLaunch k s
  | .launchStart l => Sys2Proof.Machine.execLaunchStart l s
  | .graphLaunch k => Sys2Proof.Machine.execGraphLaunch k s
  | .graphNodeStart k node => Sys2Proof.Machine.execGraphNodeStart k node s
  | .nbRun src t slot val => Sys2Proof.Machine.execNbRun src t slot val s
  | .nbLoad src t slot val => Sys2Proof.Machine.execNbLoad src t slot val s
  | .nbSetgrp src t slot val => Sys2Proof.Machine.execNbSetgrp src t slot val s
  | .nbCmdArrive b => Sys2Proof.Machine.execNbCmdArrive b s
  | .unitNop b => Sys2Proof.Machine.execUnitNop b s
  | .unitEnd b => Sys2Proof.Machine.execUnitEnd b s
  | .setac b => Sys2Proof.Machine.execSetac b s
  | .setlc b => Sys2Proof.Machine.execSetlc b s
  | .setlcp b => Sys2Proof.Machine.execSetlcp b s
  | .loop b => Sys2Proof.Machine.execLoop b s
  | .bzlc b => Sys2Proof.Machine.execBzlc b s
  | .rdc b => Sys2Proof.Machine.execRdc b s
  | .wrc b => Sys2Proof.Machine.execWrc b s
  | .emit b => Sys2Proof.Machine.execEmit b s
  | .dot b => Sys2Proof.Machine.execDot b s
  | .axpy b => Sys2Proof.Machine.execAxpy b s
  | .avscale b => Sys2Proof.Machine.execAvscale b s
  | .avzero b => Sys2Proof.Machine.execAvzero b s
  | .sseti b => Sys2Proof.Machine.execSseti b s
  | .sldp b => Sys2Proof.Machine.execSldp b s
  | .smov b => Sys2Proof.Machine.execSmov b s
  | .sadd b => Sys2Proof.Machine.execSadd b s
  | .ssub b => Sys2Proof.Machine.execSsub b s
  | .smul b => Sys2Proof.Machine.execSmul b s
  | .smax b => Sys2Proof.Machine.execSmax b s
  | .sexp2 b => Sys2Proof.Machine.execSexp2 b s
  | .nbStepBoundary b => Sys2Proof.Machine.execNbStepBoundary b s
  | .tokenRefill c => Sys2Proof.Machine.execTokenRefill c s
  | .nbUnitComplete b => Sys2Proof.Machine.execNbUnitComplete b s
  | .nbReadTimeout b => Sys2Proof.Machine.execNbReadTimeout b s
  | .kvPoolSet k => Sys2Proof.Machine.execKvPoolSet k s
  | .kvProfileSet k => Sys2Proof.Machine.execKvProfileSet k s
  | .seqCreate k => Sys2Proof.Machine.execSeqCreate k s
  | .seqFork k => Sys2Proof.Machine.execSeqFork k s
  | .seqFree k => Sys2Proof.Machine.execSeqFree k s
  | .seqTruncate k => Sys2Proof.Machine.execSeqTruncate k s
  | .kvAppend k => Sys2Proof.Machine.execKvAppend k s
  | .kvExport k => Sys2Proof.Machine.execKvExport k s
  | .kvSpillSet k => Sys2Proof.Machine.execKvSpillSet k s
  | .kvSwapSet k => Sys2Proof.Machine.execKvSwapSet k s
  | .kvPrefetch k => Sys2Proof.Machine.execKvPrefetch k s
  | .kvSpillPages k => Sys2Proof.Machine.execKvSpillPages k s
  | .seqSwapOut k => Sys2Proof.Machine.execSeqSwapOut k s
  | .seqSwapIn k => Sys2Proof.Machine.execSeqSwapIn k s
  | .spillStart cls => Sys2Proof.Machine.execSpillStart cls s
  | .allocWaitExpire k => Sys2Proof.Machine.execAllocWaitExpire k s
  | .kvAttend k => Sys2Proof.Machine.execKvAttend k s
  | .pageRunDispatch t => Sys2Proof.Machine.execPageRunDispatch t s
  | .mergeAccept t => Sys2Proof.Machine.execMergeAccept t s
  | .floorMergeFold ctx => Sys2Proof.Machine.execFloorMergeFold ctx s
  | .tcReduction src addr op data hint => Sys2Proof.Machine.execTcReduction src addr op data hint s
  | .victimWriteback t errs => Sys2Proof.Machine.execVictimWriteback t errs s
  | .batchTimeout t gran => Sys2Proof.Machine.execBatchTimeout t gran s
  | .tcFlush src t val => Sys2Proof.Machine.execTcFlush src t val s
  | .tcFlushDone t => Sys2Proof.Machine.execTcFlushDone t s
  | .tcRclose src t val => Sys2Proof.Machine.execTcRclose src t val s
  | .tcUnpin src t val => Sys2Proof.Machine.execTcUnpin src t val s
  | .thrashWindowEnd t => Sys2Proof.Machine.execThrashWindowEnd t s
  | .tcApertureAccess tenantView req => Sys2Proof.Machine.execTcApertureAccess tenantView req s
  | .doorbellSq src q val => Sys2Proof.Machine.execDoorbellSq src q val s
  | .doorbellCq src q val => Sys2Proof.Machine.execDoorbellCq src q val s
  | .queueEnable src q val => Sys2Proof.Machine.execQueueEnable src q val s
  | .queueDisable src q val => Sys2Proof.Machine.execQueueDisable src q val s
  | .queueReset src q val => Sys2Proof.Machine.execQueueReset src q val s
  | .fenceAck src q val => Sys2Proof.Machine.execFenceAck src q val s
  | .commandFetch q => Sys2Proof.Machine.execCommandFetch q s
  | .replyPost q => Sys2Proof.Machine.execReplyPost q s
  | .tarhelNop k => Sys2Proof.Machine.execTarhelNop k s
  | .waitQueue k => Sys2Proof.Machine.execWaitQueue k s
  | .signal k => Sys2Proof.Machine.execSignal k s
  | .tenantSwitch k => Sys2Proof.Machine.execTenantSwitch k s
  | .codeLoad k => Sys2Proof.Machine.execCodeLoad k s
  | .modelLoad k => Sys2Proof.Machine.execModelLoad k s
  | .modelLoadConvert k => Sys2Proof.Machine.execModelLoadConvert k s
  | .winOpen k => Sys2Proof.Machine.execWinOpen k s
  | .winClose k => Sys2Proof.Machine.execWinClose k s
  | .hwinMap k => Sys2Proof.Machine.execHwinMap k s
  | .hwinUnmap k => Sys2Proof.Machine.execHwinUnmap k s
  | .dmaDesc k => Sys2Proof.Machine.execDmaDesc k s
  | .dmaList k => Sys2Proof.Machine.execDmaList k s
  | .allreduce k => Sys2Proof.Machine.execAllreduce k s
  | .allgather k => Sys2Proof.Machine.execAllgather k s
  | .reduceScatter k => Sys2Proof.Machine.execReduceScatter k s
  | .broadcast k => Sys2Proof.Machine.execBroadcast k s
  | .alltoall k => Sys2Proof.Machine.execAlltoall k s
  | .permute k => Sys2Proof.Machine.execPermute k s
  | .expertDispatch k => Sys2Proof.Machine.execExpertDispatch k s
  | .expertCombine k => Sys2Proof.Machine.execExpertCombine k s
  | .groupSet k => Sys2Proof.Machine.execGroupSet k s
  | .hrdTarget k => Sys2Proof.Machine.execHrdTarget k s
  | .clkSync k => Sys2Proof.Machine.execClkSync k s
  | .hrdBallast k => Sys2Proof.Machine.execHrdBallast k s
  | .logRead k => Sys2Proof.Machine.execLogRead k s
  | .telemSnap k => Sys2Proof.Machine.execTelemSnap k s
  | .telemSnapThermal k => Sys2Proof.Machine.execTelemSnapThermal k s
  | .logClear k => Sys2Proof.Machine.execLogClear k s
  | .computeReset k => Sys2Proof.Machine.execComputeReset k s
  | .heldRelease k => Sys2Proof.Machine.execHeldRelease k s
  | .vendorTest k => Sys2Proof.Machine.execVendorTest k s
  | .flitReceive p flit => Sys2Proof.Machine.execFlitReceive p flit s
  | .idleFlitSend p => Sys2Proof.Machine.execIdleFlitSend p s
  | .laneFail p lane => Sys2Proof.Machine.execLaneFail p lane s
  | .portRetrain p => Sys2Proof.Machine.execPortRetrain p s
  | .portUp p lanes fresh => Sys2Proof.Machine.execPortUp p lanes fresh s
  | .portFailed p => Sys2Proof.Machine.execPortFailed p s
  | .portTrainAttempt p ok lanes => Sys2Proof.Machine.execPortTrainAttempt p ok lanes s
  | .flitAged place => Sys2Proof.Machine.execFlitAged place s
  | .pathHoldExpire p => Sys2Proof.Machine.execPathHoldExpire p s
  | .memberTimeout id => Sys2Proof.Machine.execMemberTimeout id s
  | .burstTorn win => Sys2Proof.Machine.execBurstTorn win s
  | .collTimeout g => Sys2Proof.Machine.execCollTimeout g s
  | .synEnSet src val => Sys2Proof.Machine.execSynEnSet src val s
  | .synEnClear src val => Sys2Proof.Machine.execSynEnClear src val s
  | .routeTableWrite src idx val => Sys2Proof.Machine.execRouteTableWrite src idx val s
  | .hostMemAccess p req => Sys2Proof.Machine.execHostMemAccess p req s
  | .cxlMemRequest p req shared => Sys2Proof.Machine.execCxlMemRequest p req shared s
  | .birsp p addr dirty => Sys2Proof.Machine.execBirsp p addr dirty s
  | .biTimeout p addr => Sys2Proof.Machine.execBiTimeout p addr s
  | .hostSnoop p addr => Sys2Proof.Machine.execHostSnoop p addr s
  | .hostCompletion p tag err data => Sys2Proof.Machine.execHostCompletion p tag err data s
  | .hostLinkDown p => Sys2Proof.Machine.execHostLinkDown p s
  | .spillDeviceLost loss => Sys2Proof.Machine.execSpillDeviceLost loss s
  | .hostLinkReset p => Sys2Proof.Machine.execHostLinkReset p s
  | .logCtlClear src val => Sys2Proof.Machine.execLogCtlClear src val s
  | .millisecondBoundary m => Sys2Proof.Machine.execMillisecondBoundary m s
  | .envelopeStep load => Sys2Proof.Machine.execEnvelopeStep load s
  | .phaseFail d phase => Sys2Proof.Machine.execPhaseFail d phase s
  | .ibcFail idx => Sys2Proof.Machine.execIbcFail idx s
  | .inputRange mv => Sys2Proof.Machine.execInputRange mv s
  | .powerLoss mv => Sys2Proof.Machine.execPowerLoss mv s
  | .clockSwitch cls => Sys2Proof.Machine.execClockSwitch cls s
  | .switchHung isl => Sys2Proof.Machine.execSwitchHung isl s
  | .clkBypass src val => Sys2Proof.Machine.execClkBypass src val s
  | .pllUnlock gen loop => Sys2Proof.Machine.execPllUnlock gen loop s
  | .clkMgmtWrite src val => Sys2Proof.Machine.execClkMgmtWrite src val s
  | .clkGateWrite src val => Sys2Proof.Machine.execClkGateWrite src val s
  | .clkObsWrite src val => Sys2Proof.Machine.execClkObsWrite src val s
  | .marginMeasure isl slack => Sys2Proof.Machine.execMarginMeasure isl slack s
  | .marginCalibrate isl => Sys2Proof.Machine.execMarginCalibrate isl s
  | .sensorSample idx v => Sys2Proof.Machine.execSensorSample idx v s
  | .sensorConvTimeout idx => Sys2Proof.Machine.execSensorConvTimeout idx s
  | .sensorSuspect idx => Sys2Proof.Machine.execSensorSuspect idx s
  | .sensorPairRecover idx => Sys2Proof.Machine.execSensorPairRecover idx s
  | .modelOverride t layer r => Sys2Proof.Machine.execModelOverride t layer r s
  | .modelOverrideEnd t layer r => Sys2Proof.Machine.execModelOverrideEnd t layer r s
  | .criticalExit t => Sys2Proof.Machine.execCriticalExit t s
  | .thmCoolWrite src val => Sys2Proof.Machine.execThmCoolWrite src val s
  | .rstCtlCold src val => Sys2Proof.Machine.execRstCtlCold src val s
  | .perstCold p => Sys2Proof.Machine.execPerstCold p s
  | .bringupStageComplete r => Sys2Proof.Machine.execBringupStageComplete r s
  | .fwCommit src val => Sys2Proof.Machine.execFwCommit src val s
  | .illegalInstruction c => Sys2Proof.Machine.execIllegalInstruction c s
  | .vectorReservedOp c v => Sys2Proof.Machine.execVectorReservedOp c v s
  | .matrixReservedOp c => Sys2Proof.Machine.execMatrixReservedOp c s
  | .nbCmdReserved src t slot val => Sys2Proof.Machine.execNbCmdReserved src t slot val s
  | .registerRead src off be => Sys2Proof.Machine.execRegisterRead src off be s
  | .unitParity c unit => Sys2Proof.Machine.execUnitParity c unit s
  | .hostLinkUp p speed width => Sys2Proof.Machine.execHostLinkUp p speed width s
  | .tapReset held => Sys2Proof.Machine.execTapReset held s
  | .ledgerProgramDone => Sys2Proof.Machine.execLedgerProgramDone s
  | .authVerifyDone => Sys2Proof.Machine.execAuthVerifyDone s
  | .sessionExpire => Sys2Proof.Machine.execSessionExpire s
  | .drainComplete => Sys2Proof.Machine.execDrainComplete s
  | .readerSlotGrant => Sys2Proof.Machine.execReaderSlotGrant s
  | .retiredReturn => Sys2Proof.Machine.execRetiredReturn s
  | .dmaChannelGrant => Sys2Proof.Machine.execDmaChannelGrant s
  | .winWrite => Sys2Proof.Machine.execWinWrite s
  | .winRead => Sys2Proof.Machine.execWinRead s
  | .winReadData => Sys2Proof.Machine.execWinReadData s
  | .winWriteDone => Sys2Proof.Machine.execWinWriteDone s
  | .winReduce => Sys2Proof.Machine.execWinReduce s
  | .unreach => Sys2Proof.Machine.execUnreach s
  | .regWr => Sys2Proof.Machine.execRegWr s
  | .regRd => Sys2Proof.Machine.execRegRd s
  | .regData => Sys2Proof.Machine.execRegData s
  | .collReady => Sys2Proof.Machine.execCollReady s
  | .collCounts => Sys2Proof.Machine.execCollCounts s
  | .collDone => Sys2Proof.Machine.execCollDone s
  | .collData => Sys2Proof.Machine.execCollData s
  | .beacon => Sys2Proof.Machine.execBeacon s
  | .grant => Sys2Proof.Machine.execGrant s
  | .syncReq => Sys2Proof.Machine.execSyncReq s
  | .syncRsp => Sys2Proof.Machine.execSyncRsp s
  | .hello => Sys2Proof.Machine.execHello s
  | .join => Sys2Proof.Machine.execJoin s
  | .leave => Sys2Proof.Machine.execLeave s
  | .alive => Sys2Proof.Machine.execAlive s
  | .fence => Sys2Proof.Machine.execFence s
  | .memberMap => Sys2Proof.Machine.execMemberMap s
  | .syncPeriod => Sys2Proof.Machine.execSyncPeriod s
  | .alivePeriod => Sys2Proof.Machine.execAlivePeriod s
  | .joinSettle => Sys2Proof.Machine.execJoinSettle s
  | .spareRelease => Sys2Proof.Machine.execSpareRelease s
  | .logSequenceAssign => Sys2Proof.Machine.execLogSequenceAssign s
  | .ceSummaryPeriod => Sys2Proof.Machine.execCeSummaryPeriod s
  | .targetApply => Sys2Proof.Machine.execTargetApply s
  | .beaconSend => Sys2Proof.Machine.execBeaconSend s
  | .grantIssue => Sys2Proof.Machine.execGrantIssue s
  | .epochStart => Sys2Proof.Machine.execEpochStart s
  | .refLoss => Sys2Proof.Machine.execRefLoss s
  | .holdoverTimeout => Sys2Proof.Machine.execHoldoverTimeout s
  | .refReturn => Sys2Proof.Machine.execRefReturn s
  | .holdoverLimit => Sys2Proof.Machine.execHoldoverLimit s
  | .modelReady => Sys2Proof.Machine.execModelReady s
  | .powerOn => Sys2Proof.Machine.execPowerOn s
  | .powerRemoved => Sys2Proof.Machine.execPowerRemoved s
  | .resetNRelease => Sys2Proof.Machine.execResetNRelease s
  | .watchdogService => Sys2Proof.Machine.execWatchdogService s
  | .watchdogExpire => Sys2Proof.Machine.execWatchdogExpire s
  | .extest => Sys2Proof.Machine.execExtest s
  | .extestPulse => Sys2Proof.Machine.execExtestPulse s
  | .extestTrain => Sys2Proof.Machine.execExtestTrain s
  | .intest => Sys2Proof.Machine.execIntest s
  | .clamp => Sys2Proof.Machine.execClamp s
  | .samplePreload => Sys2Proof.Machine.execSamplePreload s
  | .bypass => Sys2Proof.Machine.execBypass s
  | .idcode => Sys2Proof.Machine.execIdcode s
  | .mgmtClockChange => Sys2Proof.Machine.execMgmtClockChange s
  | .resetNAssert => Sys2Proof.Machine.execResetNAssert s
  | .standbyRailUp => Sys2Proof.Machine.execStandbyRailUp s

end Sys2Proof.Machine
end

