-- ==== Sys2Proof/Safety.lean ====
section
/-! DEFINITION. What counts as a safe run, in the terms the claims use. -/

namespace Sys2Proof.Machine

/-- What holds between any two commands: memory lists each byte once, in rising order, and none that an unlisted address
reads as; and no back-invalidate is half asked. -/
def Inv (s : State) : Prop := Memory.wf s.mem = true ∧ s.host.hit = []

/-- A device that runs, between two commands. -/
def Live (s : State) : Prop := s.alive = true ∧ Inv s

/-- A step is safe when it neither faults nor is refused, and keeps what holds between commands. -/
def SafeStep (s : State) : Prop := ∃ t, step s = .next t ∧ Inv t

/-- A run of `n` steps in which every step is safe. -/
def SafeRun : Nat → State → Prop
  | 0, s => Inv s
  | n + 1, s => Inv s ∧ ∃ t, step s = .next t ∧ SafeRun n t


/-! ### A scalar core's step -/

/-- The core of physical cluster `c` issues the instruction word `w`, whose operation is `op`. -/
def Issues (s : State) (c w : Nat) (op : CoreOp) : Prop :=
  Live s ∧ coreReady s c = true ∧ fetchWord s c = some w ∧ decodeCore w = op

/-- General registers after a write of gD; g0 discards it (R107). -/
def regsWith (s : State) (c d : Nat) (v : Word) : List Word := if d = 0 then (clu s c).g else lset (clu s c).g d v

/-- The step fetched its instruction (R131), wrote gD and set pc, and changed nothing else. -/
def CoreDone (s t : State) (c d : Nat) (v pc : Word) : Prop :=
  t = setClu (touchFetch s c) c { clu (touchFetch s c) c with g := regsWith s c d v, pc := pc }

/-- As `CoreDone`, for an instruction that writes no general register. -/
def CoreWent (s t : State) (c : Nat) (pc : Word) : Prop :=
  t = setClu (touchFetch s c) c { clu (touchFetch s c) c with pc := pc }

/-- Only cluster `c`'s own state and register words differ. -/
def CoreOnly (s t : State) (c : Nat) : Prop :=
  t = { s with clu := t.clu, regs := t.regs } ∧ ∀ k, k ≠ c → clu t k = clu s k

/-- No register word differs but those at the offsets listed. -/
def RegsOnly (s t : State) (offs : List Nat) : Prop :=
  ∀ (r : RegId) (ix : List Nat), r.off ix ∉ offs → rget t r ix = rget s r ix

/-- A value cut to a field's width. -/
def Fld.cut (f : Fld) (v : Nat) : Nat := v % 2 ^ (f.hi + 1 - f.lo)

/-- The register words a trap writes (R115), and the fetch's hit counter. -/
def trapOffs (c : Nat) : List Nat :=
  [RegId.CORE_STAT.off (tk c), RegId.CORE_TRAP.off (tk c), RegId.CORE_EPC.off (tk c), RegId.CORE_TVAL.off (tk c),
   RegId.ROC_CNT.off (tk c)]

/-- A trap was entered at the handler: EPC, CAUSE, TVAL, INTRAP and the trap registers are set and the core goes on at TVEC
(R115). -/
def TrapEntered (s t : State) (c code status : Nat) (tval : Word) : Prop :=
  CoreOnly s t c ∧ RegsOnly s t (trapOffs c) ∧
  (clu t c).pc = (clu s c).tvec ∧ (clu t c).epc = (clu s c).pc ∧ (clu t c).tval = tval ∧
  (clu t c).cause = status * 2 ^ 16 + code ∧ (clu t c).g = (clu s c).g ∧ (clu t c).tvec = (clu s c).tvec ∧
  (clu t c).scratch = (clu s c).scratch ∧ (clu t c).twait = none ∧
  fget t .CORE_STAT (tk c) Fld.CORE_STAT_INTRAP = 1 ∧
  fget t .CORE_STAT (tk c) Fld.CORE_STAT_RUN = fget s .CORE_STAT (tk c) Fld.CORE_STAT_RUN ∧
  fget t .CORE_TRAP (tk c) Fld.CORE_TRAP_CODE = Fld.cut Fld.CORE_TRAP_CODE code ∧
  fget t .CORE_TRAP (tk c) Fld.CORE_TRAP_STATUS = Fld.cut Fld.CORE_TRAP_STATUS status ∧
  fget t .CORE_EPC (tk c) Fld.CORE_EPC_VALUE = Fld.cut Fld.CORE_EPC_VALUE (clu s c).pc.toNat ∧
  fget t .CORE_TVAL (tk c) Fld.CORE_TVAL_VALUE = Fld.cut Fld.CORE_TVAL_VALUE tval.toNat

/-- The state in which the asynchronous cause `k` is taken: a word fault's entry in the log has its context (R116). -/
def tookTrap (s : State) (c : Nat) (k : Async) : State :=
  if isWordFault k.status then fillTrap s c k.code k.status (clu s c).pc.toNat (BitVec.ofNat 64 k.tval).toNat else s

/-- A vector core with one more word in its queue. -/
def Vx.push (v : Vx) (e : Word) : Vx := { v with queue := v.queue ++ [e] }

/-- What memory and the register file of a step that only fetched and went on to `pc` hold, with cluster `c` otherwise
changed by `f`. -/
def CoreDid (s t : State) (c : Nat) (pc : Word) (f : Clu → Clu) : Prop :=
  t = setClu (touchFetch s c) c { f (clu (touchFetch s c) c) with pc := pc }

/-- The state as a command's effect sees it: the queue is set aside. -/
def bare (s : State) : State := { s with pending := [] }

/-- The step from `s` ends in `u` with the queue of `s`, and meets no line a host holds; memory is kept in its canonical
form. -/
def Becomes (s : State) (i : Instr) (u : State) : Prop :=
  u.host.hit = [] → exec i s = .next { u with pending := s.pending, mem := Memory.norm u.mem }

/-- Every island that an access of [a, a + n) can pass has its clock: the clusters it reaches, the S layers of their towers, the
routers and the mesh (R32). -/
def wayClear (s : State) (a n : Nat) : Bool :=
  (reached s a n).all (fun c => decide (c < 1024) && !(noClock s c) && !(noClock s (2048 + c / 64)))
    && (List.range 20).all (fun i => !(noClock s (2064 + i)))

/-- The words of [a, a + n) can be read, or written, as they stand: the range is mapped and served, every word of the rows it
reaches decodes clean as it comes up the shaft, no host holds a line of it, no bank and no clock makes the access wait, and a write leaves the page
manager's banks alone. -/
def Plain (s : State) (a n : Nat) (write : Bool) : Prop :=
  accStatus s a n write = 0 ∧ outside a = false ∧ readWords s (a / 1024 * 1024) (n + 2048) true = [] ∧ trackedIn s a n = [] ∧
  bankNeeds s a n write = [] ∧ wayClear s a n = true ∧ (write = true → kvSpot s a n = false)

/-! ### Vector cores and the matrix array -/

/-- Vector core `v` takes the instruction word `w` off the head of its queue, which then holds `rest`: the core is ready,
every check of R124 passes, and no QPUSH waits for room. -/
def VHead (s : State) (c v w : Nat) (rest : List Word) : Prop :=
  Live s ∧ (clu s c).stall = none ∧ (vxOf s c v).queue = BitVec.ofNat 64 w :: rest ∧ w < 2 ^ 64 ∧ vReady s c v = true ∧
  vCheck (vxOf s c v) w = 0

/-- The step only took the instruction off the queue and changed the core's registers by `f`. -/
def VDid (s t : State) (c v : Nat) (rest : List Word) (f : Vx → Vx) : Prop :=
  t = setVx s c v { f (vxOf s c v) with queue := rest }

/-- The step took the instruction off the queue and wrote the lanes of vd that the mask enables; every other lane and
register keeps its value (R120). -/
def VLanes (s t : State) (c v w : Nat) (rest : List Word) (f : Nat → Nat) : Prop :=
  let x := vxOf s c v
  ∃ r, t = setVx s c v { x with queue := rest, v := lset x.v (vD w) r } ∧
    ∀ j, j < laneN (vTyp w) → lane (vTyp w) r j =
      if enabled x w j then f j % 2 ^ laneW (vTyp w) else lane (vTyp w) (lget 0 x.v (vD w)) j

/-- The matrix queue takes its head `e`, with opcode `opc`: the array is ready and no QPUSH waits for room. -/
def MHead (s : State) (c opc : Nat) (e : List Nat) (rest : List (List Nat)) : Prop :=
  Live s ∧ (clu s c).stall = none ∧ (mxOf s c).queue = e :: rest ∧ mxReady s c = true ∧ mOpc (lget 0 e 0) = opc

/-- The state with the ballast mark of the matrix array off: an instruction at the head ends ballast (R106). -/
def noBallast (s : State) (c : Nat) : State := fset s .MX_STAT (tk c) Fld.MX_STAT_BALLAST 0

/-! ### Near-bank units -/

/-- The unit `u` of bank `k` runs `r` and its next micro-operation is the word `w`. -/
def UnitAt (s : State) (k w : Nat) (u : NbUnit) (r : NbRun) : Prop :=
  Live s ∧ nbUnit s k = u ∧ u.run = some r ∧ r.stop = none ∧ r.desc = false ∧ r.cmd.kv = false ∧ pillarOff s (k / 512) = false ∧
  noClock s (k / 512) = false ∧
  lget 0 (lget [] u.store r.cmd.store) r.pc = w

/-- The step only changed the unit of bank `k`, to `u` going on with `r` at program entry `pc`. -/
def UnitWent (s t : State) (k : Nat) (u : NbUnit) (r : NbRun) (pc : Nat) : Prop :=
  t = setUnit s k { u with run := some { r with pc := pc } }

/-! ### Tarhel commands -/

/-- The Tarhel command `c`, of opcode `opc`, may start: it is the one in flight under number `k`, and its ring order, its
barrier and its queue's fence let it (R267, R271). -/
def Starts (s : State) (k opc : Nat) (c : Cmd) : Prop :=
  Live s ∧ cmdOf s k = some c ∧ c.opc = opc ∧ canStart s c = true

/-- The state in which a command that starts has its effect. -/
def begun (s : State) (c : Cmd) : State := beginCmd (bare s) c

/-- As `Starts`, for a command that may also be taken further after it has begun. -/
def Goes (s : State) (k opc : Nat) (c : Cmd) (b : State) : Prop :=
  Live s ∧ cmdOf s k = some c ∧ c.opc = opc ∧
  ((canStart s c = true ∧ b = begun s c) ∨
   (canStart s c = false ∧ c.begun = true ∧ c.status = none ∧ qFenced s c.q = false ∧ isHeld s = false ∧ b = bare s))

/-- The step finished the command in flight under number `k` with a status and a DETAIL, and `P` holds of what it left. -/
def Finishes (s : State) (i : Instr) (k st det : Nat) (P : State → Prop) : Prop :=
  ∃ t c, exec i s = .next t ∧ cmdOf t k = some c ∧ c.status = some st ∧ c.detail = det % 2 ^ 64 ∧ t.mem = s.mem ∧
    t.log = s.log ∧ t.clu = s.clu ∧ P t

/-- The manager's part of the step for command `k` comes to `u`: what `u` changed in its tables is written into the metadata
region (R182), and a fault's status noted. -/
def KvBecomes (s : State) (i : Instr) (k : Nat) (u : State) : Prop := Becomes s i (kvDo k (fun _ => u) (bare s))

/-- What is written of the manager's tables lies in the metadata region. -/
def InMeta (s : State) (y : Nat × List Byte) : Prop := metaBase s ≤ y.1 ∧ y.1 + y.2.length ≤ metaBase s + metaSize s

/-- As `Finishes`, for a command of the page manager whose tables change: its writes stay in the metadata region, as long as
what the region holds, what went from it and what is still owed to it lie there (R182; log entry 131). -/
def KvFinishes (s : State) (i : Instr) (k st det : Nat) (P : State → Prop) : Prop :=
  ∃ t c, exec i s = .next t ∧ cmdOf t k = some c ∧ c.status = some st ∧ c.detail = det % 2 ^ 64 ∧
    (s.tc = [] → t.log = s.log ∧ t.clu = s.clu ∧ ((∀ y ∈ s.kv.owed ++ itemsAt t ++ goneItems s t, InMeta s y) →
      RegsOnly s t [RegId.ECC_INJ.off []] ∧
      ∀ x, (x < metaBase s ∨ metaBase s + metaSize s ≤ x) → mget t.mem x = mget s.mem x)) ∧ P t

/-! ### Synur -/

/-- The device takes the packet at the head of its inbox: one of TYPE `typ`, from port `p`; the credits it held go back to its
sender (R291). -/
def TakesPkt (s : State) (typ p : Nat) (x : Pkt) (u : State) : Prop :=
  Live s ∧ x.typ = typ ∧ ∃ r, s.syn.inbox = (p, x) :: r ∧
    u = giveCredit { bare s with syn := { s.syn with inbox := r } } ⟨x, some (p, x.vcl)⟩

/-! ### The register space -/

/-- A whole-word write of a source of the Operator view reaches register `r` at `ix`. -/
def Reaches (s : State) (src : RegSrc) (r : RegId) (ix : List Nat) : Prop :=
  Live s ∧ ratioBad s = none ∧ tenantSrc src = false ∧ viewOff src (r.off ix) = some (r.off ix) ∧
  land s src (r.off ix) = .reg r ix

/-! ### Reset -/

/-- A cold reset has begun, from the source whose bit of RST_CAUSE is `bit`: the device runs the first stage of bring-up,
registers have their reset values but for those R423 keeps and those that fuses hold, and stack memory is as it was
(R423, R424). -/
def ColdBegun (s t : State) (bit : Nat) : Prop :=
  t.alive = true ∧ t.pending = s.pending ∧ t.mem = s.mem ∧ t.chk = s.chk ∧ t.tick = 0 ∧ t.ready = false ∧ t.log = ⟨[], [], []⟩ ∧
  t.cmds = [] ∧ t.clu = [] ∧ t.syn = Syn.init ∧ t.host = HostSt.init ∧ t.kv = Kv.init ∧ t.topo = State.reset.topo ∧
  (s.boot.frrOpen = 0 → t.boot.frr = s.boot.frr) ∧ t.boot.frrOpen = 0 ∧ t.boot.mfg = s.boot.mfg ∧ t.boot.raises = s.boot.raises ∧ t.lcs.keys = s.lcs.keys ∧ t.lcs.session = none ∧
  fget t .BOOT_STAT [] Fld.BOOT_STAT_STAGE = 1 ∧ rget t .RST_CAUSE [] = 2 ^ bit ∧ rget t .THM_TRIP [] = rget s .THM_TRIP [] ∧
  fget t .RST_CNT [] Fld.RST_CNT_COLD =
    (if s.boot.fresh then fget s .RST_CNT [] Fld.RST_CNT_COLD
     else min (2 ^ (Fld.RST_CNT_COLD.hi + 1 - Fld.RST_CNT_COLD.lo) - 1) (fget s .RST_CNT [] Fld.RST_CNT_COLD + 1)) ∧
  fget t .BOOT_FW [] Fld.BOOT_FW_MIN_SVN = fget s .BOOT_FW [] Fld.BOOT_FW_MIN_SVN ∧
  fget t .LCS_STAT [] Fld.LCS_STAT_COMMISSIONED = fget s .LCS_STAT [] Fld.LCS_STAT_COMMISSIONED ∧
  (∀ r : RegId, r.desc.dims = [] → r.desc.domain ≠ .powerOn → r ∉ [.BOOT_FW, .BOOT_FW_CTL, .LCS_STAT] →
    rget t r [] = resetWord r [])

end Sys2Proof.Machine
end

