-- ==== Sys2Proof/Certificates/Slice0/Obligations.lean ====
section
/-! DEFINITION. The statements for the provers. -/

open Sys2Proof Sys2Proof.Machine

/-! ### The queue and the step -/

/-- A step takes the command at the front of the queue and runs it on the state with the rest of the queue. -/
def Obligations.StepRunsTheFrontCommand : Prop :=
  ∀ (s : State) (c : Instr) (rest : List Instr), s.pending = c :: rest →
    step s = exec c { s with pending := rest }

/-- R107–R109: the register-to-register instructions write the result of the operands' words to gD and go on at pc + 4;
nothing but the fetch's own bookkeeping changes besides.
R107–R109: the immediate instructions write the result of the operand's word and the immediate to gD and go on at
pc + 4. -/
def Obligations.ArithmeticInstructionsWriteTheirResult : Prop :=
  (∀ (s : State) (c : Fin 1024) (w : Nat),
    let a := reg s c (fA w)
    let b := reg s c (fB w)
    let done := fun (i : Instr) (v : Word) =>
      ∃ t, exec i s = .next t ∧ CoreDone s t c (fD w) v ((clu s c).pc + 4)
    (Issues s c w .add → done (.add c) (a + b)) ∧
    (Issues s c w .sub → done (.sub c) (a - b)) ∧
    (Issues s c w .and → done (.and c) (a &&& b)) ∧
    (Issues s c w .or → done (.or c) (a ||| b)) ∧
    (Issues s c w .xor → done (.xor c) (a ^^^ b)) ∧
    (Issues s c w .sll → done (.sll c) (a <<< (b.toNat % 64))) ∧
    (Issues s c w .srl → done (.srl c) (a >>> (b.toNat % 64))) ∧
    (Issues s c w .sra → done (.sra c) (a.sshiftRight (b.toNat % 64))) ∧
    (Issues s c w .mul → done (.mul c) (a * b)) ∧
    (Issues s c w .mulh → done (.mulh c) (BitVec.ofInt 64 (a.toInt * b.toInt / 2 ^ 64))) ∧
    (Issues s c w .slt → done (.slt c) (if a.toInt < b.toInt then 1 else 0)) ∧
    (Issues s c w .sltu → done (.sltu c) (if a.toNat < b.toNat then 1 else 0)) ∧
    (Issues s c w .divu → done (.divu c) (if b = 0 then BitVec.allOnes 64 else a / b)) ∧
    (Issues s c w .remu → done (.remu c) (if b = 0 then a else a % b))) ∧
  (∀ (s : State) (c : Fin 1024) (w : Nat),
    let a := reg s c (fA w)
    let done := fun (i : Instr) (v : Word) =>
      ∃ t, exec i s = .next t ∧ CoreDone s t c (fD w) v ((clu s c).pc + 4)
    (Issues s c w .addi → done (.addi c) (a + simm w)) ∧
    (Issues s c w .andi → done (.andi c) (a &&& zimm w)) ∧
    (Issues s c w .ori → done (.ori c) (a ||| zimm w)) ∧
    (Issues s c w .xori → done (.xori c) (a ^^^ zimm w)) ∧
    (Issues s c w .slli → done (.slli c) (a <<< (w % 64))) ∧
    (Issues s c w .srli → done (.srli c) (a >>> (w % 64))) ∧
    (Issues s c w .srai → done (.srai c) (a.sshiftRight (w % 64))) ∧
    (Issues s c w .shli → done (.shli c) ((a <<< 16) ||| zimm w)))

/-- R108, R109: a branch goes to pc + 4 × OFS when its condition holds and to pc + 4 otherwise; JAL and JALR write pc + 4 to
gD and jump. -/
def Obligations.BranchesAndJumpsSetThePc : Prop :=
  ∀ (s : State) (c : Fin 1024) (w : Nat),
    let pc := (clu s c).pc
    let a := reg s c (bits w 25 21)
    let b := reg s c (bits w 20 16)
    let went := fun (i : Instr) (taken : Prop) [Decidable taken] =>
      ∃ t, exec i s = .next t ∧ CoreWent s t c (if taken then pc + BitVec.ofInt 64 (4 * sext 16 w) else pc + 4)
    (Issues s c w .beq → went (.beq c) (a = b)) ∧
    (Issues s c w .bne → went (.bne c) (a ≠ b)) ∧
    (Issues s c w .blt → went (.blt c) (a.toInt < b.toInt)) ∧
    (Issues s c w .bge → went (.bge c) (b.toInt ≤ a.toInt)) ∧
    (Issues s c w .bltu → went (.bltu c) (a.toNat < b.toNat)) ∧
    (Issues s c w .bgeu → went (.bgeu c) (b.toNat ≤ a.toNat)) ∧
    (Issues s c w .jal → ∃ t, exec (.jal c) s = .next t ∧
      CoreDone s t c (fD w) (pc + 4) (pc + BitVec.ofInt 64 (4 * sext 21 w))) ∧
    (Issues s c w .jalr → ∃ t, exec (.jalr c) s = .next t ∧
      CoreDone s t c (fD w) (pc + 4) ((reg s c (fA w) + simm w) &&& ~~~ (3 : Word)))

/-- R110: CSRR gives the register of its number, and CSRW writes EPC, TVEC and SCRATCH. -/
def Obligations.CsrAccessesReadAndWrite : Prop :=
  ∀ (s : State) (c : Fin 1024) (w : Nat),
    let x := clu s c
    let a := reg s c (fA w)
    let reads := fun (n : Nat) (v : Word) => w % 256 = n → Issues s c w .csrr →
      ∃ t, exec (.csrr c) s = .next t ∧ CoreDone s t c (fD w) v (x.pc + 4)
    let writes := fun (n : Nat) (f : Clu → Clu) => w % 256 = n → Issues s c w .csrw →
      ∃ t, exec (.csrw c) s = .next t ∧ CoreDid s t c (x.pc + 4) f
    reads 0 (BitVec.ofNat 64 s.tick) ∧ reads 1 (BitVec.ofNat 64 ((logOf s c).getD 0)) ∧
    reads 2 (BitVec.ofNat 64 x.lcount) ∧ reads 3 (BitVec.ofNat 64 x.rank) ∧ reads 4 (BitVec.ofNat 64 x.cause) ∧
    reads 5 x.epc ∧ reads 6 x.tval ∧ reads 7 x.tvec ∧ reads 8 x.scratch ∧
    writes 5 (fun x => { x with epc := a }) ∧ writes 7 (fun x => { x with tvec := a }) ∧
    writes 8 (fun x => { x with scratch := a })

/-- R109, R110, R115: outside a handler TRAP enters it with its immediate, an unlisted operation with cause illegal
instruction, and so does a CSRW to a read-only register; an asynchronous cause that is held enters it before the next
instruction.
R115: a synchronous trap while INTRAP = 1 stops the core: STOPPED is set, HALTED stays, EXIT reads 0xFFFF, the trap
registers record the second trap, and CORE_STOPPED is reported.
R115, R118: ERET leaves the handler at EPC; HALT records the exit code and ends the core's run. -/
def Obligations.TrapsEnterTheHandler : Prop :=
  (∀ (s : State) (c : Fin 1024) (w : Nat), inTrap s c = false →
    (Issues s c w .trap → ∃ t, exec (.trap c) s = .next t ∧ TrapEntered (touchFetch s c) t c 0x0B 0 (BitVec.ofNat 64 (w % 65536))) ∧
    (Issues s c w .illegal → ∃ t, exec (.illegalInstruction c) s = .next t ∧
      TrapEntered (touchFetch s c) t c 0x01 0 (BitVec.ofNat 64 w)) ∧
    (Issues s c w .csrw → w % 256 ∉ [5, 7, 8] → ∃ t, exec (.csrw c) s = .next t ∧
      TrapEntered (touchFetch s c) t c 0x01 0 (BitVec.ofNat 64 w)) ∧
    (∀ (k : Async) (r : List Async), Live s → (clu s c).held = k :: r →
      fbit s .CORE_STAT (tk c) Fld.CORE_STAT_RUN = true → (clu s c).load = none → (clu s c).store = none →
      (clu s c).stall = none → drained s c = false →
      ∃ t, exec (.asyncTrap c) s = .next t ∧ TrapEntered (tookTrap s c k) t c k.code k.status (BitVec.ofNat 64 k.tval) ∧
        (clu t c).held = r)) ∧
  (∀ (s : State) (c : Fin 1024) (w : Nat), inTrap s c = true → Issues s c w .trap →
    ∃ t, exec (.trap c) s = .next t ∧
      fget t .CORE_STAT (tk c) Fld.CORE_STAT_STOPPED = 1 ∧ fget t .CORE_STAT (tk c) Fld.CORE_STAT_RUN = 0 ∧
      fget t .CORE_STAT (tk c) Fld.CORE_STAT_HALTED = fget s .CORE_STAT (tk c) Fld.CORE_STAT_HALTED ∧
      fget t .CORE_STAT (tk c) Fld.CORE_STAT_EXIT = 0xFFFF ∧
      fget t .CORE_TRAP (tk c) Fld.CORE_TRAP_CODE = 0x0B ∧
      fget t .CORE_EPC (tk c) Fld.CORE_EPC_VALUE = (clu s c).pc.toNat % 2 ^ 48 ∧
      fget t .CORE_TVAL (tk c) Fld.CORE_TVAL_VALUE = w % 65536 ∧
      (∃ r : Report, t.log.waiting = (touchFetch s c).log.waiting ++ [r] ∧ r.ev = 0x04 ∧ r.idx = c.val) ∧
      t.mem = s.mem ∧ RegsOnly (touchFetch s c) t (trapOffs c)) ∧
  (∀ (s : State) (c : Fin 1024) (w : Nat),
    (Issues s c w .eret → ∃ t, exec (.eret c) s = .next t ∧ CoreOnly (touchFetch s c) t c ∧
      RegsOnly (touchFetch s c) t [RegId.CORE_STAT.off (tk c), RegId.ROC_CNT.off (tk c)] ∧
      (clu t c).pc = (clu s c).epc ∧ (clu t c).g = (clu s c).g ∧ (clu t c).cause = (clu s c).cause ∧
      fget t .CORE_STAT (tk c) Fld.CORE_STAT_INTRAP = 0 ∧
      fget t .CORE_STAT (tk c) Fld.CORE_STAT_RUN = fget s .CORE_STAT (tk c) Fld.CORE_STAT_RUN) ∧
    (Issues s c w .halt → ∃ t, exec (.halt c) s = .next t ∧ CoreOnly (touchFetch s c) t c ∧
      RegsOnly (touchFetch s c) t [RegId.CORE_STAT.off (tk c), RegId.ROC_CNT.off (tk c)] ∧
      (clu t c).pc = (clu s c).pc ∧ (clu t c).g = (clu s c).g ∧
      fget t .CORE_STAT (tk c) Fld.CORE_STAT_HALTED = 1 ∧ fget t .CORE_STAT (tk c) Fld.CORE_STAT_RUN = 0 ∧
      fget t .CORE_STAT (tk c) Fld.CORE_STAT_EXIT = (reg s c (fA w)).toNat % 65536))

/-- R112, R113, R132, R136, R140: QPUSH appends to a queue with room, TWAIT waits for its token and TREAD reads one, DKICK
sets TAIL, DCTL acts on a halted channel, and ROINV invalidates. -/
def Obligations.QueueTokenAndChannelInstructions : Prop :=
  ∀ (s : State) (c : Fin 1024) (w : Nat),
    let x := clu s c
    let next := x.pc + 4
    let ch := w % 16
    let src := w % 32
    let a := (reg s c (fA w)).toNat % 65536
    (Issues s c w .qpush → w % 8 = 0 → fA w % 4 = 0 → fA w ≠ 0 → pushesStopped s c = false → srcHalted s c 0 = false →
      x.mx.queue.length < 256 → ∃ t, exec (.qpush c) s = .next t ∧ CoreOnly (touchFetch s c) t c ∧
        RegsOnly (touchFetch s c) t [RegId.MX_STAT.off (tk c), RegId.ROC_CNT.off (tk c)] ∧ (clu t c).pc = next ∧ (clu t c).g = x.g ∧
        (clu t c).vx = x.vx ∧
        (clu t c).mx.queue = x.mx.queue ++ [[(reg s c (fA w)).toNat, (reg s c (fA w + 1)).toNat,
          (reg s c (fA w + 2)).toNat, (reg s c (fA w + 3)).toNat]] ∧
        fget t .MX_STAT (tk c) Fld.MX_STAT_BALLAST = 0) ∧
    (∀ v : Fin 4, Issues s c w .qpush → w % 8 = v.val + 1 → pushesStopped s c = false → srcHalted s c (v + 1) = false →
      (lget Vx.init x.vx v).queue.length < 64 → ∃ t, exec (.qpush c) s = .next t ∧
        CoreDid s t c next (fun y => { y with vx := lset y.vx v (Vx.push (lget Vx.init y.vx v) (reg s c (fA w))) })) ∧
    (Issues s c w .twait → src ∉ [5, 6, 7, 8, 9, 10, 11, 12, 13, 14, 15] → srcHalted s c src = false →
      ∃ t, exec (.twait c) s = .next t ∧
        if (lget 0 x.tokens src + 65536 - a) % 65536 < 32768 then CoreDid s t c next id
        else CoreDid s t c x.pc (fun x => { x with twait := some (src, a) })) ∧
    (Issues s c w .twait → src ∉ [5, 6, 7, 8, 9, 10, 11, 12, 13, 14, 15] → srcHalted s c src = true →
      inTrap s c = false → ∃ t, exec (.twait c) s = .next t ∧ TrapEntered (touchFetch s c) t c 0x09 0 (BitVec.ofNat 64 src)) ∧
    (Issues s c w .tread → src ∉ [5, 6, 7, 8, 9, 10, 11, 12, 13, 14, 15] →
      ∃ t, exec (.tread c) s = .next t ∧ CoreDone s t c (fD w) (BitVec.ofNat 64 (lget 0 x.tokens src)) next) ∧
    (Issues s c w .dkick → pushesStopped s c = false → ∃ t, exec (.dkick c) s = .next t ∧ CoreOnly (touchFetch s c) t c ∧
      (clu t c).pc = next ∧ (clu t c).g = x.g ∧ (clu t c).dma = x.dma ∧
      RegsOnly (touchFetch s c) t [RegId.DMA_CH_PTR.off (tk c ++ [ch]), RegId.DMA_CH_STAT.off (tk c ++ [ch]), RegId.ROC_CNT.off (tk c)] ∧
      dmaHead t c ch = dmaHead s c ch ∧
      if 2 ^ ringLog s c ch < (a + 65536 - dmaHead s c ch) % 65536
      then dmaTail t c ch = dmaTail s c ch ∧ fget t .DMA_CH_STAT (tk c ++ [ch]) Fld.DMA_CH_STAT_KICK_ERR = 1
      else dmaTail t c ch = a) ∧
    (∀ (i : Instr) (op : CoreOp) (head : Nat),
      (i, op, head) ∈ [(.dctlResume c, .dctlResume, dmaHead s c ch + 1), (.dctlRetry c, .dctlRetry, dmaHead s c ch),
        (.dctlReset c, .dctlReset, dmaTail s c ch)] →
      Issues s c w op → pushesStopped s c = false → dmaHalted s c ch = true →
      ∃ t, exec i s = .next t ∧ CoreOnly (touchFetch s c) t c ∧ (clu t c).pc = next ∧ (clu t c).g = x.g ∧
        RegsOnly (touchFetch s c) t [RegId.DMA_CH_PTR.off (tk c ++ [ch]), RegId.DMA_CH_STAT.off (tk c ++ [ch]), RegId.ROC_CNT.off (tk c)] ∧
        dmaHalted t c ch = false ∧ dmaHead t c ch = head % 65536 ∧ dmaTail t c ch = dmaTail s c ch) ∧
    (Issues s c w .roinv → ∃ t, exec (.roinv c) s = .next t ∧ CoreDid s t c next (fun x =>
      { x with roc := if tbit w 0 then [] else x.roc.filter (fun l => l.code),
               rocErr := x.rocErr.filter (fun e => !(tbit w 0) && e.1 % 2 == 1) }))

/-- R109, R126, R128: LDS reads eight bytes of the cluster's own scratchpad into gD; STS writes eight bytes of gD there and
no other byte of memory; the request counts the cycles it waited for its port (R127; log entry 18).
R109, R115: a load or store at an address that is not aligned to 8 bytes traps, and one past the scratchpad is
unmapped. -/
def Obligations.ScratchpadLoadAndStore : Prop :=
  (∀ (s : State) (c : Fin 1024) (w l : Nat),
    let a := effAddr s c w
    let x := spAddr l a.toNat
    let u := atBanks (portWaits c 7 a.toNat 8 (touchFetch s c)) x 8 true
    logOf s c = some l → a.toNat < 2 ^ 22 → a.toNat % 8 = 0 → (∀ e ∈ s.tcBytes, e.1 < spBase) →
    (Issues s c w .lds → Plain s x 8 false →
      ∃ t, exec (.lds c) s = .next t ∧ t = setClu u c { clu u c with
        g := regsWith s c (fD w) (BitVec.ofNat 64 (leNat (mread s.mem x 8))), pc := (clu s c).pc + 4 }) ∧
    (Issues s c w .sts → Plain s x 8 true → injArmed s (x / 16) = false →
      ∃ t, exec (.sts c) s = .next t ∧
        t = { setClu u c { clu u c with pc := (clu s c).pc + 4 } with mem := t.mem, chk := t.chk } ∧
        (∀ y, mget t.mem y = if x ≤ y ∧ y < x + 8 then lget 0 (leBytes 8 (reg s c (fD w)).toNat) (y - x) else mget s.mem y) ∧
        ∀ k, devOf t k = if k = x / 16 then 0 else devOf s k)) ∧
  (∀ (s : State) (c : Fin 1024) (w : Nat), inTrap s c = false →
    let a := effAddr s c w
    (∀ (i : Instr) (op : CoreOp), (i, op) ∈ [(.lds c, .lds), (.sts c, .sts)] → Issues s c w op →
      (a.toNat < 2 ^ 22 → a.toNat % 8 ≠ 0 → ∃ t, exec i s = .next t ∧ TrapEntered (touchFetch s c) t c 0x02 0 a) ∧
      (2 ^ 22 ≤ a.toNat → ∃ t, exec i s = .next t ∧ TrapEntered (touchFetch s c) t c 0x03 0 a)) ∧
    (∀ (i : Instr) (op : CoreOp), (i, op) ∈ [(.ldg c, .ldg), (.stg c, .stg)] → Issues s c w op →
      (a.toNat < 2 ^ 48 → a.toNat % 8 ≠ 0 → ∃ t, exec i s = .next t ∧ TrapEntered (touchFetch s c) t c 0x02 0 a) ∧
      (2 ^ 48 ≤ a.toNat → ∃ t, exec i s = .next t ∧ TrapEntered (touchFetch s c) t c 0x03 0 a)))

/-- R111: LDG and STG issue and the core waits; LDG_COMPLETE brings the data to gD and STG_COMPLETE stores it, and the core
goes on.
R131: a line that is not in the read-only cache is filled from memory, and a line that is stays as it is.
(Model: answers from outside the device and the corrections of a fill are as log entries 10, 13 and 58 say.) -/
def Obligations.GlobalLoadAndStore : Prop :=
  (∀ (s : State) (c : Fin 1024) (w : Nat),
    let x := clu s c
    let a := (effAddr s c w).toNat
    (a < 2 ^ 48 → a % 8 = 0 → outside a = false →
      (Issues s c w .ldg → accStatus s a 8 false ≠ 0x0301 → ∃ t, exec (.ldg c) s = .next t ∧
        CoreDid s t c x.pc (fun x => { x with load := some ⟨a, fD w, 0, none⟩ })) ∧
      (Issues s c w .stg → accStatus s a 8 true ≠ 0x0301 → ∃ t, exec (.stg c) s = .next t ∧
        CoreDid s t c x.pc (fun x => { x with store := some ⟨a, fD w, reg s c (fD w), none⟩ }))) ∧
    (∀ p : CorePend, Live s → drained s c = false → outside p.addr = false → x.load = some p →
      let b := modClu (bare s) c (fun x => { x with load := none })
      let r := accRead b (coreAgent b c) p.addr 8 (trapMore b c 0x06 (BitVec.ofNat 64 p.addr))
      r.st = 0 → Becomes s (.ldgComplete c) (nextPc (setReg r.s c p.reg (BitVec.ofNat 64 (leNat r.bytes))) c)) ∧
    (∀ p : CorePend, Live s → drained s c = false → outside p.addr = false → x.store = some p →
      let b := modClu (bare s) c (fun x => { x with store := none })
      let r := accWrite b (coreAgent b c) p.addr (leBytes 8 p.data.toNat) (trapMore b c 0x06 (BitVec.ofNat 64 p.addr))
      r.1 = 0 → Becomes s (.stgComplete c) (nextPc r.2 c)) ∧
    (∀ (p : CorePend) (d : List Byte), Live s → drained s c = false → outside p.addr = true →
      x.load = some p → p.answer = some (0, d) → ∃ t, exec (.ldgComplete c) s = .next t ∧ CoreOnly s t c ∧ RegsOnly s t [] ∧
        (clu t c).load = none ∧ (clu t c).pc = x.pc + 4 ∧ (clu t c).g = regsWith s c p.reg (BitVec.ofNat 64 (leNat d)))) ∧
  (∀ (s : State) (c : Fin 1024) (code : Bool) (a : Nat), Live s → (clu s c).rocErr = [] →
    (rocFind (clu s c) code a = none →
      let r := rocFillLine (bare s) c code (a / 256)
      ∀ l, r.1 = 0 → rocFind (clu r.2 c) code a = some l → groupStatus l a = 0 →
        Becomes s (.rocFill c code a []) (fillDone r.2 c code a)) ∧
    (∀ l, rocFind (clu s c) code a = some l → groupHeld l a = true → exec (.rocFill c code a []) s = .next s))

/-- R120–R122: each lane-wise vector instruction writes its result to the enabled lanes of vd.
(Model: where the spec states no result the lane is open (log entry 9); how 2^x and log2 x are computed is log entry 14.) -/
def Obligations.VectorLaneInstructions : Prop :=
  ∀ (s : State) (c : Fin 1024) (v : Fin 4) (w : Nat) (rest : List Word),
    let x := vxOf s c v
    let T := vTyp w
    let va := fun j => lane T (lget 0 x.v (vA w)) j
    let vb := fun j => lane T (lget 0 x.v (vB w)) j
    let vc := fun j => lane T (lget 0 x.v (vC w)) j
    let done := fun (i : Instr) (op : Nat) (f : Nat → Nat) =>
      vOp w = op → ∃ t, exec i s = .next t ∧ VLanes s t c v w rest f
    VHead s c v w rest →
    done (.vadd c v) 0x01 (fun j => laneOp T 1 (va j) (vb j)) ∧
    done (.vsub c v) 0x02 (fun j => laneOp T 2 (va j) (vb j)) ∧
    done (.vmul c v) 0x03 (fun j => laneOp T 3 (va j) (vb j)) ∧
    done (.vfma c v) 0x04 (fun j => laneFma T (va j) (vb j) (vc j)) ∧
    done (.vmax c v) 0x05 (fun j => laneOp T 5 (va j) (vb j)) ∧
    done (.vmin c v) 0x06 (fun j => laneOp T 6 (va j) (vb j)) ∧
    done (.vabs c v) 0x07 (fun j => laneAbs T (va j)) ∧
    done (.vneg c v) 0x08 (fun j => laneNeg T (va j)) ∧
    done (.vaddi c v) 0x09 (fun j => laneOp T 1 (va j) (laneConst T (vImm w))) ∧
    done (.vmuli c v) 0x0A (fun j => laneOp T 3 (va j) (laneConst T (vImm w))) ∧
    done (.vexp2 c v) 0x10 (fun j => laneFun T 0x10 (va j)) ∧
    done (.vlog2 c v) 0x11 (fun j => laneFun T 0x11 (va j)) ∧
    done (.vrcp c v) 0x12 (fun j => laneFun T 0x12 (va j)) ∧
    done (.vrsqrt c v) 0x13 (fun j => laneFun T 0x13 (va j)) ∧
    done (.vldexp c v) 0x14 (fun j => laneLdexp T (va j) (vb j)) ∧
    done (.vgete c v) 0x15 (fun j => laneGete T (va j)) ∧
    done (.vperm c v) 0x1A (fun j => va (vb j % laneN T))

/-- R121: an integer lane of VADD, VSUB, VMUL and VFMA wraps modulo two to its width, and VMAX and VMIN compare it as a
signed number. -/
def Obligations.IntegerLanesWrap : Prop :=
  ∀ T a b c : Nat, T ∈ [2, 3, 4] →
    let m := 2 ^ laneW T
    a < m → b < m → c < m →
    laneOp T 1 a b = (a + b) % m ∧ laneOp T 2 a b = (a + m - b) % m ∧ laneOp T 3 a b = a * b % m ∧
    laneFma T a b c = (a * b + c) % m ∧
    laneOp T 5 a b = (if sext (laneW T) a ≤ sext (laneW T) b then b else a) ∧
    laneOp T 6 a b = (if sext (laneW T) a ≤ sext (laneW T) b then a else b)

/-- R121–R123: the instructions across lanes: reductions give every lane the tree's root, VCMP writes the enabled bits of a
mask register, VSEL chooses lane by lane, and VCVT converts the part it names.
R113, R124: VSYNC's token is posted once it is at the head; a reserved VOP at the head halts the queue with reject code
0x01 and holds the cause for the scalar core.
(Model: what disabled lanes keep is log entry 62.) -/
def Obligations.VectorCrossLaneInstructions : Prop :=
  (∀ (s : State) (c : Fin 1024) (v : Fin 4) (w : Nat) (rest : List Word),
    let x := vxOf s c v
    let T := vTyp w
    let va := fun j => lane T (lget 0 x.v (vA w)) j
    let vb := fun j => lane T (lget 0 x.v (vB w)) j
    let all := fun (t : State) (f : Nat → Nat) => ∃ r, t = setVx s c v { x with queue := rest, v := lset x.v (vD w) r } ∧
      ∀ j, j < laneN T → lane T r j = f j % 2 ^ laneW T
    VHead s c v w rest →
    (vOp w = 0x00 → ∃ t, exec (.vnop c v) s = .next t ∧ VDid s t c v rest id) ∧
    (vOp w = 0x18 → ∃ t, exec (.vrsum c v) s = .next t ∧ all t (fun _ => lget 0 (treeFold (laneOp T 1) 8
      ((List.range (laneN T)).map (fun j => if enabled x w j then va j else 0))) 0)) ∧
    (vOp w = 0x19 → ∃ t, exec (.vrmax c v) s = .next t ∧ all t (fun _ => lget 0 (treeFold (laneOp T 5) 8
      ((List.range (laneN T)).map (fun j => if enabled x w j then va j else laneMin T))) 0)) ∧
    (vOp w = 0x20 → ∃ t m, exec (.vcmp c v) s = .next t ∧
      t = setVx s c v { x with queue := rest, m := lset x.m (vD w % 8) m } ∧
      ∀ j, tbit m j = if j < laneN T ∧ enabled x w j = true then laneCmp T (vImm w % 4) (va j) (vb j)
        else tbit (lget 0 x.m (vD w % 8)) j) ∧
    (vOp w = 0x21 → ∃ t, exec (.vsel c v) s = .next t ∧
      all t (fun j => if tbit (lget 0 x.m (vMsk w)) j then va j else vb j)) ∧
    (vOp w = 0x28 →
      let S := bits (vImm w) 2 0
      let p := bits (vImm w) 4 3
      let src := fun j => lane S (lget 0 x.v (vA w)) j
      ∃ t r, exec (.vcvt c v) s = .next t ∧ t = setVx s c v { x with queue := rest, v := lset x.v (vD w) r } ∧
        ∀ j, j < laneN T → lane T r j =
          if enabled x w j = true ∧ laneN T ≤ laneN S then laneCvt S T (src (j + p * laneN T)) % 2 ^ laneW T
          else if enabled x w j = true ∧ laneN S < laneN T ∧ p * laneN S ≤ j ∧ j < (p + 1) * laneN S
          then laneCvt S T (src (j - p * laneN S)) % 2 ^ laneW T
          else lane T (lget 0 x.v (vD w)) j) ∧
    (vOp w = 0x38 → ∃ t, exec (.vseta c v) s = .next t ∧
      VDid s t c v rest (fun x => if vD w % 8 = 0 then x else { x with a := lset x.a (vD w % 8) (vImm w) })) ∧
    (vOp w = 0x39 → ∃ t, exec (.vadda c v) s = .next t ∧
      VDid s t c v rest (fun x => if vD w % 8 = 0 then x else
        { x with a := lset x.a (vD w % 8) (((if vA w % 8 = 0 then 0 else lget 0 x.a (vA w % 8)) + vImm w) % 2 ^ 22) })) ∧
    (vOp w = 0x3C → ∃ t, exec (.vsync c v) s = .next t ∧
      VDid s t c v rest (fun x => { x with sync := some (vImm w % 65536) }))) ∧
  (∀ (s : State) (c : Fin 1024) (v : Fin 4), Live s → (clu s c).twait = none →
    (∀ tok, (vxOf s c v).sync = some tok → drained s c = false → ∃ t, exec (.vsyncComplete c v) s = .next t ∧
      CoreOnly s t c ∧ RegsOnly s t [] ∧ vxOf t c v = { vxOf s c v with sync := none } ∧ (clu t c).g = (clu s c).g ∧
      (clu t c).pc = (clu s c).pc ∧ (clu t c).tokens = lset (clu s c).tokens (v + 1) (tok % 65536)) ∧
    (∀ (e : Word) (rest : List Word), (clu s c).stall = none → (vxOf s c v).queue = e :: rest → vReady s c v = true → vKnown (vOp e.toNat) = false →
      ∃ t, exec (.vectorReservedOp c v) s = .next t ∧ CoreOnly s t c ∧
        RegsOnly s t [RegId.VX_STAT.off (tk c ++ [v.val])] ∧
        fget t .VX_STAT (tk c ++ [v.val]) Fld.VX_STAT_LAST_REJ = 0x01 ∧ fget t .VX_STAT (tk c ++ [v.val]) Fld.VX_STAT_HALTED = 1 ∧
        clu t c = { clu s c with held := (clu s c).held ++ [⟨0x05, 0, 256 * v + 1⟩] }))

/-- R121, R125, R128: VLD and VLDBC read the own scratchpad into the enabled lanes; VST with no mask writes the 128 bytes of
vd there and no other byte. (Model: the cycles the core's port waited are a free value, log entry 18.) -/
def Obligations.VectorLoadsAndStores : Prop :=
  ∀ (s : State) (c : Fin 1024) (v : Fin 4) (w l : Nat) (rest : List Word),
    let x := vxOf s c v
    let T := vTyp w
    let a := vAddr x w
    let y := spAddr l a
    let port := fun (n : Nat) => portWaits c (2 + v) a n s
    VHead s c v w rest → logOf s c = some l → a + 128 ≤ 2 ^ 22 → (∀ e ∈ s.tcBytes, e.1 < spBase) →
    (vOp w = 0x30 → Plain s y 128 false → ∃ t, exec (.vld c v) s = .next t ∧
      VLanes (atBanks (port 128) y 128 false) t c v w rest (fun j => lane T (leNat (mread s.mem y 128)) j)) ∧
    (vOp w = 0x32 → Plain s y (laneW T / 8) false → ∃ t, exec (.vldbc c v) s = .next t ∧
      VLanes (atBanks (port (laneW T / 8)) y (laneW T / 8) false) t c v w rest
        (fun _ => leNat (mread s.mem y (laneW T / 8)))) ∧
    (vOp w = 0x31 → vMsk w = 0 → (∀ k, k < 8 → Plain s (y + 16 * k) 16 true) → (∀ k, k < 8 → injArmed s (y / 16 + k) = false) →
      ∃ t, exec (.vst c v) s = .next t ∧
        t = { setVx (foldUp 8 (fun s k => atBanks s (y + 16 * k) 16 true) (port 128)) c v { x with queue := rest } with
                mem := t.mem, chk := t.chk } ∧
        (∀ z, mget t.mem z = if y ≤ z ∧ z < y + 128 then lget 0 (leBytes 128 (lget 0 x.v (vD w))) (z - y) else mget s.mem z) ∧
        ∀ k, devOf t k = if y / 16 ≤ k ∧ k < y / 16 + 8 then 0 else devOf s k)

/-- R94, R99, R101, R106: a checked instruction leaves the head of the matrix queue: MMA enters the pipe with its tile, MSYNC
leaves its token to wait; an instruction that fails a check, or has a reserved opcode, halts the queue.
R91–R96, R100–R104: what a matrix instruction does while it runs: the stream swaps its tile in and reads the first columns;
a slot takes its column; a finished column is written out; the earliest finished instruction leaves the pipe; MDRAIN writes
the slots out in order; MSYNC's token is posted when the pipe is empty; and ballast starts on an idle array.
(Model: the order of the checks and what timing leaves open are log entries 16, 17, 66 and 67.) -/
def Obligations.MatrixQueueAndPipe : Prop :=
  (∀ (s : State) (c : Fin 1024) (e : List Nat) (rest : List (List Nat)) (l : Nat),
    let r := mxRunOf e
    let x := mxOf s c
    let row := fun m => spAddr l (r.stat + m * 128 * aSize r.afmt)
    let only := fun (s t : State) => CoreOnly s t c ∧
      RegsOnly s t [RegId.MX_STAT.off (tk c), RegId.MX_CNT_STALL.off (tk c)] ∧ (clu t c).g = (clu s c).g ∧
      (clu t c).pc = (clu s c).pc ∧ (clu t c).vx = (clu s c).vx ∧ fget t .MX_STAT (tk c) Fld.MX_STAT_BALLAST = 0
    (MHead s c 0x40 e rest → mmaCheck r = 0 → r.k = 0 → ∃ t, exec (.mma c) s = .next t ∧ only s t ∧
      mxOf t c = { x with queue := rest, pipe := x.pipe ++ [{ r with
        next := List.replicate r.m 0, em := List.replicate r.m 0, bad := List.replicate r.m false,
        tile := List.replicate r.m [] }] }) ∧
    (MHead s c 0x40 e rest → mmaCheck r = 0 → r.k ≠ 0 → logOf s c = some l → (∀ e ∈ s.tcBytes, e.1 < spBase) →
      (∀ m, m < r.m → Plain s (row m) (r.k * aSize r.afmt) false) →
      let loaded := fun m => loadRow r.afmt (rowElems (aSize r.afmt) r.k (mread s.mem (row m) (r.k * aSize r.afmt)))
      let u := foldUp r.m (fun s m => atBanks (portWaits c 0 (r.stat + m * 128 * aSize r.afmt) (r.k * aSize r.afmt) s) (row m)
        (r.k * aSize r.afmt) false) s
      ∃ t, exec (.mma c) s = .next t ∧ only u t ∧
        mxOf t c = { x with queue := rest, pipe := x.pipe ++ [{ r with
          next := List.replicate r.m 0, tile := (List.range r.m).map (fun m => (loaded m).1),
          em := (List.range r.m).map (fun m => (loaded m).2.1), bad := (List.range r.m).map (fun m => (loaded m).2.2) }] }) ∧
    (MHead s c 0x42 e rest → msyncCheck r = 0 → ∃ t, exec (.msync c) s = .next t ∧ only s t ∧
      mxOf t c = { x with queue := rest, sync := some (r.w0 % 65536) }) ∧
    (∀ k, k ≠ 0 → (clu s c).twait = none →
      let bad := fun (i : Instr) => ∃ t, exec i s = .next t ∧ CoreOnly s t c ∧ RegsOnly s t [RegId.MX_STAT.off (tk c)] ∧
        fget t .MX_STAT (tk c) Fld.MX_STAT_LAST_REJ = k ∧ fget t .MX_STAT (tk c) Fld.MX_STAT_HALTED = 1 ∧
        clu t c = { clu s c with held := (clu s c).held ++ [⟨0x04, 0, k⟩] }
      (MHead s c 0x40 e rest → mmaCheck r = k → bad (.mma c)) ∧
      (MHead s c 0x41 e rest → mdrainCheck r = k → bad (.mdrain c)) ∧
      (MHead s c 0x42 e rest → msyncCheck r = k → bad (.msync c)) ∧
      (∀ opc, opc ∉ [0x40, 0x41, 0x42] → MHead s c opc e rest → k = 0x01 → bad (.matrixReservedOp c)))) ∧
  (∀ (s : State) (c : Fin 1024), Live s → drained s c = false → coreOff s c = false →
    let b := bare s
    let x := mxOf s c
    (∀ i r, x.pipe.findIdx? (fun r => !r.live) = some i → x.pipe[i]? = some r → r.k ≠ 0 →
      Becomes s (.mmaStreamStart c) (foldUp (min 32 r.n) (fun s _ => readCol c i s)
        (setMx b c { x with active := r.tile, pipe := lset x.pipe i { r with live := true } }))) ∧
    (∀ (m : Fin 128) i r col,
      x.pipe.findIdx? (fun r => r.live && decide (m.val < r.m) && decide (lget 0 r.next m < r.limit)) = some i →
      x.pipe[i]? = some r → tfind r.cols (lget 0 r.next m) = some col →
      let n := lget 0 r.next m
      let v := if r.k = 0 then (if r.acc = 2 then mxSlot x m (r.aslot + n) else slotInit r.acc r.fofs col.bias)
        else slotUpdate r (lget [] r.tile m) (lget 0 r.em m) (lget false r.bad m) col (mxSlot x m (r.aslot + n))
      let next := lset r.next m (n + 1)
      let r' := { r with next := next, outs := if r.ofmt = 0 then r.outs else tput (128 * n + m) v r.outs,
                         cols := if next.all (fun y => decide (n < y)) then tdel n r.cols else r.cols }
      let done := setMx b c { x with slots := tput (256 * m + (r.aslot + n) % 256) v x.slots, pipe := lset x.pipe i r' }
      Becomes s (.mmaSlotUpdate c m) (if m.val ≠ 0 then done else readCol c i (if r.k = 0 then done else
        fincWrap done .MX_CNT_STREAM (tk c) Fld.MX_CNT_STREAM_CYCLES (wWidth r.wfmt)))) ∧
    (∀ i r, x.pipe.findIdx? (fun r => r.live && r.ofmt != 0 && decide (r.outCol < r.limit)) = some i → x.pipe[i]? = some r →
      r.next.all (fun y => decide (r.outCol < y)) = true →
      let n := r.outCol
      let vs := (List.range r.m).map (fun m => tget Slot.zero r.outs (128 * n + m))
      let w := writeRecord c r.ofmt (r.oaddr + n * r.ostride) vs b
      w.1 = 0 → Becomes s (.mmaOutputRecord c)
        (setRun w.2 c i { r with outCol := n + 1, outs := r.outs.filter (fun e => e.1 / 128 != n) })) ∧
    (∀ r rest, x.pipe = r :: rest → r.live = true → r.updating = false → r.undef = false →
      (r.ofmt = 0 ∨ r.limit ≤ r.outCol) → ∃ t, exec (.mmaComplete c) s = .next t ∧
        mxOf t c = { x with pipe := rest } ∧ t.mem = s.mem ∧ RegsOnly s t [RegId.MX_CNT_STALL.off (tk c)] ∧
        t = { s with clu := t.clu, regs := t.regs, freeCtr := s.freeCtr + 1 } ∧ ∀ k, k ≠ c.val → clu t k = clu s k) ∧
    (∀ e rest, MHead s c 0x41 e rest → x.pipe.any (fun y => y.updating) = false → mdrainCheck (mxRunOf e) = 0 →
      let r := mxRunOf e
      let w := foldUp (r.k + 1) (fun (acc : Nat × Nat × State) i =>
        if acc.1 != 0 then acc
        else
          let vs := (List.range r.m).map (fun m => mxSlot (mxOf acc.2.2 c) m (r.aslot + i))
          let w := writeRecord c r.ofmt (r.stat + i * r.ostride) vs acc.2.2
          if w.1 != 0 then (w.1, i, w.2)
          else (0, 0, if tbit r.w0 40 then foldUp r.m (fun s m => setMx s c (setSlot (mxOf s c) m (r.aslot + i) Slot.zero)) w.2
                      else w.2)) (0, 0, noBallast b c)
      w.1 = 0 → Becomes s (.mdrain c) (mxPop w.2.2 c)) ∧
    (∀ tok, x.sync = some tok → x.pipe = [] → (clu s c).twait = none → ∃ t, exec (.msyncComplete c) s = .next t ∧
      CoreOnly s t c ∧ RegsOnly s t [] ∧ mxOf t c = { x with sync := none } ∧ (clu t c).g = (clu s c).g ∧
      (clu t c).tokens = lset (clu s c).tokens 0 (tok % 65536)) ∧
    (x.queue = [] → x.pipe = [] → ballastAsked s c = true → ∃ t, exec (.matrixBallastStart c) s = .next t ∧
      t = { s with regs := t.regs } ∧ RegsOnly s t [RegId.MX_STAT.off (tk c)] ∧
      fget t .MX_STAT (tk c) Fld.MX_STAT_BALLAST = 1))

/-- R91: a slot's value never leaves the 48 bits of its accumulator: it is clamped there at every column. -/
def Obligations.SlotsStayInTheirRange : Prop :=
  ∀ (r : MxRun) (q : List Int) (em : Int) (bad : Bool) (col : MxCol) (old : Slot),
    let within := fun (v : Int) => 0 ≤ v + 2 ^ 47 ∧ v < 2 ^ 47
    within old.v → within (slotUpdate r q em bad col old).v

/-- R136–R139: a channel takes the entry at its next ring index, checks it, reads its source and, when no earlier descriptor
is under way, writes its destination; the completion writes STATUS, advances HEAD and posts the token.
R135, R137: a fill of a range of scratchpad leaves its 32-bit pattern in every byte of the range and nowhere else.
(Model: log entries 10, 18 and 55.) -/
def Obligations.DmaChannelSteps : Prop :=
  (∀ (s : State) (c : Fin 1024) (ch : Fin 16), Live s → drained s c = false → coreOff s c = false →
    let b := bare s
    let d := dmaCh s c ch
    let e := readEntry b c ch d.next
    let w := entryWords e.bytes
    let q := startDesc (chanWho e.s c ch d.next (dHint w)) d.next w e.s
    (∀ (i : Instr) (row : Nat), (i, row) ∈ [(.dmaCopy c ch, 1), (.dmaCopy2d c ch, 2), (.dmaFill c ch, 3)] →
      dmaHalted s c ch = false → d.next ≠ dmaTail s c ch → (∀ r ∈ d.runs, r.status = 0) → e.st = 0 →
      opRow (dOp w) = row → (dFence w = true → d.runs = []) →
      Becomes s i (advanceHead c ch (setDma q.2 c ch ⟨(dmaCh q.2 c ch).runs ++ [q.1], (d.next + 1) % 65536⟩))) ∧
    (∀ r rest, d.runs = r :: rest → r.phase = 3 → r.status = 0 →
      let p := writeStatus (advanceHead c ch b) c ch r.idx 0
      let u := setHead p.2 c ch ((r.idx + 1) % 65536)
      let u := setDma u c ch { dmaCh u c ch with runs := rest }
      p.1 = 0 → Becomes s (.descStatusWrite c ch) (if dTok r.words then postToken u c (16 + ch) (dToken r.words) else u)) ∧
    (∀ r rest, d.runs = r :: rest → r.phase = 3 → r.status ≠ 0 →
      let p := writeStatus (advanceHead c ch b) c ch r.idx r.status
      p.1 = 0 → Becomes s (.descStatusWrite c ch) (dmaHalt p.2 c ch r.idx r.status))) ∧
  (∀ (s : State) (c : Fin 1024) (ch : Fin 16) (l : Nat), Live s → drained s c = false → coreOff s c = false →
    logOf s c = some l → (∀ e ∈ s.tcBytes, e.1 < spBase) → s.tc = [] → fbit s .ECC_INJ [] Fld.ECC_INJ_ARM = false →
    let d := dmaCh s c ch
    let at_ := spAddr l (entryOff s c ch d.next)
    let w := entryWords (mread s.mem at_ 32)
    Plain s at_ 32 false → (clu s c).dma.length = 16 → d.runs = [] → dmaHalted s c ch = false → d.next ≠ dmaTail s c ch →
    descInvalid w = false → dOp w = 3 → dRed w = 0 → spBase ≤ dDst w → dDst w + dLen w ≤ apBase →
    Plain s (dDst w) (dLen w) true →
    ∃ t r, exec (.dmaFill c ch) s = .next t ∧ dmaCh t c ch = ⟨[r], (d.next + 1) % 65536⟩ ∧ r.phase = 3 ∧ r.status = 0 ∧
      RegsOnly s t ((List.range 1024).map (fun k => RegId.SP_CNT.off (tk k))) ∧ t.log = s.log ∧
      (∀ k, k ≠ c.val → clu t k = clu s k) ∧
      ∀ x, mget t.mem x = if dDst w ≤ x ∧ x < dDst w + dLen w
        then BitVec.ofNat 8 (lget 0 w 1 % 2 ^ 32 / 2 ^ (8 * ((x - dDst w) % 4)) % 256) else mget s.mem x)

/-- R126–R128: a port's read of plain words answers their bytes and changes none; its write changes exactly its bytes.
(Model: the wait count is a free value, log entry 18.) -/
def Obligations.ScratchpadPortAccesses : Prop :=
  ∀ (s : State) (c : Fin 1024) (port : Fin 8) (q : MemReq) (l : Nat), Live s → logOf s c = some l →
    s.topo.dark.contains c.val = false → q.len ≠ 0 → q.addr + q.len ≤ 2 ^ 22 → (∀ e ∈ s.tcBytes, e.1 < spBase) →
    fbit s .ECC_INJ [] Fld.ECC_INJ_ARM = false →
    let a := spAddr l q.addr
    let d := q.data.take q.len ++ List.replicate (q.len - q.data.length) 0
    let frame := fun (t : State) => RegsOnly s t [RegId.SP_CNT.off (tk c)] ∧ t.clu = s.clu ∧ t.log = s.log ∧ t.syn = s.syn
    (q.write = false → Plain s a q.len false → ∃ t, exec (.scratchpadAccess c port q []) s = .next t ∧ frame t ∧
      t.mem = s.mem ∧ t.out = s.out ++ [.data q.who 0 0 (mread s.mem a q.len)]) ∧
    (q.write = true → Plain s a q.len true → ∃ t, exec (.scratchpadAccess c port q []) s = .next t ∧ frame t ∧
      t.out = s.out ++ [.data q.who 0 0 []] ∧
      ∀ x, mget t.mem x = if a ≤ x ∧ x < a + q.len then lget 0 d (x - a) else mget s.mem x)

/-- R25, R60, R62, R63, R70, R75, R155: what a shaft controller does with an access, a command that fails its CRC, a row that
falls due or completes its refresh, an activity evaluation and a scrub read.
R66, R70, R71: the scrubber leaves a clean word alone and turns an uncorrectable word into poison, which every later read
meets.
(Model: the errors an access meets come with its command, log entry 123.) -/
def Obligations.ShaftControllerSteps : Prop :=
  (∀ (s : State), Live s →
    let u0 := bare s
    (∀ (q : MemReq) (k : Nat), q.addr + q.len ≤ spBase → mapped s q.addr q.len = true →
      touchesOffline s q.addr q.len = false → nbTouch s q.addr q.len q.write = false → bankOf s q.addr = some k →
      bankBusy s k = false → Becomes s (.stackAccess q []) (stackServe q [] u0)) ∧
    (∀ (c : Fin 1024) (lane : Fin 32), s.topo.closed.contains c.val = false →
      let n := tget 0 s.ecc.cmdTries c + 1
      let closed := { s.topo with closed := c.val :: s.topo.closed.filter (fun x => x != c.val) }
      (n < 3 → exec (.shaftCmdCrcFail c lane) s = .next { s with ecc := { s.ecc with cmdTries := tput c n s.ecc.cmdTries } }) ∧
      (3 ≤ n →
        let u := discardPillar { u0 with ecc := { s.ecc with cmdTries := tdel c s.ecc.cmdTries }, topo := closed } c
        Becomes s (.shaftCmdCrcFail c lane) (raiseFault u (jobOfC u c) [⟨.pillar c, .repair, false, 2, 1024 + 32 + lane.val⟩]
          (mkRep u 0x05 4 1 c 0 (jobOfC u c) 0)))) ∧
    (∀ (b : BankId), (nbUnit s (bankNum b)).run = none → (refrOf s (bankNum b)).busy = false →
      ∃ t, exec (.refreshRowDue b) s = .next t ∧ t = { s with refr := t.refr } ∧
        refrOf t (bankNum b) = { refrOf s (bankNum b) with due := false, busy := true } ∧
        ∀ k, k ≠ bankNum b → refrOf t k = refrOf s k) ∧
    (∀ (b : BankId), (refrOf s (bankNum b)).busy = true → (nbUnit s (bankNum b)).run = none →
      (∀ e ∈ s.nbHeld, e.1 ≠ bankNum b) → s.nbBlock = [] → s.kv.owed = [] → ∃ t, exec (.refreshComplete b) s = .next t ∧ t = { s with refr := t.refr } ∧
        refrOf t (bankNum b) = { refrOf s (bankNum b) with busy := false, row := ((refrOf s (bankNum b)).row + 1) % 8192 } ∧
        ∀ k, k ≠ bankNum b → refrOf t k = refrOf s k) ∧
    (∀ (b : BankId) (us : Nat), exec (.nbActivityEval b us) s =
      .next (setRefr s (bankNum b) { refrOf s (bankNum b) with active := decide (500 < us) })) ∧
    (∀ (c : Fin 1024), fbit s .MEM_SCRUB_CTL [] Fld.MEM_SCRUB_CTL_EN = true → (onlinePillars s).contains c.val = true →
      s.ecc.skipped = [] → s.ecc.scrubbed.contains c.val = false →
      let i := tget 0 s.ecc.scrub c
      let b := 512 * c.val + i / 8192
      (refrOf s b).busy = false → (refrOf s b).due = false → unitRuns s b = false →
      let u := scrubRow b (i % 8192) [] u0
      let last := decide (i + 1 = 512 * 8192)
      Becomes s (.scrubRead c []) (scrubPass { u with ecc := { u.ecc with
        scrub := tput c (if last then 0 else i + 1) u.ecc.scrub,
        scrubbed := if last then c.val :: u.ecc.scrubbed else u.ecc.scrubbed } }))) ∧
  (∀ (s : State) (c w : Nat), inOver s w = false →
    ((shaftWord s w).1 = .clean → scrubWord c s w = s) ∧
    ((shaftWord s w).1.status ≠ 0 → devOf (scrubWord c s w) w = 0xFFFF ∧
      (∀ x, mget (scrubWord c s w).mem x = if 16 * w ≤ x ∧ x < 16 * w + 16 then 0 else mget s.mem x) ∧
      ∀ k, k ≠ w → devOf (scrubWord c s w) k = devOf s k))

/-- R157–R160, R163: the micro-operations that only change their unit: pointers, loop counters, scalars and accumulator
vectors. -/
def Obligations.UnitRegisterOperations : Prop :=
  ∀ (s : State) (b : BankId) (w : Nat) (u : NbUnit) (r : NbRun),
    let k := bankNum b
    let A := uA w
    let i := A % 4
    let P := lget 0 u.p (uB w)
    let x := sa u (uB w)
    let y := sa u (uC w)
    let lc := lget 0 u.lc i
    let went := fun (c : Instr) (op : Nat) (u' : NbUnit) (pc : Nat) =>
      uOp w = op → pc < 128 → ∃ t, exec c s = .next t ∧ UnitWent s t k u' r pc
    UnitAt s k w u r →
    went (.unitNop b) 0x00 u (r.pc + 1) ∧
    went (.setac b) 0x02 { u with ac := lset u.ac i ((bits P 22 6 + uImm w) % 2 ^ 17) } (r.pc + 1) ∧
    went (.setlc b) 0x03 { u with lc := lset u.lc i (uImm w) } (r.pc + 1) ∧
    went (.setlcp b) 0x04 { u with lc := lset u.lc i (P % 2 ^ 16) } (r.pc + 1) ∧
    went (.loop b) 0x05 { u with lc := lset u.lc i (lc - 1) } (if 0 < lc - 1 then uImm w % 128 else r.pc + 1) ∧
    went (.bzlc b) 0x06 u (if lc = 0 then uImm w % 128 else r.pc + 1) ∧
    went (.sseti b) 0x18 (setSa u A (match uImm w % 4 with | 0 => 0 | 1 => 0xFF800000 | 2 => 0x3F800000 | _ => 0x7F800000))
      (r.pc + 1) ∧
    went (.sldp b) 0x19 (setSa u A (P % 2 ^ 32)) (r.pc + 1) ∧
    went (.smov b) 0x1A (setSa u A x) (r.pc + 1) ∧
    went (.sadd b) 0x1B (setSa u A (f32add x y)) (r.pc + 1) ∧
    went (.ssub b) 0x1C (setSa u A (f32sub x y)) (r.pc + 1) ∧
    went (.smul b) 0x1D (setSa u A (f32mul x y)) (r.pc + 1) ∧
    went (.smax b) 0x1E (setSa u A (f32max x y)) (r.pc + 1) ∧
    went (.sexp2 b) 0x1F (setSa u A (f32exp2 x)) (r.pc + 1) ∧
    (uB w + spanLen (uImm w % 4) ≤ 16 → went (.dot b) 0x10
      (siStep (setSa u A (f32add (sa u A) (dotVal u (uImm w % 4) (uB w) (uC w)))) (uImm w % 4)) (r.pc + 1)) ∧
    (bits (uImm w) 8 2 + etN (uImm w % 4) ≤ 128 → uOp w = 0x11 → r.pc + 1 < 128 → ∃ t u', exec (.axpy b) s = .next t ∧
      UnitWent s t k (siStep u' (uImm w % 4)) r (r.pc + 1) ∧ u'.si = u.si ∧ u'.ac = u.ac ∧ u'.p = u.p ∧
      ∀ j, j < 128 → av u' (A % 2) j =
        if bits (uImm w) 8 2 ≤ j ∧ j < bits (uImm w) 8 2 + etN (uImm w % 4)
        then fenc .fp32 (fadd (fdec .fp32 (av u (A % 2) j))
          (fmul (fdec .fp32 x) (colElem u (uImm w % 4) (uC w) (j - bits (uImm w) 8 2)))) % 2 ^ 32
        else av u (A % 2) j) ∧
    (uOp w = 0x12 → r.pc + 1 < 128 → ∃ t u', exec (.avscale b) s = .next t ∧ UnitWent s t k u' r (r.pc + 1) ∧
      ∀ j, j < 128 → av u' (A % 2) j = f32mul (av u (A % 2) j) x % 2 ^ 32 ∧ av u' (1 - A % 2) j = av u (1 - A % 2) j) ∧
    (uOp w = 0x13 → r.pc + 1 < 128 → ∃ t u', exec (.avzero b) s = .next t ∧ UnitWent s t k u' r (r.pc + 1) ∧
      ∀ j, j < 128 → av u' (A % 2) j = 0 ∧ av u' (1 - A % 2) j = av u (1 - A % 2) j)

/-- R150, R151, R152, R155, R161, R164: how a unit's command arrives, reads and writes columns, emits a record, ends, meets a
step boundary, completes and reports; and a held read that times out.
R163: a unit that falls past program entry 127 stops with 0x0806.
(Model: log entries 68, 69, 125, 143 and 162.) -/
def Obligations.UnitCommandSteps : Prop :=
  (∀ (s : State) (b : BankId), Live s →
    let k := bankNum b
    let s0 := bare s
    let u := nbUnit s k
    (∀ e, s.nbFlight.find? (fun e => e.1 == k) = some e → pillarOff s (k / 512) = false → u.run = none →
      Becomes s (.nbCmdArrive b) (nbStart k e.2 { s0 with
        nbFlight := s.nbFlight.erase e, ecc := { s.ecc with cmdTries := tdel (k / 512) s.ecc.cmdTries } })) ∧
    (∀ e r, s.nbFlight.find? (fun e => e.1 == k) = some e → pillarOff s (k / 512) = false → u.run = some r →
      e.2.slot < 48 → e.2.kv = false → u.pendT = none → exec (.nbCmdArrive b) s =
        .next (setUnit { s with
          nbFlight := s.nbFlight.erase e, ecc := { s.ecc with cmdTries := tdel (k / 512) s.ecc.cmdTries } } k
          { u with pendT := some e.2 })) ∧
    (∀ w r, UnitAt s k w u r → uOp w = 0x01 → r.step = none → ∃ t, exec (.unitEnd b) s = .next t ∧ t = setUnit s k
      { u with run := some { r with stop := some 0, upc := 0, step := none, wait := false, token := false } }) ∧
    (∀ w r, UnitAt s k w u r → uOp w = 0x08 →
      let lat := bits (uImm w) 13 8
      let col := lget 0 u.ac (uB w % 4)
      let q := issueCol k col r s0
      let x := unitRead q.2 k col
      lat ≤ 33 → (inRange col r.inB r.inL || inRange col r.outB r.outL) = true → q.1 = true → x.st = 0 →
      let v := setLatch (acStep (nbUnit x.s k) w) lat (leNat x.bytes)
      Becomes s (.rdc b) (uGoto k (r.pc + 1) (setUnit x.s k (if lat = 33 then { v with si := 0 } else v)))) ∧
    (∀ w r, UnitAt s k w u r → uOp w = 0x09 →
      let lat := bits (uImm w) 13 8
      let col := lget 0 u.ac (uB w % 4)
      let q := issueCol k col r s0
      let h := unitReach q.2 k col true
      let at_ := h.2.1 + 64 * col
      lat ≤ 33 → inRange col r.outB r.outL = true → q.1 = true → h.1 = 0 →
      let v := storeBytes (kvMark h.2.2 at_ 64 (unitJob s0 k)) at_ (leBytes 64 (latch u lat))
      let v := setUnit v k (acStep (nbUnit v k) w)
      ∀ r', (nbUnit v k).run = some r' → Becomes s (.wrc b) (uGoto k (r'.pc + 1) (setRunU v k { r' with wrote := true }))) ∧
    (∀ w r s', UnitAt s k w u r → uOp w = 0x0A → r.step = none →
      let n := bits (uImm w) 5 0
      let f := bits (uImm w) 11 6
      let p := lget 0 u.p (uA w)
      n ≠ 0 → f + n ≤ 34 →
      (bits (uImm w) 13 12 = 1 → mergeSend s0 (k / 512) (p % 2 ^ 32) ((List.range n).map (fun i => latch u (f + i))) = some s' →
        Becomes s (.emit b) (uGoto k (r.pc + 1) s')) ∧
      (bits (uImm w) 13 12 = 0 → mapped s (p % 2 ^ 48) (64 * n) = true → p % 2 ^ 48 + 64 * n ≤ spBase → p % 64 = 0 →
        runsIn s (p % 2 ^ 48) (64 * n) = false →
        let q := accWrite s0 ⟨k / 512, 6, r.cmd.job, true, false, 0, false⟩ (p % 2 ^ 48) (latchBytes u f n)
        q.1 = 0 → Becomes s (.emit b) (uGoto k (r.pc + 1) q.2))) ∧
    (∀ r, u.run = some r → (refrOf s k).due = false → (refrOf s k).busy = false → (∀ e ∈ s.nbHeld, e.1 ≠ k) →
      s.nbBlock = [] → s.kv.owed = [] → exec (.nbStepBoundary b) s = .next (setUnit s k { u with run := some { r with step := none, cut := false } })) ∧
    (∀ r st, u.run = some r → r.stop = some st → r.cmd.kv = false → u.pendT = none → u.pendF = none → (refrOf s k).due = false →
      (refrOf s k).busy = false → (∀ e ∈ s.nbHeld, e.1 ≠ k) → s.nbBlock = [] → s.kv.owed = [] →
      Becomes s (.nbUnitComplete b) (nbReport (setUnit s0 k { u with run := none }) k r.cmd st r.upc)) ∧
    (∀ e, s.nbHeld.find? (fun e => e.1 == k && !e.2.write && nbTouch s e.2.addr e.2.len false) = some e →
      exec (.nbReadTimeout b) s = .next { s with nbHeld := s.nbHeld.erase e, out := s.out ++ [.data e.2.who 0x0801 0 []] })) ∧
  (∀ (s : State) (b : BankId) (w : Nat) (u : NbUnit) (r : NbRun), UnitAt s (bankNum b) w u r → uOp w = 0x00 → r.pc = 127 →
    r.wrote = false → ∃ t, exec (.unitNop b) s = .next t ∧ t = setUnit s (bankNum b)
      { u with run := some { r with stop := some 0x0806, upc := 0, step := none, wait := false, token := false } })

/-- R151: the first failure of a slot's command is recorded with its status, every unit's report is counted, and BUSY falls
with the last of them.
R167, R168: a refill of a pillar's bucket always completes: the bucket fills by the rate in force, up to its depth, the waiting units
take tokens in ascending order after the last served, and RATE_EFF shows the tower's rate. -/
def Obligations.SlotReportsAreCounted : Prop :=
  (∀ (s : State) (k : Nat) (cmd : NbCmd) (st upc : Nat), cmd.tower < 16 → cmd.slot < 64 → st < 2 ^ 16 →
    s.topo.lmap.length ≤ 1024 →
    let key := 64 * cmd.tower + cmd.slot
    let ix := slotIx key
    let waiting := tget [] s.nbOut key
    let t := nbReport s k cmd st upc
    k ∈ waiting →
    (st = 0 → fget s .NB_S_STAT ix Fld.NB_S_STAT_DONE_CNT < 2 ^ 15 →
      fget t .NB_S_STAT ix Fld.NB_S_STAT_DONE_CNT = fget s .NB_S_STAT ix Fld.NB_S_STAT_DONE_CNT + 1 ∧
      fget t .NB_S_STAT ix Fld.NB_S_STAT_FAIL = fget s .NB_S_STAT ix Fld.NB_S_STAT_FAIL) ∧
    (st ≠ 0 → fget s .NB_S_STAT ix Fld.NB_S_STAT_FAIL_CNT = 0 →
      fget t .NB_S_STAT ix Fld.NB_S_STAT_FAIL = 1 ∧ fget t .NB_S_STAT ix Fld.NB_S_STAT_FAIL_CNT = 1 ∧
      bits (rget t .NB_S_FAIL ix) 63 48 = st) ∧
    (waiting = [k] → fget t .NB_S_STAT ix Fld.NB_S_STAT_BUSY = 0) ∧ t.mem = s.mem ∧
    RegsOnly s t [RegId.NB_S_STAT.off ix, RegId.NB_S_FAIL.off ix]) ∧
  (∀ (s : State) (c : Fin 1024), Live s →
    let k := bucketOf s c
    let waiting := (s.nb.filter (fun e => e.1 / 512 == c.val && (match e.2.run with | some r => r.wait && !r.token | none => false))).map
      (fun e => e.1 % 512)
    let full := max k.tokens (min (bucketDepth s c) (k.tokens + rateEff s c))
    let served := (waiting.filter (fun x => decide (k.last < x)) ++ waiting.filter (fun x => decide (x ≤ k.last))).take full
    ∃ t, exec (.tokenRefill c) s = .next t ∧ ((∀ b r, b / 512 = c.val → (nbUnit s b).run = some r → r.desc = false) →
      t = { s with regs := t.regs, nb := t.nb,
                   bucket := tput c.val ⟨full - served.length, served.getLast?.getD k.last⟩ s.bucket } ∧
      (∀ b, nbUnit t b = if b / 512 = c.val ∧ b % 512 ∈ served
        then { nbUnit s b with run := (nbUnit s b).run.map (fun r => { r with token := true, wait := false }) } else nbUnit s b) ∧
      RegsOnly s t (RegId.NB_CAP.off [c.val / 64] :: if waiting = [] then [] else [RegId.NB_PCNT_THR.off (tk c)]) ∧
      fget t .NB_CAP [c.val / 64] Fld.NB_CAP_RATE_EFF = rateTower s (c / 64)))

/-- R40, R243, R247, R248, R250, R252, R255, R257: what a tower cache does with a reduction, a write-back, a batch that has
waited, the end of a flush and of a thrash window, and an access to its aperture. R32, R395: an S layer without a clock does none
of its own work.
(Model: log entries 59, 63, 65, 89, 124, 152 and 178.) -/
def Obligations.TowerCacheSteps : Prop :=
  ∀ (s : State), Live s →
    let s0 := bare s
    (∀ (src a op hint : Nat) (d : List Byte) (s' : State), 1 ≤ op → op ≤ 9 → a % 16 = 0 → d.length % 16 = 0 → d ≠ [] →
      a + d.length ≤ spBase → accStatus s a d.length true = 0 →
      let job := if src / 2 ^ 16 = ownId s then tget 0 s.jobOf (bits src 15 6) else 0
      let r := accReduce s0 src a op hint d job
      r.2 = some s' → Becomes s (.tcReduction src a op d hint) (emit s' (.data src r.1 0 []))) ∧
    (∀ t : Fin 16, noClock s (2048 + t.val) = true → (∀ e, exec (.victimWriteback t e) s = .next s) ∧
      (∀ g, exec (.batchTimeout t g) s = .next s) ∧ exec (.tcFlushDone t) s = .next s ∧ exec (.thrashWindowEnd t) s = .next s) ∧
    (∀ (t : Fin 16) (l l' : TcLine), noClock s (2048 + t.val) = false → ((tcOf s t).lines.filter (fun l => l.victim)).getLast? = some l →
      let s1 := settle s0 t l.gran
      tcLine (tcOf s1 t) l.gran = some l' →
      Becomes s (.victimWriteback t []) (dropLine (writeBack s1 t l') t l'.gran)) ∧
    (∀ (t : Fin 16) (g : Nat), noClock s (2048 + t.val) = false → Becomes s (.batchTimeout t g)
      (((tcOf s t).lines.filter (fun l => granIdx s l.gran == granIdx s g && !l.staged.isEmpty)).foldl
        (fun s l => closeBatch s t l) s0)) ∧
    (∀ (t : Fin 16), noClock s (2048 + t.val) = false → fbit s .TC_STAT [t.val] Fld.TC_STAT_FLUSHING = true →
      let u := flushTower s0 t (tcOf s t).flushInv
      Becomes s (.tcFlushDone t) (fset (fset u .TC_STAT [t.val] Fld.TC_STAT_FLUSHING 0) .TC_CTL [t.val] Fld.TC_CTL_FLUSH 0)) ∧
    (∀ (t : Fin 16), noClock s (2048 + t.val) = false → thrashWin s t ≤ (tcOf s t).look →
      let x := tcOf s t
      let keep := (x.lines.filter (fun l => l.cls == 1)).length
      let bad := max 1 (fget s .TC_THRASH [t.val] Fld.TC_THRASH_THRESH) * x.look < 256 * x.miss ∧
        15 * (quota s t * 4096) ≤ 16 * keep
      ∃ t', exec (.thrashWindowEnd t) s = .next t' ∧ tcOf t' t = { x with look := 0, miss := 0 } ∧ t'.mem = s.mem ∧
        RegsOnly s t' [RegId.TC_STAT.off [t.val], RegId.TC_CNT.off [t.val, 4]] ∧
        (bad → fget t' .TC_STAT [t.val] Fld.TC_STAT_THRASH = 1 ∧ t'.log.waiting.length = s.log.waiting.length + 1) ∧
        (¬ bad → t' = setTc s t { x with look := 0, miss := 0 })) ∧
    (∀ (q : MemReq) (t off : Nat), spaceOf q.addr = .aperture t off → mapped s q.addr q.len = true →
      exec (.tcApertureAccess true q) s = .next (emit s (.data q.who 0x0701 0 [])) ∧
      (q.write = true → Becomes s (.tcApertureAccess false q) (emit (apWrite s0 t off q.data) (.data q.who 0 0 []))) ∧
      (q.write = false → (apRead s0 t off q.len).st = 0 → Becomes s (.tcApertureAccess false q)
        (emit (apRead s0 t off q.len).s (.data q.who 0 0 (apRead s0 t off q.len).bytes))))

/-- R266, R268: the oldest command's reply of a queue, its outcome known, is written at the ring's tail, 32 bytes and no
other; the tail and the count advance and the command leaves.
R266: where a reply holds its command's TAG, status, opcode and phase, its queue's fence and head, its count and its
DETAIL.
R268: an outcome is recorded once; a command that has one keeps it.
(Model: a write outside the device is answered within the step, log entry 10.) -/
def Obligations.RepliesArePosted : Prop :=
  (∀ (s : State) (q : Fin 256) (c : Cmd) (rest : List Cmd) (st : Nat), Live s → qCmds s q = c :: rest →
    (if isHeld s then heldStatus s c else c.status) = some st →
    s.tc = [] → s.tcBytes = [] → (∀ e ∈ s.nb, e.2.run = none) → fbit s .ECC_INJ [] Fld.ECC_INJ_ARM = false →
    qResetting s q = false → replyHeld s q = false →
    tbit c.flags 1 = false → (qdOf s q).told = (qdOf s q).fence →
    let a := cqAddr s q (cqTail s q)
    a + 32 ≤ spBase → Plain s a 32 true →
    ∃ t, exec (.replyPost q) s = .next t ∧
      (∀ x, mget t.mem x = if a ≤ x ∧ x < a + 32 then lget 0 (replyBytes s (if c.status = some st then c else { c with detail := 0 }) st) (x - a)
        else mget s.mem x) ∧
      cqTail t q = (cqTail s q + 1) % 65536 ∧ cqHead t q = cqHead s q ∧ sqHead t q = sqHead s q ∧ sqTail t q = sqTail s q ∧
      rget t .QD_Q_COUNT [q.val] = (rget s .QD_Q_COUNT [q.val] + 1) % 2 ^ 64 ∧
      (∀ x ∈ t.cmds, x.id ≠ c.id) ∧ t.log = s.log ∧ t.out = s.out ∧
      RegsOnly s t [RegId.QD_Q_PTR.off [q.val], RegId.QD_Q_COUNT.off [q.val]]) ∧
  (∀ (s : State) (c : Cmd) (st : Nat), c.tag < 2 ^ 32 → c.opc < 2 ^ 8 → c.detail < 2 ^ 64 → (qdOf s c.q).fence < 2 ^ 32 →
    let b := replyBytes s c st
    let w := fun i => leNat ((b.drop (8 * i)).take 8)
    b.length = 32 ∧ bits (w 0) 63 32 = c.tag ∧ bits (w 0) 31 16 = st % 2 ^ 16 ∧ bits (w 0) 15 8 = c.opc ∧
    (bits (w 0) 0 0 = 1 ↔ (rget s .QD_Q_COUNT [c.q] / ringLen s c.q) % 2 = 0) ∧
    bits (w 1) 63 32 = (qdOf s c.q).fence ∧ bits (w 1) 15 0 = sqHead s c.q ∧
    w 2 = (rget s .QD_Q_COUNT [c.q] + 1) % 2 ^ 64 ∧ w 3 = c.detail) ∧
  (∀ (s : State) (k st det : Nat) (c : Cmd), cmdOf s k = some c →
    (c.status = none → cmdOf (finish s k st det) k =
      some { c with begun := true, status := some st, detail := det % 2 ^ 64 }) ∧
    (c.status ≠ none → finish s k st det = s) ∧
    (∀ j, j ≠ k → cmdOf (finish s k st det) j = cmdOf s j) ∧
    (finish s k st det).mem = s.mem ∧ (finish s k st det).regs = s.regs)

/-- R262, R263, R265: an open queue's next command is read and put in flight with the status its checks give it, and the ring's
head moves past it; a command whose LEN is not legal stops the queue with 0x0101.
(Model: log entries 10, 70, 73 and 75.) -/
def Obligations.CommandsAreFetched : Prop :=
  ∀ (s : State) (q : Fin 256), Live s → ratioBad s = none → fetchOpen s q = true → fetchTurn s q = true →
    let s0 := { bare s with turn := q.val }
    let av := ptrDiff (sqTail s q) (sqHead s q)
    let k := qAgent s q
    let h := accRead s0 k (sqAddr s q (sqHead s q)) 64
    let hdr := leNat (h.bytes.take 8)
    let len := bits hdr 23 16
    let r := (List.range (len - 1)).foldl (fun (acc : Nat × List Byte × State) i =>
      if acc.1 != 0 then acc
      else
        let x := accRead acc.2.2 k (sqAddr s q (sqHead s q + 1 + i)) 64
        (x.st, acc.2.1 ++ x.bytes, x.s)) (0, h.bytes.drop 8, h.s)
    let u := fset r.2.2 .QD_Q_PTR [q.val] Fld.QD_Q_PTR_SQ_HEAD (sqHead s q + len)
    0 < av → h.st = 0 →
    ((len = 0 ∨ 64 < len ∨ ringLen s q < len) →
      Becomes s (.commandFetch q) (queueError (pushCmd h.s q hdr [] (some 0x0101)) q)) ∧
    (1 ≤ len → len ≤ 64 → len ≤ ringLen s q → len ≤ av → r.1 = 0 →
      Becomes s (.commandFetch q) (pushCmd u q hdr r.2.1 (match stoppedStatus u q (bits hdr 7 0) with
        | some x => some x
        | none => fetchCheck u q hdr r.2.1)))

/-- R69, R130, R274: NOP, WAIT_QUEUE, SIGNAL and TENANT_SWITCH do their work and finish with the status and DETAIL the manual
gives; a vendor test opcode is refused. -/
def Obligations.PlainTarhelCommands : Prop :=
  ∀ (s : State) (k : Nat) (c : Cmd),
    let b := begun s c
    (Starts s k 0x00 c → Becomes s (.tarhelNop k) (finishPost b c 0 0)) ∧
    (Starts s k 0x01 c →
      let q := par c 0 1
      let n := rget s .QD_Q_COUNT [q]
      (q = c.q → Becomes s (.waitQueue k) (finishPost b c 0x0103 n)) ∧
      (q ≠ c.q → par c 8 8 ≤ n → Becomes s (.waitQueue k) (finishPost b c 0 n)) ∧
      (q ≠ c.q → n < par c 8 8 → qEnabled s q = false → Becomes s (.waitQueue k) (finishPost b c 0x0103 n)) ∧
      (q ≠ c.q → n < par c 8 8 → qEnabled s q = true → Becomes s (.waitQueue k) b)) ∧
    (Starts s k 0x02 c →
      let w := accWrite b (agentOf b c) (par c 0 8) (leBytes 8 (par c 8 8))
      (par c 0 8 % 8 = 0 → Becomes s (.signal k) (finishPost w.2 c w.1 0)) ∧
      (par c 0 8 % 8 ≠ 0 → Becomes s (.signal k) (finishPost b c 0x0101 0))) ∧
    (Starts s k 0x03 c → par c 0 1 ≤ fget s .LCS_TENANT [] Fld.LCS_TENANT_TENANT_MAX →
      let busy := (List.range 256).any (fun q => qTenant b q && (qEnabled b q || !(qCmds b q).isEmpty))
      (busy = true → Becomes s (.tenantSwitch k) (finishPost b c 0x0104 0)) ∧
      (busy = false → Becomes s (.tenantSwitch k) (finishPost { tenantClear b with tenant := par c 0 1 } c 0 s.tenant))) ∧
    (∀ opc, 0xF0 ≤ opc → Starts s k opc c → Becomes s (.vendorTest k) (finishPost b c 0x0101 0))

/-- R141, R275, R276, R204: CODE_LOAD copies a checked code object, MODEL_LOAD copies or converts a range, and each then
invalidates the read-only caches and finishes.
(Model: log entries 8 and 56.) -/
def Obligations.LoadsCopyAndConvert : Prop :=
  ∀ (s : State) (k : Nat) (c : Cmd),
    let b := begun s c
    let g := agentOf b c
    (Starts s k 0x10 c →
      let src := par c 0 8
      let dst := par c 8 8
      let h := accRead b g src 64
      let x := codeHdr h.bytes
      let r := accRead h.s g (src + 64) x.codeLen
      let w := accWrite r.s g dst (h.bytes ++ r.bytes)
      src % 64 = 0 → dst % 64 = 0 → dst < spBase → h.st = 0 →
      (hdrCheck x ≠ 0 → Becomes s (.codeLoad k) (finish (rocClearAll h.s) c.id 0x0130 (hdrCheck x))) ∧
      (hdrCheck x = 0 → mapped h.s src (64 + x.codeLen) = true → mapped h.s dst (64 + x.codeLen) = true → r.st = 0 →
        (crc32c r.bytes ≠ x.crc → Becomes s (.codeLoad k) (finish (rocClearAll r.s) c.id 0x0130 6)) ∧
        (crc32c r.bytes = x.crc → w.1 = 0 → Becomes s (.codeLoad k) (finish (rocClearAll w.2) c.id 0 x.codeLen)))) ∧
    (Starts s k 0x11 c →
      let src := par c 0 8
      let ssrc := par c 8 8
      let dst := par c 16 8
      let sdst := par c 24 8
      let n := par c 32 4
      let conv := par c 36 1
      (conv = 0 → dst % 16 = 0 → n % 16 = 0 → ssrc = 0 → sdst = 0 → dst + n ≤ spBase →
        mapped b src n = true → mapped b dst n = true →
        let r := accRead b g src n
        let w := accWrite r.s g dst r.bytes
        r.st = 0 → w.1 = 0 → Becomes s (.modelLoad k) (finish (rocClearAll w.2) c.id 0 0)) ∧
      (1 ≤ conv → conv ≤ 4 → dst % 16 = 0 → sdst % 16 = 0 → dst + 128 * n ≤ spBase →
        sdst + 4 * n ≤ spBase →
        let z := if conv ≤ 2 then 128 else 96
        mapped b src (z * n) = true → mapped b ssrc (4 * n) = true → mapped b dst (128 * n) = true →
        mapped b sdst (4 * n) = true →
        let r := accRead b g src (z * n) [] (some 4)
        let q := accRead r.s g ssrc (4 * n) [] (some 4)
        let out := (List.range n).flatMap (fun i =>
          convRecord conv ((r.bytes.drop (z * i)).take z) ((q.bytes.drop (4 * i)).take 4))
        let w := accWrite q.s g dst (out.flatMap (fun x => packElems true x.2))
        let v := accWrite w.2 g sdst (out.map (fun x => BitVec.ofNat 8 x.1))
        r.st = 0 → q.st = 0 → w.1 = 0 → v.1 = 0 → Becomes s (.modelLoadConvert k)
          (finish (rocClearAll v.2) c.id 0 (out.filter (fun x => x.1 == 0xFF)).length)))

/-- R118, R142, R143, R270, R277, R278: a checked LAUNCH claims its clusters; when they are free its argument blocks are
written and its clusters start; when every kernel is complete the launch is over. A graph's checked nodes are held, and a
node whose predecessors are done claims its clusters.
(Model: the order of claims and DETAIL are log entry 74, and what a cluster holds that R142 does not name is log entry
126.) -/
def Obligations.LaunchesAndGraphs : Prop :=
  ∀ (s : State),
    (∀ (k : Nat) (c : Cmd), Starts s k 0x20 c →
      let b := begun s c
      let h := accRead b (agentOf b c) (par c 0 8) 64
      let x := codeHdr h.bytes
      h.st = 0 →
      (launchBad h.s x (par c 16 2) (par c 18 2) = true → Becomes s (.launch k) (finish h.s c.id 0x0131 0)) ∧
      (launchBad h.s x (par c 16 2) (par c 18 2) = false → Becomes s (.launch k) { h.s with launches := h.s.launches ++
        [{ id := launchId c.id 0, cmd := c.id, node := 0, graph := false, code := par c 0 8, args := par c 8 8,
           lfirst := par c 16 2, lcount := par c 18 2, started := false, ended := none, entry := x.entry,
           handler := x.handler, argLen := x.argLen }] })) ∧
    (∀ (i : Nat) (l : Launch), Live s → launchOf s i = some l → l.started = false → launchFree s l = true →
      let job := match cmdOf s l.cmd with | some x => cmdJob s x | none => 0
      jobStopped s job = false →
      let g := match cmdOf s l.cmd with | some x => agentOf s x | none => cmdAgent 0
      let u := (launchSet l).foldl (fun (u : State) j => { u with jobOf := tput j job u.jobOf }) (bare s)
      let a := if l.argLen = 0 then (⟨0, 0, [], u⟩ : RangeRead) else accRead u g l.args l.argLen
      let w := (launchSet l).foldl (fun (acc : Nat × State) j =>
        if acc.1 != 0 || a.bytes.isEmpty then acc else accWrite acc.2 g (spAddr j 0x3FF000) a.bytes) (0, a.s)
      let t := (List.range l.lcount).foldl (startCluster l) (setLaunch w.2 { l with started := true })
      a.st = 0 → w.1 = 0 → Becomes s (.launchStart i) (if l.graph then graphDone l.cmd t else t)) ∧
    (∀ (i : Nat) (l : Launch), Live s → launchOf s i = some l → l.started = true →
      let cs := (launchSet l).filterMap (fun j => physOf s j)
      let u := cs.foldl (fun u c => modClu u c (fun x => { x with launch := none })) (bare s)
      cs.all (kernelDone s) = true → (∀ c ∈ cs, fget s .CORE_STAT (tk c) Fld.CORE_STAT_EXIT = 0) →
      Becomes s (.kernelComplete i) (graphDone (i / 8192) (launchOver l 0 0 0 u))) ∧
    (∀ (k : Nat) (c : Cmd), Starts s k 0x21 c →
      let b := begun s c
      let n := par c 8 2
      let r := accRead b (agentOf b c) (par c 0 8) (64 * n)
      let g := graphCheck (agentOf b c) r.bytes n r.s
      1 ≤ n → n ≤ 4096 → r.st = 0 → g.1 = 0 → Becomes s (.graphLaunch k)
        { g.2.2.2 with graphs := g.2.2.2.graphs ++ [⟨c.id, g.2.2.1⟩] }) ∧
    (∀ (k i : Nat) (c : Cmd) (g : Graph) (x : GNode), Live s → s.graphs.find? (fun g => g.cmd == k) = some g →
      cmdOf s k = some c → g.nodes[i]? = some x → x.state = 0 → c.status = none → qFenced s c.q = false →
      ((x.preds.filter (fun p => p != 0xFFFF)).filterMap (fun p => g.nodes[p]?)).all (fun p => p.state == 2) = true →
      let l : Launch := { id := launchId k i, cmd := k, node := i, graph := true, code := x.code, args := x.args,
                          lfirst := x.lfirst, lcount := x.lcount, started := false, ended := none,
                          entry := x.entry, handler := x.handler, argLen := x.argLen }
      Becomes s (.graphNodeStart k i) (graphDone k (launchGo l { bare s with
        launches := s.launches ++ [l],
        graphs := s.graphs.map (fun (y : Graph) => if y.cmd == k then { y with nodes := y.nodes.set i { x with state := 1 } }
          else y) })))

/-- R280: a copy command of a queue takes the lowest free channel in fetch order and runs its descriptors; one whose
descriptor sets TOK or FENCE is refused. One whose descriptor fills scratchpad completes with status 0: its pattern stands in the
range, a list's STATUS in its entry, and the channel is free again.
(Model: log entries 10, 18 and 51.) -/
def Obligations.CopyChannelCommands : Prop :=
  ∀ (s : State),
    (∀ (k opc : Nat) (i : Instr) (c : Cmd), (i, opc) ∈ [(.dmaDesc k, 0x60), (.dmaList k, 0x61)] → Starts s k opc c →
      let b := begun s c
      let w := entryWords (c.par.take 32)
      (opc = 0x60 → (dTok w || dFence w) = true → Becomes s i (finish b c.id 0x0102 0)) ∧
      ((opc = 0x61 ∨ (dTok w || dFence w) = false) → chanOf b c.id = none →
        (chanWaiters b).all (fun x => decide (c.id ≤ x.id)) = true → Becomes s i (takeChan c b))) ∧
    (∀ (c : Cmd) (rest : List Cmd), Live s → chanWaiters s = c :: rest →
      Becomes s .dmaChannelGrant (if c.begun then takeChan c (bare s) else dmaCmd c (begun s c))) ∧
    (∀ (k : Nat) (i : Instr) (c : Cmd) (rest : List Cmd),
      (i = .dmaDesc k ∧ Starts s k 0x60 c ∧ chanOf s c.id = none ∧ (∀ x ∈ chanWaiters s, c.id ≤ x.id)) ∨
      (i = .dmaList k ∧ Starts s k 0x61 c ∧ chanOf s c.id = none ∧ (∀ x ∈ chanWaiters s, c.id ≤ x.id)) ∨
      (i = .dmaChannelGrant ∧ Live s ∧ cmdOf s k = some c ∧ chanWaiters s = c :: rest ∧ chanOf s c.id = none ∧
        (∀ x ∈ rest, c.id ≤ x.id)) →
      s.chans.length = 8 → (∃ j < 8, lget none s.chans j = none) →
      s.tc = [] → (∀ e ∈ s.tcBytes, e.1 < spBase) → fbit s .ECC_INJ [] Fld.ECC_INJ_ARM = false →
      let at_ := par c 0 8
      let w := if c.opc = 0x60 then entryWords (c.par.take 32) else entryWords (mread s.mem at_ 32)
      (c.opc = 0x60 → dFence w = false) → dTok w = false → descInvalid w = false → dOp w = 3 → dRed w = 0 →
      spBase ≤ dDst w → dDst w + dLen w ≤ apBase → Plain s (dDst w) (dLen w) true →
      (c.opc = 0x61 → par c 8 4 = 1 ∧ spBase ≤ at_ ∧ at_ + 32 ≤ apBase ∧ (at_ + 32 ≤ dDst w ∨ dDst w + dLen w ≤ at_) ∧
        Plain s at_ 32 false ∧ Plain s at_ 32 true) →
      ∃ t c', exec i s = .next t ∧ cmdOf t k = some c' ∧ c'.status = some 0 ∧ c'.detail = (if c.opc = 0x60 then 0 else 1) ∧
        t.chans = s.chans ∧ RegsOnly s t ((List.range 1024).map (fun k => RegId.SP_CNT.off (tk k))) ∧ t.log = s.log ∧
        t.clu = s.clu ∧
        ∀ x, mget t.mem x = if dDst w ≤ x ∧ x < dDst w + dLen w
          then BitVec.ofNat 8 (lget 0 w 1 % 2 ^ 32 / 2 ^ (8 * ((x - dDst w) % 4)) % 256)
          else if c.opc = 0x61 ∧ at_ + 14 ≤ x ∧ x < at_ + 16 then 0 else mget s.mem x)

/-- R178, R180, R185, R206, R211: the configuration commands of the page manager store what they are given, and refuse it with
the manual's status where it does not fit.
(Model: log entries 22, 76 and 141.) -/
def Obligations.KvConfigurationCommands : Prop :=
  ∀ (s : State) (k : Nat) (c : Cmd),
    (Starts s k 0x30 c →
      let bs := poolBanks s (par c 0 2) (par c 2 2) (par c 4 2) (par c 8 4)
      let mb := par c 24 8
      let ms := par c 32 2 * 2 ^ 30
      let bad := s.kv.seqs.any (fun q => q.2.state != 0) || decide (bs.length < par c 12 4 + par c 16 4) || mb % 2 ^ 30 != 0
        || bs.any (fun a => striped s (a / 2 ^ 30)) || bs.any (fun a => overlaps a (2 ^ 23) mb ms)
      mapped s mb ms = true → mb + ms ≤ spBase →
      (bad = true → Finishes s (.kvPoolSet k) k 0x0122 0 (fun t => t.kv = s.kv ∧ t.regs = s.regs)) ∧
      (bad = false → Finishes s (.kvPoolSet k) k 0 0 (fun t =>
        t.kv = { s.kv with pool := poolFrom bs (par c 12 4) (par c 16 4), lost := [] } ∧
        t.kv.pool.map (fun b => b.1) = bs ∧
        fget t .KV_POOL_CFG0 [] Fld.KV_POOL_CFG0_LFIRST = (clusterRange (par c 0 2) (par c 2 2)).1 ∧
        fget t .KV_POOL_CFG0 [] Fld.KV_POOL_CFG0_LLAST = (clusterRange (par c 0 2) (par c 2 2)).2 ∧
        fget t .KV_POOL_CFG0 [] Fld.KV_POOL_CFG0_DIEMASK = par c 4 2 ∧
        fget t .KV_POOL_CFG1 [] Fld.KV_POOL_CFG1_BANKMASK = par c 8 4 ∧
        fget t .KV_POOL_CFG2 [] Fld.KV_POOL_CFG2_N1 = par c 12 4 ∧ fget t .KV_POOL_CFG2 [] Fld.KV_POOL_CFG2_N2 = par c 16 4 ∧
        metaBase t = mb ∧ metaSize t = ms ∧
        RegsOnly s t [RegId.KV_POOL_CFG0.off [], RegId.KV_POOL_CFG1.off [], RegId.KV_POOL_CFG2.off [], RegId.KV_META.off []]))) ∧
    (Starts s k 0x31 c →
      let p := par c 0 1
      let n := par c 2 2
      let recs := (List.range n).map (fun l => par c (8 + 8 * l) 8)
      let bad := fun (r : Nat) => r % 4 == 3 || (tbit r 2 && decide (bits r 31 16 ≤ bits r 7 4 + bits r 15 8))
      p ≤ 15 → 1 ≤ n → n ≤ 256 → 1 ≤ par c 1 1 → par c 1 1 ≤ 64 → recs.any bad = false →
      s.kv.seqs.any (fun q => q.2.state != 0 && q.2.profile == p) = false →
      Finishes s (.kvProfileSet k) k 0 0 (fun t => t.regs = s.regs ∧
        t.kv = { s.kv with profiles := tput p ⟨n, par c 1 1, recs⟩ s.kv.profiles })) ∧
    (Starts s k 0x40 c →
      let b := par c 0 8
      let n := par c 8 4
      s.kv.recs.any (fun r => !(r.2.loc == 1 || r.2.loc == 4) && !(inSwap s r.2)) = false → b % 2 ^ 30 = 0 → n ≤ 16384 →
      (n = 0 ∨ ((∃ o, spaceOf b = .spill o) ∧ mapped s b (n * 2 ^ 30) = true)) →
      Finishes s (.kvSpillSet k) k 0 0 (fun t => t.kv = s.kv ∧ spillArea t = (b % 2 ^ 48, n * 2 ^ 30) ∧
        RegsOnly s t [RegId.KV_SPILL_AREA.off []])) ∧
    (Starts s k 0x41 c →
      let b := par c 0 8
      let n := par c 8 4
      s.kv.seqs.any (fun q => q.2.state == 3 || q.2.state == 4) = false → b % 2 ^ 30 = 0 → n ≤ 16384 →
      (n = 0 ∨ hwinParts s 257 b (n * 2 ^ 30) ≠ none) →
      Finishes s (.kvSwapSet k) k 0 0 (fun t => t.kv = s.kv ∧ swapArea t = (b % 2 ^ 48, n * 2 ^ 30) ∧
        RegsOnly s t [RegId.KV_SWAP_AREA.off []]))

/-- R187–R190: SEQ_CREATE takes the lowest Free number, SEQ_FORK shares the pages below T, SEQ_FREE makes a sequence Free and
SEQ_TRUNCATE cuts its lengths.
R191, R208, R209, R211, R212, R279: the commands that move keys and values: each entry of an append in turn, an export
position by position, and the pages a command names to and from the spill tier and the host.
R182: a sequence the metadata region has no room for is not made, and the command reports 0x0206.
(Model: whether there is room is open, log entry 22; where the region holds an item is log entry 131; also log entries 20, 56,
76 and 142.) -/
def Obligations.SequenceAndDataCommands : Prop :=
  (∀ (s : State) (k i : Nat) (c : Cmd),
    (Starts s k 0x32 c → ∀ p, tfind s.kv.profiles (par c 0 1) = some p →
      (List.range 1024).find? (fun i => (seqOf s i).isNone) = some i →
      let q : Seq :=
        { state := 1, profile := par c 0 1, prio := par c 2 2, lens := List.replicate p.layers 0, ptes := [], sums := [], last := 0 }
      let room := metaRoom (setSeq s i q)
      KvFinishes s (.seqCreate k) k (if room then 0 else 0x0206) (if room then i else 0) (fun u =>
        (room = true → seqOf u i = some q) ∧ (room = false → u.kv = s.kv) ∧
        (∀ j, j ≠ i → seqOf u j = seqOf s j) ∧ u.kv.recs = s.kv.recs)) ∧
    (Starts s k 0x32 c → tfind s.kv.profiles (par c 0 1) = none →
      Finishes s (.seqCreate k) k 0x0121 0 (fun u => u.kv = s.kv ∧ u.regs = s.regs))) ∧
  (∀ (s : State) (k : Nat) (c : Cmd) (b : State) (x : Seq),
    let a := par c 0 2
    let t := par c 4 4
    let u := kvArrive c.id [a] b
    let mgr := kvAgentOf b c
    (Goes s k 0x33 c b → seqBusy u c.id a = false → seqCheck u a = 0 → seqOf u a = some x → (∀ l ∈ x.lens, t ≤ l) →
      ∀ i, (List.range 1024).find? (fun i => (seqOf u i).isNone) = some i →
      let w := walk mgr a ((allKeys u a).filter (fun y => decide (y % 131072 * 128 < t))) u
      let ptes := x.ptes.filter (fun e => decide (e.1 % 131072 * 128 < t))
      let q : Seq := { x with
        lens := x.lens.map (fun _ => t), ptes := ptes,
        sums := x.sums.filter (fun e => decide ((e.1 % 131072 + 1) * 128 ≤ t)), last := 0 }
      let v := setSeq (ptes.foldl (fun s e => if pteValid e.2 then
        (match recOf s (ptePid e.2) with
         | some r => setRec s (ptePid e.2) { r with refcnt := r.refcnt + 1 }
         | none => s) else s) w.2) i q
      w.1 = 0 →
      (metaRoom v = true → KvBecomes s (.seqFork k) k (kvFinish v c.id 0 i)) ∧
      (metaRoom v = false → KvBecomes s (.seqFork k) k (kvFinish w.2 c.id 0x0206 0)) ∧
      seqOf (kvFinish v c.id 0 i) i = (if x.state = 0 then none else some q) ∧
      ∀ j, j ≠ i → seqOf (kvFinish v c.id 0 i) j = seqOf w.2 j) ∧
    (Goes s k 0x34 c b → seqBusy u c.id a = false → seqOf u a = some x → (x.state = 1 ∨ x.state = 3) →
      let w := walk mgr a (allKeys u a) u
      let v := kvFinish (modKv ((x.ptes.filter (fun e => pteValid e.2)).foldl (fun s e => unref (ptePid e.2) s) w.2)
        (fun k => { k with seqs := tdel a k.seqs })) c.id 0 0
      w.1 = 0 → KvBecomes s (.seqFree k) k v ∧ seqOf v a = none ∧ ∀ j, j ≠ a → seqOf v j = seqOf w.2 j) ∧
    (Goes s k 0x35 c b → seqBusy u c.id a = false → seqCheck u a = 0 → seqOf u a = some x → (∃ l ∈ x.lens, t ≤ l) →
      let w := walk mgr a ((allKeys u a).filter (fun y => decide (t < (y % 131072 + 1) * 128))) u
      let r := x.ptes.foldl (cutEntry a t) w.2
      ∀ y, w.1 = 0 → seqOf r a = some y →
      let z := { y with lens := x.lens.map (fun l => min l t) }
      KvBecomes s (.seqTruncate k) k (kvFinish (setSeq r a z) c.id 0 0) ∧
      (seqOf w.2 a = some x → ∀ e ∈ z.ptes, e.1 % 131072 * 128 < t) ∧ ∀ j, j ≠ a → seqOf r j = seqOf w.2 j)) ∧
  (∀ (s : State) (k : Nat) (c : Cmd) (b : State) (x : Seq),
    let i := par c 0 2
    let n := par c 2 2
    let u := kvArrive c.id [i] b
    let free_ := seqBusy u c.id i = false ∧ readerFree u = true ∧ seqOf u i = some x
    let ready := free_ ∧ seqCheck u i = 0
    let mgr := kvAgentOf b c
    let named := namedPages x (par c 2 1) (par c 3 1) (par c 4 4) (par c 8 4)
    let keys := named.map (fun p => pteKey p.1 p.2.1 p.2.2.1)
    let layersOk := par c 2 1 < seqLayers u x ∧ par c 3 1 < seqLayers u x
    (Goes s k 0x36 c b → mapped b (par c 8 8) (16 * n) = true → mapped b (par c 16 8) n = true →
      let r := accRead b { agentOf b c with reader := 10 } (par c 8 8) (16 * n)
      let names := (List.range n).map (fun j => leNat ((r.bytes.drop (16 * j)).take 2))
      r.st = 0 → KvBecomes s (.kvAppend k) k (appendGo c r.bytes (n + 1) (kvArrive c.id names r.s))) ∧
    (Goes s k 0x37 c b → ready →
      let l := par c 2 1
      let raw := par c 3 1 != 0
      let h0 := par c 4 1
      let hn := par c 5 1
      let pos := par c 8 4
      let np := par c 12 4
      let cls := layerRec u x l % 4
      let vb := if raw then vecBytes cls + sclBytes cls else 256
      let w := walk mgr i ((namedPages x l l pos np).filterMap (fun p =>
        if decide (h0 ≤ p.2.1) && decide (p.2.1 < h0 + hn) then some (pteKey p.1 p.2.1 p.2.2.1) else none)) u
      let r := exportRows mgr x raw cls vb l h0 hn pos np (par c 16 8) w.2
      l < seqLayers u x → h0 + hn ≤ seqHeads u x → pos + np ≤ lget 0 x.lens l →
      mapped u (par c 16 8) (np * 2 * hn * vb) = true → w.1 = 0 →
      KvBecomes s (.kvExport k) k (kvFinish r.2.2 c.id r.1 (if r.1 = 0 then r.2.1 * 2 ^ 32 + np else 0))) ∧
    (Goes s k 0x42 c b → ready → layersOk →
      let w := walk mgr i keys u
      let todo := named.filter (fun p => toFetch u c.id p.2.2.2)
      let go := fetchPages c.id mgr i todo (fun s => finc s .KV_CNT [2] Fld.KV_CNT_COUNT 1) w.2
      w.1 = 0 → KvBecomes s (.kvPrefetch k) k (match go.1 with
        | some (0, _) => kvFinish go.2 c.id 0 (runOf go.2 c.id).moved
        | some (st, pid) => kvFinish (moveGive pid go.2) c.id st (runOf go.2 c.id).moved
        | none => go.2)) ∧
    (Goes s k 0x43 c b → ready → layersOk →
      let w := walk mgr i keys u
      let r := spillNamed mgr named w.2
      w.1 = 0 →
      (r.1 ≠ 0xFFFF → KvBecomes s (.kvSpillPages k) k (kvFinish r.2.2 c.id r.1 r.2.1)) ∧
      (r.1 = 0xFFFF → KvBecomes s (.kvSpillPages k) k
        (kvFinish (finc r.2.2 .KV_CNT [7] Fld.KV_CNT_COUNT 1) c.id 0 r.2.1))) ∧
    (Goes s k 0x44 c b → ready → (runOf u c.id).back = none →
      let w := walk mgr i (allKeys u i) u
      let r := swapOut mgr i w.2
      w.1 = 0 → KvBecomes s (.seqSwapOut k) k (if r.1 = 0 then kvFinish r.2.2 c.id 0 r.2.1
        else let st := if r.1 = 0xFFFF then 0x0205 else r.1
             swapFail c.id i st mgr.job false (kvNote w.2 r.2.2 c.id st))) ∧
    (∀ (j : Instr) (opc : Nat), (j, opc) ∈ [(.seqSwapOut k, 0x44), (.seqSwapIn k, 0x45)] → Goes s k opc c b →
      (runOf u c.id).back ≠ none → KvBecomes s j k (backGo c.id u)) ∧
    (Goes s k 0x45 c b → free_ → (runOf u c.id).back = none →
      (x.state = 1 → KvBecomes s (.seqSwapIn k) k (kvFinish u c.id 0 0)) ∧
      (x.state ≠ 1 →
        let w := walk mgr i (allKeys u i) u
        let go := fetchPages c.id mgr i (swappedPages u x) (fun s => s) (setSeq w.2 i { x with state := 4 })
        w.1 = 0 → KvBecomes s (.seqSwapIn k) k (match go.1 with
          | some (0, _) => kvFinish (seqState go.2 i 1) c.id 0 (runOf go.2 c.id).moved
          | some (st, pid) => swapFail c.id i st mgr.job true (moveGive pid go.2)
          | none => go.2))))

/-- R195, R196, R207, R210, R213: retired items return once no reader pins them; the watermarks spill a class down; a wait
for a frame that has lasted SPILL_WAIT fails when no sequence can be pre-empted.
R196: no item a reader pins returns: its frame stays taken.
R206: a page image whose trailer does not match its rows is refused with 0x0306 and reported.
(Model: log entries 63, 76 and 142.) -/
def Obligations.KvManagerSteps : Prop :=
  (∀ (s : State), Live s →
    (∃ t, exec .retiredReturn s = .next t ∧ t = { s with kv := t.kv } ∧
      t.kv.retired = s.kv.retired.filter (fun r => !(mayReturn s r)) ∧
      (∀ a, a ∈ t.kv.frames ↔ a ∈ s.kv.frames ∧ ¬ ∃ r ∈ s.kv.retired, r.kind = 0 ∧ r.addr = a ∧ mayReturn s r = true) ∧
      t.kv.recs = s.kv.recs ∧ t.kv.seqs = s.kv.seqs) ∧
    (∀ cls : Fin 3, (wmLow s cls ≤ clsFree s cls ∨ (spillArea s).2 = 0) → exec (.spillStart cls) s = .next s) ∧
    (∀ (cls : Fin 3) (pid a : Nat) (r : PageRec), clsFree s cls < wmLow s cls → (spillArea s).2 ≠ 0 → readerFree s = true →
      wmHigh s cls = clsFree s cls + 1 → s.kv.retired = [] → (spillCands s cls).head? = some pid → recOf s pid = some r →
      freeSlot (spillArea s) s.kv.slots r.cls = some a →
      let x := accRead (bare s) (kvAgent 0) r.addr (1024 * clsRows r.cls)
      let w := accWrite x.s (kvAgent 0) a (x.bytes ++ trailer a x.bytes)
      x.st = 0 → w.1 = 0 → Becomes s (.spillStart cls) (metaSync (bare s)
        (finc (retireAll [(0, r.addr)] (setRec (modKv w.2 (fun q => { q with slots := slotKey a r.cls :: q.slots })) pid
          { r with addr := a, loc := 2 })) .KV_CNT [1] Fld.KV_CNT_COUNT 1))) ∧
    (∀ cls : Fin 3, clsFree s cls < wmLow s cls → (spillArea s).2 ≠ 0 → readerFree s = true →
      let gone := (s.kv.retired.filter (fun r => r.kind == 0 && s.kv.pool.any (fun b =>
        b.2 == cls.val && decide (b.1 ≤ r.addr) && decide (r.addr < b.1 + 2 ^ 23)))).length
      Becomes s (.spillStart cls) (metaSync (bare s)
        (spillEach ((spillCands s cls).take (wmHigh s cls - (clsFree s cls + gone))) (bare s)).2)) ∧
    (∀ k (w : KvWait) (c : Cmd), (runOf s k).waits.find? (fun w => w.ended.isNone) = some w → cmdOf s k = some c →
      c.status = none → qFenced s c.q = false → isHeld s = false →
      let t := waitGo k (bare s)
      (waitOf t k w.entry ≠ some w → KvBecomes s (.allocWaitExpire k) k t) ∧
      (waitOf t k w.entry = some w → KvBecomes s (.allocWaitExpire k) k (waitGo k (waitExpire k (waitAgent t k) w t))) ∧
      (fbit t .KV_CFG [] Fld.KV_CFG_AUTO_PREEMPT = false →
        waitExpire k (waitAgent t k) w t = setWait t k { w with ended := some 0 })) ∧
    (∀ k (w : KvWait) (m : KvMove) (r : PageRec), cmdOf s k = none → (runOf s k).waits = [w] → w.entry = 0 → w.ended = none →
      (runOf s k).move = some m → isHeld s = false → fbit s .KV_CFG [] Fld.KV_CFG_AUTO_PREEMPT = false →
      readerFree s = true → recOf s m.pid = some r → r.loc = 3 → r.cls = w.cls → w.page = pteKey m.layer m.head m.page →
      placeFrame s w.cls m.seq m.layer m.head m.page = none →
      let u := noWait (setWait (bare s) k { w with ended := some 0 }) k 0
      Becomes s (.allocWaitExpire k) (metaSync (bare s) (endRun (moveGive m.pid u) k)) ∧
      (recOf (endRun (moveGive m.pid u) k) m.pid = some { r with loc := if inSwap s r then 5 else 2 })) ∧
    (∀ k (w : KvWait) (c : Cmd) (x : Seq) (r : PageRec), (runOf s k).waits = [w] → w.entry = 0 → w.ended = none →
      fbit s .KV_CFG [] Fld.KV_CFG_AUTO_PREEMPT = false → cmdOf s k = some c → c.begun = true → c.status = none →
      qFenced s c.q = false → isHeld s = false → c.opc = 0x42 → metaSize s = 0 →
      let i := par c 0 2
      let named := namedPages x (par c 2 1) (par c 3 1) (par c 4 4) (par c 8 4)
      seqBusy s k i = false → readerFree s = true → seqCheck s i = 0 → seqOf s i = some x →
      par c 2 1 < seqLayers s x → par c 3 1 < seqLayers s x →
      ∀ p rest, named.filter (fun p => toFetch s k p.2.2.2) = p :: rest →
      recOf s p.2.2.2 = some r → r.loc = 3 → r.cls = w.cls → w.page = pteKey p.1 p.2.1 p.2.2.1 →
      placeFrame s w.cls i p.1 p.2.1 p.2.2.1 = none →
      let u := setMine (setWait (setMine (bare s) k (some p.2.2.2)) k { w with ended := some 0 }) k (some p.2.2.2)
      let v := setMine (noWait u k 0) k none
      KvBecomes s (.allocWaitExpire k) k (kvFinish (moveGive p.2.2.2 v) k (noFrame s w.cls) (runOf v k).moved))) ∧
  (∀ (s : State) (id entry st : Nat) (w : KvWait), waitOf s id entry = some w → w.ended = some st →
    settleOut s id entry (.wait w.cls w.page) = (some (if st = 0 then noFrame s w.cls else st), noWait s id entry)) ∧
  (∀ (s : State) (r : Retired) (p : Nat × Nat), r ∈ s.kv.retired → p ∈ s.kv.readers → p.2 ≤ r.ret →
    r ∈ (returnRetired s).kv.retired) ∧
  (∀ (s : State) (k : Agent) (pid : Nat) (r : PageRec),
    let n := 1024 * clsRows r.cls
    let x := accRead s k r.addr (n + 4 * clsRows r.cls)
    inSwap s r = false → x.st = 0 →
    (x.bytes.drop n = trailer r.addr (x.bytes.take n) → (readImage k pid r s).1 = 0 ∧
      (readImage k pid r s).2.1 = x.bytes.take n ∧ (readImage k pid r s).2.2 = x.s) ∧
    (x.bytes.drop n ≠ trailer r.addr (x.bytes.take n) → (readImage k pid r s).1 = 0x0306 ∧
      (readImage k pid r s).2.2 = kvFault x.s 0x0306 k.job pid))

/-- R195, R217, R218, R226, R229–R234: a pass reads its list, enters its entries and takes each as far as it goes; the oldest
waiting reader takes a free slot; a tower's next wave of runs goes out once the last is over; a merge unit accepts a record in a
cycle; and a context all of whose towers have delivered is folded.
(Model: log entries 9, 26, 57 and 143.) -/
def Obligations.AttentionSteps : Prop :=
  ∀ (s : State), Live s →
    let s0 := bare s
    (∀ (k : Nat) (c : Cmd) (b : State), Goes s k 0x38 c b → attOf b c.id = none →
      let n := par c 6 2
      let g := par c 1 1
      let r := accRead b { agentOf b c with reader := 10 } (par c 16 8) (24 * n)
      let f := fun i off sz => leNat ((r.bytes.drop (24 * i + off)).take sz)
      let wrong := g = 0 ∨ 16 < g ∨ 256 < par c 4 2 ∨ 32 ≤ par c 2 1 ∨
        (((List.range n).map (fun i => f i 0 2)).eraseDups).length ≠ n
      mapped b (par c 16 8) (24 * n) = true → mapped b (par c 24 8) n = true → r.st = 0 →
      (wrong → KvBecomes s (.kvAttend k) k (finish r.s c.id 0x0125 0)) ∧
      (¬ wrong →
        let u := if tbit (par c 2 1) 2 then modKv r.s (fun k => { k with g := (k.g + 1) % 2 ^ 40 }) else r.s
        let es : List AttEntry := (List.range n).map (fun i =>
          { idx := i, seq := f i 0 2, qaddr := f i 8 8, oaddr := f i 16 8, stage := 0, status := 0, layer := par c 0 1, q := [],
            sel := [], pages := [], open_ := [], planned := false, work := [], mass := [], outs := [] })
        KvBecomes s (.kvAttend k) k (attDone c.id (attGo c.id (kvArrive c.id ((List.range n).map (fun i => f i 0 2)) { u with
          attends := u.attends ++ [⟨c.id, g, par c 4 2, par c 2 1, par c 8 4, par c 24 8, es⟩] }))))) ∧
    (∀ h rest, s.kv.waiting = h :: rest → readerFree s = true → (∀ r ∈ s.kv.runs, r.move = none ∧ r.back = none) →
      Becomes s .readerSlotGrant (metaSync s0 (entryStart (h / 2048) (h % 2048)
        (modKv s0 (fun k => { k with waiting := rest, readers := k.readers ++ [(h, k.epoch)] }))))) ∧
    (s.kv.waiting = [] → (∀ r ∈ s.kv.runs, r.move = none ∧ r.back = none) → exec .readerSlotGrant s = .next s) ∧
    (∀ (t : Fin 16) (slot : Nat), (∀ r ∈ s.pageRuns, r.bank / 32768 ≠ t) → freeFwSlot s t = some slot →
      Becomes s (.pageRunDispatch t) (metaSync s0 (waveSend t slot ((towerWork s t).foldl waveAdd s0)))) ∧
    (∀ t : Fin 16, (∃ r ∈ s.pageRuns, r.bank / 32768 = t) → exec (.pageRunDispatch t) s = .next s) ∧
    (∀ (t : Fin 16) (i : Nat) (l : List (Nat × Bool)) (r : MrgRec) (u : State),
      let m := mrgOf s t
      let busy : List (Nat × Bool) := m.inputs.filterMap (fun i => match i.2 with
        | [] => none
        | r :: _ => some (i.1, tbit r.tag 31))
      noClock s (2048 + t.val) = false → (∀ j ∈ m.inputs, j.2.length < 8) → (∀ c ∈ m.ctxs, c.got < c.expect) →
      busy.filter (fun i => decide (m.last < i.1)) ++ busy.filter (fun i => decide (i.1 ≤ m.last)) = (i, false) :: l →
      popInput t i s0 = (some r, u) → Becomes s (.mergeAccept t) (acceptRec t r u)) ∧
    (∀ (tag : Nat) (c : FloorCtx) (a : Attend) (e : AttEntry), s.floor.find? (fun c => c.tag == tag) = some c →
      noClock s 2105 = false → (∀ t < 16, (mrgOf s t).out = []) →
      c.need.all (fun t => (tfind c.got t).isSome) = true → attOf s c.cmd = some a → attEntry s c.cmd c.entry = some e →
      let u := { s0 with floor := s.floor.filter (fun x => x.tag != tag) }
      (tbit tag 31 = true → Becomes s (.floorMergeFold tag) (metaSync s0 (selFold c (bits tag 20 15) a e u))) ∧
      (tbit tag 31 = false →
        let pair := bits tag 20 15
        let out := fun j => c.got.foldl (fun acc g => match lget none g.2.acc j with
          | some p => foldPartial acc p
          | none => acc) none
        let outs := (List.range 2).foldl (fun o j => match out j with
          | some p => tput (2 * pair + j) p o
          | none => o) e.outs
        Becomes s (.floorMergeFold tag) (metaSync s0 (entryCheck c.cmd c.entry (setEntry u c.cmd { e with outs := outs })))))

/-! ### Host ports -/

/-- R312, R313, R316, R320, R428, R440: what an upstream port's BAR4 and CXL.mem accesses get, a back-invalidate's answer
and its time-out, a host's own snoop, and the completion of a device's request.
R309, R311, R319, R320, R322, R424: an upstream link goes down, is reset and comes up; the spill capacity behind a port is
lost; and a host window is mapped and unmapped.
(Model: log entries 21, 52, 53, 54, 63, 161 and 175–177.) -/
def Obligations.HostAccessesAreServed : Prop :=
  (∀ (s : State) (p : Fin 2), Live s → portRole s p = 1 → hostUp s p = true →
    let b := bare s
    (∀ q : MemReq, q.addr + q.len ≤ 2 ^ 43 → noClock s (2100 + p.val) = false →
      let w := hostWrite p q.addr q.data b
      let r := hostRead p q.addr q.len b
      (memClosed s = true → exec (.hostMemAccess p q) s =
        .next (if q.write then s else emit (linkErr p s) (.completion p 3 false []))) ∧
      (memClosed s = false → mapped s q.addr q.len = false → exec (.hostMemAccess p q) s =
        .next (emit (linkErr p s) (.completion p 1 false []))) ∧
      (memClosed s = false → mapped s q.addr q.len = true → q.write = true → w.1 = 0 → Becomes s (.hostMemAccess p q) w.2) ∧
      (memClosed s = false → mapped s q.addr q.len = true → q.write = false → r.1.1 = 0 →
        Becomes s (.hostMemAccess p q) (emit r.2 (.completion p 0 false r.1.2))) ∧
      (memClosed s = false → mapped s q.addr q.len = true → q.write = false → isWordFault r.1.1 = true →
        Becomes s (.hostMemAccess p q) (emit r.2 (.completion p 0 true r.1.2)))) ∧
    (∀ (q : MemReq) (keep : Bool), hostCxl s p = true → noClock s (2100 + p.val) = false → memClosed s = false → mapped s q.addr q.len = true →
      q.addr + q.len ≤ grade s * 2 ^ 32 →
      let v := if keep && shared s (q.addr / 2 ^ 30) then track p q.addr q.len b else b
      let w := hostWrite p q.addr q.data v
      let r := hostRead p q.addr q.len v
      (q.write = true → w.1 = 0 → Becomes s (.cxlMemRequest p q keep) (emit w.2 (.cxl p "Cmp" q.addr))) ∧
      (q.write = false → r.1.1 = 0 → Becomes s (.cxlMemRequest p q keep) (emit r.2 (.completion p 0 false r.1.2)))) ∧
    (∀ (a : Nat) (x : Snoop), s.host.snoops.find? (fun x => x.line == a / 64 && x.port == p.val) = some x →
      exec (.birsp p a none) s = .next { s with host := { s.host with
        snoops := s.host.snoops.erase x,
        filter := if x.inv then s.host.filter.filter (fun t => !(t.line == x.line && t.port == p.val))
          else s.host.filter.map (fun t => if t.line == x.line && t.port == p.val then { t with clean := true } else t) } } ∧
      exec (.biTimeout p a) s = .next (logEv { s with host := { s.host with
        snoops := s.host.snoops.erase x, timed := s.host.timed ++ [x.line] } }
        0x0F 4 5 (2 * p) 0x0405 0 (4 * x.line % 2 ^ 44))) ∧
    (∀ a, exec (.hostSnoop p a) s = .next (emit s (.cxl p "RspMiss" a))) ∧
    (∀ (tag : Nat) (err : Bool) (d : List Byte),
      let here := s.host.reqs.any (fun r => r.tag == tag && r.port == p.val && r.ans.isNone && r.held.isNone)
      (here = true → Becomes s (.hostCompletion p tag err d)
        (sendKept p (unmapDone (reqDone tag (if err then 0x0405 else 0) d (if err then linkErr p b else b))))) ∧
      (here = false →
        exec (.hostCompletion p tag err d) s = .next s))) ∧
  (∀ (s : State) (p : Fin 2) (q : MemReq), Inv s → s.boot.life = .halted → booted s = false → portRole s p = 1 →
    hostUp s p = true → noClock s (2100 + p.val) = false → q.addr + q.len ≤ 2 ^ 43 → exec (.hostMemAccess p q) s =
      .next (if q.write then s else emit (linkErr p s) (.completion p 3 false []))) ∧
  (∀ (s : State), Live s →
    (∀ p : Fin 2, portRole s p = 1 → hostUp s p = true →
      Becomes s (.hostLinkDown p) (logEv (linkGone p (linkErr p (bare s))) 0x0F 4 5 (2 * p) 0 0 (2 * 2 ^ 48)) ∧
      Becomes s (.hostLinkReset p) (linkGone p (bare s)) ∧
      ((∀ r ∈ s.host.reqs, r.port ≠ p) → s.host.unmaps = [] → ∃ t, exec (.hostLinkReset p) s = .next t ∧
        t = { s with regs := t.regs } ∧ hostUp t p = false ∧
        fget t .HP_LINK_STAT [2 * p] Fld.HP_LINK_STAT_ERRORS = fget s .HP_LINK_STAT [2 * p] Fld.HP_LINK_STAT_ERRORS ∧
        RegsOnly s t [RegId.HP_LINK_STAT.off [2 * p]])) ∧
    (∀ (p : Fin 2) (speed width : Nat), (portRole s p = 1 ∨ portRole s p = 2) → 1 ≤ speed → speed ≤ 6 →
      width ∈ [1, 2, 4, 8, 16] → hostUp s p = false →
      ∃ t, exec (.hostLinkUp p speed width) s = .next t ∧ t = { s with regs := t.regs, freeCtr := s.freeCtr + 1 } ∧
        hostUp t p = true ∧ fget t .HP_LINK_STAT [2 * p] Fld.HP_LINK_STAT_GEN = speed ∧
        fget t .HP_LINK_STAT [2 * p] Fld.HP_LINK_STAT_WIDTH = (if bifOn s p then min width 8 else width) ∧
        (portRole s p = 2 → fget t .HP_LINK_STAT [2 * p] Fld.HP_LINK_STAT_IDE = 0) ∧
        (speed = 6 → fget t .HP_LINK_STAT [2 * p] Fld.HP_LINK_STAT_FLIT = 1) ∧
        RegsOnly s t [RegId.HP_LINK_STAT.off [2 * p]]) ∧
    (∀ l : SpillLoss,
      let hit := (s.host.expanders.zipIdx.filter (fun e => e.1.link == l.link.val && !(s.host.lost.contains e.2)
        && (match l.dev with | none => true | some d => e.2 == d.val))).map (fun e => e.2)
      let down := l.dev = none ∧ fget s .HP_LINK_STAT [l.link.val] Fld.HP_LINK_STAT_UP = 1 ∧ portRole s (l.link.val / 2) = 2
      (hit = [] → ¬ down → exec (.spillDeviceLost l) s = .next s) ∧
      ((hit ≠ [] ∨ down) → ∃ t, exec (.spillDeviceLost l) s = .next t ∧ t.host = { s.host with lost := s.host.lost ++ hit } ∧
        fget t .HP_SPILL_STAT [] Fld.HP_SPILL_STAT_LOST = 1 ∧ t.mem = s.mem ∧
        (down → fget t .HP_LINK_STAT [l.link.val] Fld.HP_LINK_STAT_UP = 0) ∧
        t.log.waiting.length = s.log.waiting.length + 1 ∧
        RegsOnly s t (RegId.HP_SPILL_STAT.off [] :: if l.dev = none then [RegId.HP_LINK_STAT.off [l.link.val]] else []))) ∧
    (∀ (k : Nat) (c : Cmd), Starts s k 0x52 c →
      let i := par c 0 2
      let dev := par c 8 8
      let size := par c 24 8
      i ≤ 255 → hwin s i = none → dev % 4096 = 0 → par c 16 8 % 4096 = 0 → size % 4096 = 0 → size ≠ 0 → size ≤ 2 ^ 42 →
      0x200000000000 ≤ dev → dev + size ≤ 0x400000000000 → par c 2 1 ≤ 1 → portRole s (par c 2 1) = 1 →
      (∀ j < 256, ∀ w, hwin s j = some w → overlaps dev size w.dev w.size = false) →
      let t := rput (rput (rput (begun s c) .HP_HWIN [i] (2 ^ 63 + par c 2 1 * 2 ^ 48 + dev)) .HP_HWIN_HOST [i] (par c 16 8))
        .HP_HWIN_SIZE [i] size
      Becomes s (.hwinMap k) (finishPost t c 0 0) ∧ hwin t i = some ⟨dev, size, par c 16 8 % 2 ^ 64, par c 2 1⟩) ∧
    (∀ (k : Nat) (c : Cmd) (w : HWin), Starts s k 0x53 c → par c 0 2 ≤ 255 → hwin s (par c 0 2) = some w →
      let b := begun s c
      let used := (List.range 256).any (fun q => qEnabled s q
          && (overlaps (sqBase s q) (64 * ringLen s q) w.dev w.size || overlaps (cqBase s q) (32 * ringLen s q) w.dev w.size))
        || overlaps (swapArea s).1 (swapArea s).2 w.dev w.size
      (used = true → Becomes s (.hwinUnmap k) (finishPost b c 0x0140 0)) ∧
      (used = false →
        let t := fset b .HP_HWIN [par c 0 2] Fld.HP_HWIN_V 0
        Becomes s (.hwinUnmap k) (unmapDone { t with host := { t.host with unmaps := t.host.unmaps ++ [(par c 0 2, c.id)] } }))))

/-! ### Synur -/

/-- R298–R300, R337: what a device does with the link-local and the membership packets it takes, and with FENCE.
R298, R299, R300, R285: the timers of a fabric: SYNC_REQ, ALIVE, a silent member, the end of a join, the hot spares.
(Model: payload layouts and times are log entries 45, 46, 47, 48, 63, 145, 160 and 163.) -/
def Obligations.FabricControlPackets : Prop :=
  (∀ (s : State) (p : Nat) (x : Pkt) (u : State),
    (TakesPkt s 0x18 p x u → Becomes s .syncReq (linkPkt (setPort u p { synPort u p with child := some s.tick }) p 0x19 true true 0
      (leBytes 8 (synPort u p).syncAt))) ∧
    (TakesPkt s 0x19 p x u →
      ((p ≠ parentPort s ∨ s.syn.parented = false) → exec .syncRsp s = .next { u with pending := s.pending }) ∧
      (p = parentPort s → s.syn.parented = true →
        let off : Int := (((leNat (x.data.take 8) : Int) - s.syn.syncT1)
          - (((synPort u p).syncAt : Int) - leNat ((x.data.drop 8).take 8))) / 2
        let steps := mstate s = 1 ∧ 40000 < off.natAbs
        (mstate s ≠ 1 ∨ s.syn.mapped = false) → ∃ t, exec .syncRsp s = .next t ∧
          (steps → t.tick = ((s.tick : Int) + off / 4).toNat ∧ t.syn.slew = 0) ∧
          (¬ steps → t.tick = s.tick ∧ t.syn.slew = off ∧ t.log = s.log) ∧
          fget t .SYN_TIME [] Fld.SYN_TIME_OFFSET = wrap 32 off ∧
          t.syn.goodSync = (if off.natAbs ≤ 20 then s.syn.goodSync + 1 else 0) ∧
          (10 ≤ t.syn.goodSync → fget t .SYN_TIME [] Fld.SYN_TIME_LOCKED = 1) ∧
          t.mem = s.mem ∧ RegsOnly s t [RegId.SYN_TIME.off []])) ∧
    (TakesPkt s 0x1A p x u → Becomes s .hello (hello p x u)) ∧
    (TakesPkt s 0x1B p x u → x.src ≠ ownId s →
      Becomes s .join (addMember x.src u) ∧ x.src ∈ (addMember x.src u).syn.members) ∧
    (TakesPkt s 0x1B p x u → x.src = ownId s → mstate s = 1 →
      Becomes s .join (logEv (setMstate u 3) 0x20 0 0 0 0 0 (5 * 2 ^ 48 + x.src))) ∧
    (TakesPkt s 0x1C p x u → Becomes s .leave (dropMember x.src u) ∧ x.src ∉ (dropMember x.src u).syn.members) ∧
    (TakesPkt s 0x1D p x u → x.src ∈ s.syn.members → ∃ t, exec .alive s = .next t ∧
      t = { u with pending := s.pending, syn := { u.syn with heard := tput x.src s.tick u.syn.heard } }) ∧
    (TakesPkt s 0x1E p x u →
      let job := leNat (x.data.take 2)
      let org := leNat ((x.data.drop 2).take 2)
      let num := leNat ((x.data.drop 4).take 4)
      ((org, num) ∈ s.rcv.seen → exec .fence s = .next { u with pending := s.pending }) ∧
      ((org, num) ∉ s.rcv.seen → job ≠ 0 → (∃ q < 256, queueJob s q = job) →
        let v := { u with rcv := { u.rcv with seen := u.rcv.seen ++ [(org, num)] } }
        Becomes s .fence (raiseFault v job [] (mkRep v 0x0A 6 4 p 0 job (org * 2 ^ 32 + num)) false))) ∧
    (TakesPkt s 0x1F p x u → mstate s = 1 → s.syn.mapped = false → (s.syn.mapFrom = none ∨ s.syn.mapFrom = some p) →
      let ids := (List.range (8 * x.data.length)).filterMap (fun i =>
        if tbit (lget 0 x.data (i / 8)).toNat (i % 8) then some (8 * x.off + i) else none)
      let v := ids.foldl (fun s i => addMember i s) (modSyn u (fun y => { y with mapFrom := some p }))
      let m := modSyn v (fun y => { y with mapped := true })
      (x.last = false → Becomes s .memberMap v) ∧
      (x.last = true → fbit v .SYN_CFG [] Fld.SYN_CFG_TIME_MASTER = true → Becomes s .memberMap (sendJoin m)) ∧
      (x.last = true → fbit v .SYN_CFG [] Fld.SYN_CFG_TIME_MASTER = false → Becomes s .memberMap (syncPeriod m)) ∧
      ∀ i, i ∈ v.syn.members ↔ i ∈ s.syn.members ∨ i ∈ ids)) ∧
  (∀ (s : State), Live s →
    let b := bare s
    (s.syn.parented = true → portState s (parentPort s) = 2 →
      Becomes s .syncPeriod (linkPkt b (parentPort s) 0x18 true true 0 [])) ∧
    (∀ x : Pkt, let a := (stampSync s x).2.syn.syncT1
      x.typ = 0x18 → 4 * s.tick ≤ a ∧ a < 4 * s.tick + 4 ∧ (stampSync s x).1.data = leBytes 8 a ++ x.data.drop 8) ∧
    (∀ (p : Nat) (x : Pkt), (x.typ = 0x18 ∨ x.typ = 0x19) →
      let t := syncArrive p x s
      4 * s.tick ≤ (synPort t p).syncAt ∧ (synPort t p).syncAt < 4 * s.tick + 4) ∧
    (isMember s = true → Becomes s .alivePeriod (synBroadcast b 0x1D 0 [])) ∧
    (isMember s = false → exec .alivePeriod s = .next s) ∧
    (∀ id, id ∈ s.syn.members → id ≠ ownId s → tget 0 s.syn.heard id + 500000000 ≤ s.tick →
      Becomes s (.memberTimeout id) (logEv (dropMember id b) 0x20 0 0 0 0 0 (6 * 2 ^ 48 + id % 65536)) ∧
      id ∉ (dropMember id b).syn.members) ∧
    (∀ k, s.syn.joinTick = some k → mstate s = 1 → k + 10000000 ≤ s.tick →
      let u := addMember (ownId s) (setMstate (modSyn b (fun y => { y with joinTick := none })) 2)
      Becomes s .joinSettle (foldUp 16 (fun s p => if portState s p = 2 && (synPort s p).strat.isSome then sendMap s p else s) u) ∧
      isMember u = true ∧ ownId s ∈ u.syn.members) ∧
    (s.syn.joinTick = none → exec .joinSettle s = .next s) ∧
    (s.syn.reserve = true → s.syn.members.length ≤ 960 →
      Becomes s .spareRelease (foldUp 16 (fun s p =>
        if !(spareHeld s p) then s
        else if portState s p = 2 then propose p 4 (spareLane s p) s
        else dropSpare s p) (modSyn b (fun y => { y with reserve := false }))) ∧
      ((∀ p < 16, spareHeld s p = true → portState s p ≠ 2) → ∃ t, exec .spareRelease s = .next t ∧
        t = { s with regs := t.regs, syn := { s.syn with reserve := false } } ∧
        (∀ p < 16, spareHeld t p = false ∧ portLanes t p = portLanes s p) ∧
        RegsOnly s t ((List.range 16).map (fun p => RegId.SYN_PORT_STAT.off [p])))) ∧
    ((s.syn.reserve = false ∨ 960 < s.syn.members.length) → exec .spareRelease s = .next s))

/-- R296, R303–R305, R307: how a device serves the window and register packets it takes and the answers to its own
requests.
R302, R306: a window opens with the next generation, closes once no burst it accepted is left, and tears a burst.
(Model: log entries 44, 45, 50, 51, 54 and 160.) -/
def Obligations.FabricWindowPackets : Prop :=
  (∀ (s : State) (p : Nat) (x : Pkt) (u : State),
    (∀ v, TakesPkt s 1 p x u → winBurst p x u = some v → Becomes s .winWrite v) ∧
    (∀ typ v, 5 ≤ typ → typ ≤ 13 → TakesPkt s typ p x u → winBurst p x u = some v → Becomes s .winReduce v) ∧
    (∀ (i : Instr) (typ : Nat), (i = .winWrite ∧ typ = 1) ∨ (i = .winReduce ∧ 5 ≤ typ ∧ typ ≤ 13) → TakesPkt s typ p x u →
      x.first = true →
      let st := winCheck u x (if x.full then (maskRuns x).foldl (fun m r => max m (r.1 + r.2.length)) 0 else x.data.length) true
      let answer := fun (v : State) (st n : Nat) =>
        let z := setBurst v ⟨x.src, x.tag, x.win, st, n, p⟩ (!x.last)
        winCloseDone x.win (if x.last then respond x 0x04 true true x.off (leBytes 2 st ++ leBytes 4 n) z else z)
      (st ≠ 0 → Becomes s i (answer (countRej x.win st u) st 0)) ∧
      (∀ v, st = 0 → applyFlit x u = (0, some v) →
        Becomes s i (answer v 0 1)) ∧
      (st = 0 → typ = 1 → x.full = false →
        let w := accWrite u (winAgent x.job) ((tget (0, 0) u.syn.wins x.win).1 + x.off) x.data
        w.1 = 0 → Becomes s i (answer w.2 0 1))) ∧
    (TakesPkt s 2 p x u →
      let n := leNat (x.data.take 4)
      let st := if n = 0 ∨ n % 16 ≠ 0 ∨ 4096 < n then 0x0402 else winCheck u x n true
      let v := countRej x.win st u
      let r := accRead v (winAgent x.job) ((tget (0, 0) v.syn.wins x.win).1 + x.off) n
      (st ≠ 0 → Becomes s .winRead (respond x 0x03 true true x.off (leBytes 2 st) v)) ∧
      (st = 0 → r.st = 0 → n ≤ 256 → Becomes s .winRead (respond x 0x03 true true x.off
        (r.bytes.take 256 ++ List.replicate (256 - (r.bytes.take 256).length) 0) r.s))) ∧
    (TakesPkt s 3 p x u →
      (sentOf s x true = none → exec .winReadData s = .next { u with pending := s.pending }) ∧
      (∀ y, sentOf s x true = some y → x.full = false → Becomes s .winReadData (sentDone y (leNat (x.data.take 2)) [] u)) ∧
      (∀ y, sentOf s x true = some y → x.full = true → y.skip + y.len ≤ (y.data ++ x.data).length →
        Becomes s .winReadData (sentDone y 0 (y.data ++ x.data) u))) ∧
    (TakesPkt s 4 p x u → ∀ y, sentOf s x false = some y →
      Becomes s .winWriteDone (sentDone y (leNat (x.data.take 2)) [] u)) ∧
    (TakesPkt s 0x0E p x u → ∀ y,
      let h : Pkt := ⟨leNat (x.data.take 16), 0, []⟩
      s.syn.sent.find? (fun y => y.dst == h.dst && y.tag == h.tag && y.read == (h.typ == 2)) = some y →
      ((h.first = true ∨ h.typ = 2) → Becomes s .unreach (sentDone y 0x0401 [] u)) ∧
      (h.first = false → h.typ ≠ 2 → Becomes s .unreach (flitLoss p 2 h (sentDone y 0x0401 [] u)))) ∧
    (TakesPkt s 0x10 p x u → ratioBad s = none →
      (rview s = none → Becomes s .regWr (regReply x 0x0701 u)) ∧
      (∀ src, rview s = some src →
        Becomes s .regWr (busWrite src (leNat x.data % 2 ^ 26 / 8 * 8) 0xFF (leNat ((x.data.drop 8).take 8)) u))) ∧
    (TakesPkt s 0x11 p x u → ratioBad s = none →
      (rview s = none → Becomes s .regRd (regReply x 0x0701 u)) ∧
      (∀ src, rview s = some src →
        let r := busRead src (leNat x.data % 2 ^ 26 / 8 * 8) 0xFF u
        Becomes s .regRd (regReply x r.1.2 r.2))) ∧
    (TakesPkt s 0x12 p x u →
      exec .regData s = .next (emit { u with pending := s.pending } (.data x.tag 0 (leNat ((x.data.drop 8).take 8)) [])))) ∧
  (∀ (s : State) (k : Nat) (c : Cmd),
    let i := par c 0 2
    let base := par c 8 8
    let size := par c 16 8
    let g := if winGen s i = 4095 then 1 else winGen s i + 1
    let b := begun s c
    (Starts s k 0x50 c → i ≤ 4095 → winState s i = 0 → base % 4096 = 0 → size % 4096 = 0 → size ≠ 0 → size ≤ 2 ^ 34 →
      mapped s base size = true → base + size ≤ spBase → 1 ≤ par c 4 1 → par c 4 1 ≤ 7 →
      let t := rput b .WIN_IN_A [i] (2 ^ 62 + g * 2 ^ 48 + cmdJob b c * 2 ^ 32 + par c 2 2 * 2 ^ 16 + par c 4 1)
      Becomes s (.winOpen k) (finishPost { t with syn := { t.syn with wins := tput i (base, size) t.syn.wins } } c 0 g) ∧
      winState t i = 1 ∧ winGen t i = g ∧ winA t i Fld.WIN_IN_A_ACCESS = par c 4 1 ∧ winA t i Fld.WIN_IN_A_PEER = par c 2 2) ∧
    (Starts s k 0x50 c → i ≤ 4095 → winState s i ≠ 0 → Becomes s (.winOpen k) (finishPost b c 0x0140 0)) ∧
    (Starts s k 0x51 c → i ≤ 4095 → winState s i = 1 →
      let t := fset b .WIN_IN_A [i] Fld.WIN_IN_A_STATE 2
      let u := { t with syn := { t.syn with closing := t.syn.closing ++ [(i, c.id)] } }
      Becomes s (.winClose k) (winCloseDone i u) ∧
      ((∃ y ∈ s.syn.bursts, y.win = i ∧ y.stat = 0) → Becomes s (.winClose k) u) ∧ winState t i = 2) ∧
    (Starts s k 0x51 c → i ≤ 4095 → winState s i ≠ 1 → Becomes s (.winClose k) (finishPost b c 0x0140 0)) ∧
    (∀ (w : Fin 4096) (y : Burst), Live s → s.syn.bursts.find? (fun y => y.win == w.val && y.stat == 0) = some y →
      let t := finc (setBurst (bare s) y false) .WIN_IN_B [w.val] Fld.WIN_IN_B_TORN 1
      let job := winA s w Fld.WIN_IN_A_JOB
      Becomes s (.burstTorn w) (winCloseDone w (raiseFault t job [] (mkRep t 0x0B 6 6 w 0 job (y.src * 2 ^ 32 + winGen s w))))))

/-- R284–R286, R289–R292, R296, R297: a port receives a flit, sends an IDLE flit, loses a lane, retrains, comes up, fails, ages
a flit and ends its hold. R32, R395: a port without a clock does none of what its own logic does.
(Model: log entries 49, 63, 146, 159, 160 and 178.) -/
def Obligations.FabricPortEvents : Prop :=
  ∀ (s : State) (p : Fin 16), Live s →
    let b := bare s
    let q := synPort s p
    let on : Prop := noClock s (2084 + p.val) = false
    (¬ on → (∀ f, exec (.flitReceive p f) s = .next s) ∧ exec (.idleFlitSend p) s = .next s ∧ exec (.portRetrain p) s = .next s ∧
      (∀ l, exec (.laneFail p l) s = .next s) ∧ ∀ lanes fresh, exec (.portUp p lanes fresh) s = .next s) ∧
    (∀ f : Wire, portState s p = 2 → on →
      let d := decodeFlit (popCount 8 (portLanes s p)) f
      let x := d.pkt
      let u := laneErrs p d.corr d.unc (setPort b p { q with rxTick := s.tick })
      let w := laneOpRx p (bits d.ctl 55 53) (bits d.ctl 58 56) (takeCtl p d.ctl u)
      let v := pump p ((synPort w p).wait.length + 1) w
      let y := synPort v p
      let z := setPort v p { y with rxSeq := (y.rxSeq + 1) % 4096 }
      (d.bad = true → Becomes s (.flitReceive p f) (sendIdle u p true 0 0)) ∧
      (d.bad = false → (tbit d.ctl 26 = true ∨ portState v p ≠ 2) → Becomes s (.flitReceive p f) v) ∧
      (d.bad = false → tbit d.ctl 26 = false → portState v p = 2 →
        (d.ctl % 4096 ≠ y.rxSeq → Becomes s (.flitReceive p f) (sendIdle v p true 0 0)) ∧
        (d.ctl % 4096 = y.rxSeq → f.torn = false → Becomes s (.flitReceive p f) (routeRx p x (syncArrive p x z))) ∧
        (d.ctl % 4096 = y.rxSeq → f.torn = true →
          Becomes s (.flitReceive p f) (flitLoss p 1 x (giveCredit z ⟨x, some (p.val, x.vcl)⟩))))) ∧
    (portState s p = 2 → on → q.ops = [] → Becomes s (.idleFlitSend p) (sendIdle b p false 0 0)) ∧
    (∀ o r, portState s p = 2 → on → q.ops = o :: r → Becomes s (.idleFlitSend p) (sendIdle b p false o.1 o.2)) ∧
    (mustRetrain s p = false → exec (.portRetrain p) s = .next s) ∧
    (portState s p = 2 → on → mustRetrain s p = true → ∃ t, exec (.portRetrain p) s = .next t ∧ portState t p = 3 ∧
      fget t .SYN_STAT [] Fld.SYN_STAT_PORTS_UP =
        (if tbit (fget s .SYN_STAT [] Fld.SYN_STAT_PORTS_UP) p then fget s .SYN_STAT [] Fld.SYN_STAT_PORTS_UP - 2 ^ p.val
         else fget s .SYN_STAT [] Fld.SYN_STAT_PORTS_UP) ∧
      fget t .SYN_PORT_CNT [p.val] Fld.SYN_PORT_CNT_RETRAINS = min (2 ^ 16 - 1) (fget s .SYN_PORT_CNT [p.val] Fld.SYN_PORT_CNT_RETRAINS + 1) ∧
      t = { s with regs := t.regs } ∧
      RegsOnly s t [RegId.SYN_STAT.off [], RegId.SYN_PORT_STAT.off [p.val], RegId.SYN_PORT_CNT.off [p.val]]) ∧
    (∀ l : Fin 8, tbit q.good l = true → portState s p = 2 → on →
      let u := setPort b p { q with good := q.good - 2 ^ l.val, laneErr := q.laneErr.filter (fun e => e.1 != l.val) }
      let runs := tbit (portLanes s p) l = true
      (spareHeld s p = true → spareLane s p = l → Becomes s (.laneFail p l) (propose p 3 l u)) ∧
      (spareHeld s p = true → spareLane s p ≠ l → runs → Becomes s (.laneFail p l) (propose p 1 l u)) ∧
      (spareHeld s p = false → runs → 4 ≤ popCount 8 (sansLane (portLanes s p) l) →
        Becomes s (.laneFail p l) (propose p 3 l u)) ∧
      (spareHeld s p = false → runs → popCount 8 (sansLane (portLanes s p) l) < 4 →
        Becomes s (.laneFail p l) (leaveUp p u) ∧ portState (leaveUp p u) p = 3)) ∧
    (∀ (l : Fin 8) (o : Nat × Nat), q.ops.find? (fun o => o.2 == l.val) = some o →
      laneOpRx p 2 l s = applyLane p o.1 l (setPort s p { q with ops := q.ops.filter (fun o => o.2 != l.val) })) ∧
    (∀ l : Fin 8, tbit (portLanes s p) l = true → spareHeld s p = false →
      let t := applyLane p 3 l s
      portLanes t p = portLanes s p - 2 ^ l.val ∧ (synPort t p).good = sansLane q.good l ∧
      fget t .SYN_PORT_CNT [p.val] Fld.SYN_PORT_CNT_LANE_EVENTS =
        min (2 ^ (Fld.SYN_PORT_CNT_LANE_EVENTS.hi + 1 - Fld.SYN_PORT_CNT_LANE_EVENTS.lo) - 1)
          (fget s .SYN_PORT_CNT [p.val] Fld.SYN_PORT_CNT_LANE_EVENTS + 1) ∧
      RegsOnly s t [RegId.SYN_PORT_STAT.off [p.val], RegId.SYN_PORT_CNT.off [p.val]]) ∧
    (∀ (lanes : Nat) (fresh : Bool), (portState s p = 1 ∨ portState s p = 3) → on → 4 ≤ popCount 8 (lanes % 256) →
      Becomes s (.portUp p lanes fresh) (portUp p lanes fresh b) ∧
      (q.retry = [] → portState (portUp p lanes fresh b) p = 2 ∧ (synPort (portUp p lanes fresh b) p).good = lanes % 256)) ∧
    (portState s p = 3 →
      let u := setPort (setPortState b p 4) p { q with retry := [], wait := [], hold := q.hold ++ q.wait, holding := true,
                                                       child := none, strat := none }
      Becomes s (.portFailed p) (q.retry.foldl (fun s r => flitLoss p 0 r.2 s) (chooseParent u)) ∧ portState u p = 4) ∧
    (∀ lanes, portState s p = 4 → on → 4 ≤ popCount 8 (lanes % 256) →
      Becomes s (.portTrainAttempt p true lanes) (portUp p lanes true (fset b .SYN_PORT_STAT [p.val] Fld.SYN_PORT_STAT_STATE 1)) ∧
      exec (.portTrainAttempt p false lanes) s = .next s) ∧
    (∀ w r, q.wait = w :: r → Becomes s (.flitAged ⟨p, false⟩)
      (flitLoss p 3 w.pkt (finc (giveCredit (setPort b p { q with wait := r }) w) .SYN_CNT [] Fld.SYN_CNT_AGED 1))) ∧
    (∀ e, s.syn.inbox.find? (fun e => e.1 == p.val) = some e → Becomes s (.flitAged ⟨p, true⟩)
      (flitLoss p 3 e.2 (finc (giveCredit (modSyn b (fun y => { y with inbox := y.inbox.erase e }))
        ⟨e.2, some (p.val, e.2.vcl)⟩) .SYN_CNT [] Fld.SYN_CNT_AGED 1))) ∧
    Becomes s (.pathHoldExpire p)
      (q.hold.foldl (fun s w => if w.pkt.dst = 0xFFFF then synFlood (giveCredit s w) (some p.val) w.pkt else routeOn p w s)
        (setPort b p { q with hold := [], holding := false }))

/-! ### Collectives -/

/-- R323–R333: GROUP_SET defines a group; a collective command is refused with its failing check's status or joins its group's
queue; its READY, COUNTS, DONE and data packets reach it; and it times out.
(Model: control payloads are log entry 23, the time-out is log entry 63.) -/
def Obligations.CollectiveCommands : Prop :=
  ∀ (s : State) (k : Nat) (c : Cmd),
    let b := begun s c
    (Starts s k 0x78 c →
      let n := par c 2 2
      let r := accRead b { agentOf b c with reader := 5 } (par c 8 8) (2 * n)
      let ms := (List.range n).map (fun i => leNat ((r.bytes.drop (2 * i)).take 2))
      par c 0 2 ≤ 4095 → 1 ≤ n → n ≤ 32768 → (∀ x ∈ s.colls, x.group ≠ par c 0 2) → r.st = 0 → ms.Nodup → ownId r.s ∈ ms →
      (∀ m ∈ ms, m < 0x8000) →
      Becomes s (.groupSet k) (finish { r.s with groups := tput (par c 0 2) ⟨cmdJob b c, ms, 0⟩ r.s.groups } c.id 0 0)) ∧
    (∀ (i : Instr) (opc : Nat),
      (i, opc) ∈ [(.allreduce k, 0x70), (.allgather k, 0x71), (.reduceScatter k, 0x72), (.broadcast k, 0x73), (.alltoall k, 0x74),
        (.permute k, 0x75), (.expertDispatch k, 0x76), (.expertCombine k, 0x77)] →
      Starts s k opc c → collOf s c.id = none →
      let x : Coll :=
        { cmd := c.id, group := par c 0 2, opc := opc, red := par c 2 1, hint := par c 3 1, src := par c 8 8, dst := par c 16 8,
          len := par c 24 8, plan := par c 32 8, seq := 0, order := [], begun := false, base := false, ready := [], sent := [],
          rx := [], applied := [], counts := [], dones := [], doneOut := false, recs := [], rows := [], wrote := false, span := [], laps := false }
      let r := collCheck x (cmdJob b c) b
      (r.1 ≠ 0 → Becomes s i (finish (finc r.2.2 .SYN_COLL_STAT [] Fld.SYN_COLL_STAT_FAILED 1) c.id r.1 0)) ∧
      (r.1 = 0 → Becomes s i (collAll { r.2.2 with colls := r.2.2.colls ++ [r.2.1] })) ∧
      (groupOf s x.group = none → Finishes s i k 0x0150 0 (fun t =>
        fget t .SYN_COLL_STAT [] Fld.SYN_COLL_STAT_FAILED = min (2 ^ 16 - 1) (fget s .SYN_COLL_STAT [] Fld.SYN_COLL_STAT_FAILED + 1)))) ∧
    (∀ (p : Nat) (x : Pkt) (r : List (Nat × Pkt)), Live s → s.syn.inbox = (p, x) :: r → x.typ = 0x13 →
      let u : State := giveCredit { bare s with syn := { s.syn with inbox := r } } ⟨x, some (p, x.vcl)⟩
      let kind := (lget 0 x.data 0).toNat
      (x.full = false → kind = 1 → collFor s x = none →
        exec .collReady s = .next { u with pending := s.pending, readies := s.readies ++
          [⟨x.win, x.src, bytesAt x 4 4, bytesAt x 1 1, bytesAt x 8 8, bytesAt x 16 4⟩] }) ∧
      (∀ g, collFor s x = some g → let rank := rankOf u (collMembers u g) x.src
        (x.full = false → kind = 1 → g.seq = bytesAt x 4 4 →
          readyFits u g ⟨x.win, x.src, bytesAt x 4 4, bytesAt x 1 1, bytesAt x 8 8, bytesAt x 16 4⟩ = true →
          Becomes s .collReady (collAll (setColl u { g with ready := g.ready ++ [rank] }))) ∧
        (x.full = false → kind = 2 →
          Becomes s .collCounts (collAll (setColl u (putCount g rank (bytesAt x 1 3) (bytesAt x 4 4) [bytesAt x 8 8, bytesAt x 16 8])))) ∧
        (x.full = false → kind = 3 → Becomes s .collDone (collAll (setColl u { g with dones := g.dones ++ [rank] }))) ∧
        (x.full = true → x.off = (tget [] g.rx (txKey (stepOf g x.tag) rank)).length →
          let key := txKey (stepOf g x.tag) rank
          Becomes s .collData (collAll (setColl u { g with rx := tput key (tget [] g.rx key ++ x.data) g.rx })))) ∧
      (x.full = true → collFor s x = none → exec .collData s = .next { u with pending := s.pending })) ∧
    (∀ (g : Nat) (x : Coll), Live s → s.colls.find? (fun x => x.group == g && x.begun) = some x →
      Becomes s (.collTimeout g) (collAll (collFail x true (bare s))))

/-- R327, R330: the segments of an ALLREDUCE ring start at multiples of 16 bytes and cover SRC exactly once; and a holder keeps
of an expert's rows, in rank order, as many as its capacity allows. -/
def Obligations.CollectivePlansCoverTheirData : Prop :=
  (∀ (c : Coll) (p : Nat), c.opc = 0x70 → 0 < p → c.len % 16 = 0 →
    (∀ i < p, (ringSeg c p i).1 % 16 = 0 ∧ (ringSeg c p i).1 + (ringSeg c p i).2 ≤ c.len) ∧
    ∀ o < c.len, ∃ i < p, ((ringSeg c p i).1 ≤ o ∧ o < (ringSeg c p i).1 + (ringSeg c p i).2) ∧
      ∀ j < p, ((ringSeg c p j).1 ≤ o ∧ o < (ringSeg c p j).1 + (ringSeg c p j).2) → j = i) ∧
  (∀ (c : Coll) (r : Route) (p slot : Nat),
    let sent := fun j => match countOf c j 3 slot with | some v => lget 0 v 0 | none => 0
    (keptRows c r p slot).length = p ∧
    (keptRows c r p slot).sum = min r.cap (((List.range p).map sent).sum) ∧
    ∀ j < p, lget 0 (keptRows c r p slot) j = min (sent j) (r.cap - ((List.range j).map sent).sum))

/-! ### Clocks -/

/-- R390–R393, R396: CLK_SYNC queues a change or is refused, and at its tick the class runs at the new frequency; while an
island has not switched there is no reply, and in holdover the change is cancelled.
R394–R397, R400–R403: an island hangs, a loop loses lock, the reference goes and comes back, management clocks change, and a
margin monitor measures and is calibrated.
(Model: log entries 95, 101–104, 157, 178, 179 and 181.) -/
def Obligations.ClockChanges : Prop :=
  (∀ (s : State) (k : Nat) (c : Cmd),
    let at_ := par c 0 8
    let cls := par c 8 1
    let mhz := par c 10 2
    let waiting := (s.clk.pend.filter (fun x => x.cls == cls)).length
    (Starts s k 0x81 c → cls ≤ 3 → mhzOk s cls mhz = true → waiting < 4 → s.clk.hold = none → (at_ = 0 ∨ s.tick + 100000 ≤ at_) →
      let u := { s with clk := { s.clk with
        pend := s.clk.pend ++ [⟨c.id, cls, mhz, if at_ = 0 then s.tick + 100000 else at_, 0⟩] } }
      ∃ t, exec (.clkSync k) s = .next t ∧ t.clk = (setIdle cls u).clk ∧ t.clk.pend = u.clk.pend ∧
      (∃ c', cmdOf t k = some c' ∧ c'.status = none) ∧ t.regs = s.regs ∧ t.mem = s.mem ∧ t.log = s.log) ∧
    (Starts s k 0x81 c → (3 < cls ∨ mhzOk s cls mhz = false ∨ 4 ≤ waiting ∨ s.clk.hold ≠ none) →
      Finishes s (.clkSync k) k 0x0160 0 (fun t => t.clk = s.clk ∧ t.regs = s.regs)) ∧
    (Starts s k 0x81 c → cls ≤ 3 → mhzOk s cls mhz = true → waiting < 4 → s.clk.hold = none → at_ ≠ 0 → at_ < s.tick + 100000 →
      Finishes s (.clkSync k) k 0x0504 0 (fun t => t.clk = s.clk ∧ t.regs = s.regs)) ∧
    (∀ (f : Fin 4) (x : ClkChange), Live s → firstChange f s.clk.pend = some x.tick →
      s.clk.pend.filter (fun y => y.cls == f.val && y.tick == x.tick) = [x] → x.mhz < 2 ^ 16 →
      let at_ := { s with tick := max s.tick x.tick }
      (s.clk.hold = none → (∃ i ∈ islOfClass s f, switches at_ f i = false) → ∃ t, exec (.clockSwitch f) s = .next t ∧
        classMhz t f = x.mhz ∧ (∀ i ∈ islOfClass s f, switches at_ f i = false → noClock t i = true ∧ islMhz t i = 0) ∧
        (∀ c, cmdOf s x.cmd = some c → cmdOf t x.cmd = some c)) ∧
      (s.clk.hold = none → (∀ i ∈ islOfClass s f, switches at_ f i = true) → s.clk.swing.all (fun y => y.cls != f.val) = true →
        s.clk.stuck.all (fun e => islClass e.1 != some f.val) = true → ∃ t, exec (.clockSwitch f) s = .next t ∧ classMhz t f = x.mhz ∧
        t.tick = max s.tick x.tick ∧ t.clk.pend = s.clk.pend.filter (fun y => !(y.cls == f.val && y.tick == x.tick)) ∧
        t.log.waiting.length = s.log.waiting.length + 1 ∧ t.mem = s.mem ∧
        (∀ c, cmdOf s x.cmd = some c → c.status = none → ∃ c', cmdOf t x.cmd = some c' ∧ c'.status = some 0 ∧
          c'.detail = (islOfClass t f).length * 2 ^ 32 + x.mhz)) ∧
      (s.clk.hold ≠ none → ∃ t, exec (.clockSwitch f) s = .next t ∧ t.regs = s.regs ∧ t.log = s.log ∧ t.mem = s.mem ∧
        (∀ c, cmdOf s x.cmd = some c → c.status = none → ∃ c', cmdOf t x.cmd = some c' ∧ c'.status = some 0x0504)))) ∧
  (∀ (s : State), Live s →
    let b := bare s
    (∀ i, i < 2107 → i ∉ s.clk.hung →
      let u := { b with clk := { b.clk with hung := b.clk.hung ++ [i] } }
      let mhz := match islClass i with | some k => classMhz s k | none => s.clk.core
      ((tfind s.clk.stuck i).isSome = true →
        Becomes s (.switchHung i) (raiseJobs u (islJobs u i) (islRes i) (mkRep u 0x73 7 0 i 0 0 (mhz % 65536)))) ∧
      (tfind s.clk.stuck i = none → exec (.switchHung i) s = .next s)) ∧
    (∀ (g : Nat) (l : Fin 5),
      let is := loopIslands s g l
      let rep := mkRep b 0x71 7 0 0 0 0 (g % 256 * 16 + l.val % 4)
      let u := { b with clk := { b.clk with
        unlocked := (b.clk.unlocked ++ is).eraseDups,
        lost := b.clk.lost.filter (fun x => !(x.1 == g && x.2.1 == l.val)) ++ [(g, l.val, s.tick)] } }
      (is = [] → Becomes s (.pllUnlock g l) (sendRep u rep)) ∧
      (is ≠ [] → Becomes s (.pllUnlock g l) (raiseJobs u (is.flatMap (islJobs b)).eraseDups [] rep))) ∧
    (s.clk.hold = none → ∃ t, exec .refLoss s = .next t ∧ t = { s with regs := t.regs, clk := t.clk } ∧
      t.clk = { s.clk with hold := some s.tick, lossTold := false } ∧
      fget t .CLK_STAT [] Fld.CLK_STAT_REF_OK = 0 ∧ fget t .SYN_TIME [] Fld.SYN_TIME_LOCKED = 0 ∧
      RegsOnly s t [RegId.CLK_STAT.off [], RegId.SYN_TIME.off []]) ∧
    (s.clk.hold ≠ none → s.clk.lossTold = false →
      let u := emit { b with clk := { b.clk with lossTold := true } } (.pin "ALERT_N" 0)
      Becomes s .holdoverTimeout (raiseJobs u (activeJobs u) [] (refRep u 0))) ∧
    (s.clk.hold ≠ none → (∀ x ∈ s.clk.pend, s.tick < x.tick) → ∃ t, exec .refReturn s = .next t ∧
      t.clk = { s.clk with hold := none, lossTold := false } ∧ fget t .CLK_STAT [] Fld.CLK_STAT_REF_OK = 1 ∧
      t.log.waiting.length = s.log.waiting.length + 1 ∧ t.mem = s.mem ∧ t.cmds = s.cmds ∧
      (alertOn s = true → alertOn { s with clk := t.clk } = false → t.out = s.out ++ [.pin "ALERT_N" 1]) ∧
      RegsOnly s t [RegId.CLK_STAT.off []]) ∧
    (s.clk.hold ≠ none → exec .holdoverLimit s = .next { s with boot := { s.boot with life := .held } }) ∧
    (s.clk.hold = none → exec .holdoverLimit s = .next s) ∧
    (s.clk.mgmt = [] → exec .mgmtClockChange s = .next s) ∧
    (∀ m r rest, s.clk.mgmt = (m, r) :: rest → ∃ t, exec .mgmtClockChange s = .next t ∧ t = { s with clk := t.clk } ∧
      t.clk = { s.clk with mgmt := rest, core := m, rbus := r, src := t.clk.src, loops := t.clk.loops } ∧
      t.clk.src.length = s.clk.src.length ∧ (∀ k, k ≠ 4 → k ≠ 5 → lget 0 t.clk.src k = lget 0 s.clk.src k) ∧
      (s.clk.src.length = 6 → lget 0 t.clk.src 4 = 1 - lget 0 s.clk.src 4 % 2 ∧ lget 0 t.clk.src 5 = 1 - lget 0 s.clk.src 5 % 2) ∧
      (rest = [] → t.clk.loops = s.clk.loops)) ∧
    (∀ (i : Nat) (slack : Int), i < 1024 → islGated s i = false → noClock s i = false → i ∉ s.clk.low →
      let trim := trimOf s i
      let cal := (tget [] s.clk.cal i).contains (classMhz s 0)
      0 ≤ slack → ∃ t, exec (.marginMeasure i slack) s = .next t ∧ t = { s with regs := t.regs } ∧
        fget t .CLK_ISL_STAT [i] Fld.CLK_ISL_STAT_TRIM = wrap 8 (if cal = false then 0 else if slack < 30 then min 10 (trim + 1)
          else if 60 < slack then max (-10) (trim - 1) else trim) ∧
        RegsOnly s t [RegId.CLK_ISL_STAT.off [i]]) ∧
    (∀ i, calReady s i = false → exec (.marginCalibrate i) s = .next s) ∧
    (∀ i, i < 1024 → islGated s i = false → noClock s i = false → calReady s i = true →
      (tget [] s.clk.cal i).contains (classMhz s 0) = false → exec (.marginCalibrate i) s =
        .next { s with clk := { s.clk with cal := tput i (classMhz s 0 :: tget [] s.clk.cal i) s.clk.cal } }))

/-! ### Power and the governor -/

/-- R359, R360, R370, R417: at a millisecond boundary the envelope rises by no more than the slope in force, falls by no more
unless a hard bound takes it lower, and ends at or below every hard bound: input current, converters and heat.
(Model: the measurements are the command's operand, log entry 78.) -/
def Obligations.EnvelopeObeysItsSlopesAndBounds : Prop :=
  ∀ (s : State) (m : Measured), Live s → ∃ t, exec (.millisecondBoundary m) s = .next t ∧ (t.alive = true →
    t.tick = max s.tick (boundaryTick s) ∧
    t.pwr.env ≤ s.pwr.env + upEff t ∧
    t.pwr.env ≤ inputBound m.vin ∧ t.pwr.env ≤ ibcBound t ∧ (∀ h, heatBound t = some h → t.pwr.env ≤ h) ∧
    (s.pwr.env ≤ t.pwr.env + dnEff t ∨ t.pwr.env = inputBound m.vin ∨ t.pwr.env = ibcBound t ∨ heatBound t = some t.pwr.env) ∧
    t.pwr.demand = m.demand ∧ t.pwr.us = 0 ∧ fget t .PWR_IN [] Fld.PWR_IN_VIN = m.vin % 2 ^ 16 ∧ t.mem = s.mem ∧ t.clu = s.clu)

/-- R371, R378, R380: targets and ballast settings are taken, refused with the manual's status, kept until their tick, and
take effect at it.
(Model: targets of one tick are log entry 95.) -/
def Obligations.GovernorCommands : Prop :=
  ∀ (s : State) (k : Nat) (c : Cmd),
    let b := begun s c
    let t : Target := { cmd := c.id, tick := par c 0 8, watts := par c 8 4, up := par c 12 4, dn := par c 16 4 }
    let slopeOk := fun v top => v = 0 ∨ (50 ≤ v ∧ v ≤ 100000 ∧ v ≤ top)
    let fits := slopeOk t.up (fget s .HRD_SLOPE_CEIL [] Fld.HRD_SLOPE_CEIL_UP_CEIL) ∧
      slopeOk t.dn (fget s .HRD_SLOPE_CEIL [] Fld.HRD_SLOPE_CEIL_DN_CEIL) ∧ s.pwr.pend.length < 16
    let cool := fget s .THM_STAT [] Fld.THM_STAT_THROTTLED = 0 ∨ t.watts ≤ fget s .THM_STAT [] Fld.THM_STAT_LIMIT
    (Starts s k 0x80 c → ¬ fits → Finishes s (.hrdTarget k) k 0x0160 0 (fun u => u.pwr = s.pwr ∧ u.regs = s.regs)) ∧
    (Starts s k 0x80 c → fits → ceilingMw s < 1000 * t.watts →
      Finishes s (.hrdTarget k) k 0x0501 0 (fun u => u.pwr = s.pwr ∧ u.regs = s.regs)) ∧
    (Starts s k 0x80 c → fits → 1000 * t.watts ≤ ceilingMw s → ¬ cool →
      Finishes s (.hrdTarget k) k 0x0502 0 (fun u => u.pwr = s.pwr ∧ u.regs = s.regs)) ∧
    (Starts s k 0x80 c → fits → 1000 * t.watts ≤ ceilingMw s → cool → t.tick ≠ 0 → t.tick < s.tick →
      Finishes s (.hrdTarget k) k 0x0504 0 (fun u => u.pwr = s.pwr ∧ u.regs = s.regs)) ∧
    (Starts s k 0x80 c → fits → 1000 * t.watts ≤ ceilingMw s → cool → t.tick ≠ 0 → s.tick ≤ t.tick →
      ∃ u, exec (.hrdTarget k) s = .next u ∧ u.pwr = { s.pwr with pend := s.pwr.pend ++ [t] } ∧ u.regs = s.regs ∧ u.mem = s.mem) ∧
    (Starts s k 0x80 c → fits → 1000 * t.watts ≤ ceilingMw s → cool → t.tick = 0 →
      Becomes s (.hrdTarget k) (applyTarget { t with tick := s.tick } b) ∧
      (t.watts ≠ 0 → (applyTarget { t with tick := s.tick } b).pwr.tgt = some { t with tick := s.tick })) ∧
    (∀ x, Live s → s.pwr.pend.filter (fun y => y.tick == x.tick) = [x] → firstAt s.pwr.pend = some x.tick →
      let u : State := { bare s with pwr := { s.pwr with pend := s.pwr.pend.filter (fun y => y.tick != x.tick) }, tick := max s.tick x.tick }
      Becomes s .targetApply (applyTarget x u)) ∧
    (Starts s k 0x82 c →
      let floor := par c 0 4
      let hold := par c 4 4
      (ceilingMw s < 1000 * floor → Finishes s (.hrdBallast k) k 0x0501 0 (fun u => u.regs = s.regs ∧ u.pwr = s.pwr)) ∧
      (1000 * floor ≤ ceilingMw s → 60000 < hold → Finishes s (.hrdBallast k) k 0x0160 0 (fun u => u.regs = s.regs ∧ u.pwr = s.pwr)) ∧
      (1000 * floor ≤ ceilingMw s → floor < 2 ^ 16 → hold ≤ 60000 → Finishes s (.hrdBallast k) k 0 0 (fun u =>
        fget u .HRD_BALLAST [] Fld.HRD_BALLAST_FLOOR = floor ∧ fget u .HRD_BALLAST [] Fld.HRD_BALLAST_HOLD = hold ∧
        u.pwr = { s.pwr with holdLeft := if s.pwr.holdLeft = 0 then 0 else hold } ∧ RegsOnly s u [RegId.HRD_BALLAST.off []])))

/-- R359–R361, R365, R368, R369, R372, R373, R382–R384: a microsecond of load, the beacons and grants of ramp credit, an epoch,
phases and converters that fail, the input range, and the power snapshot.
(Model: log entries 93, 96, 97, 98, 99 and 186.) -/
def Obligations.PowerEvents : Prop :=
  ∀ (s : State), Live s →
    let b := bare s
    let k := epochNow s + 1
    (∀ load, ∃ t, exec (.envelopeStep load) s = .next t ∧
      let e := envNow { s with pwr := { s.pwr with us := min 1000 (s.pwr.us + 1) } }
      t.pwr.us = min 1000 (s.pwr.us + 1) ∧ t.pwr.env = s.pwr.env ∧ t.pwr.prev = s.pwr.prev ∧ t.mem = s.mem ∧ t.clu = s.clu ∧
      (e < load → t.pwr.boost = s.pwr.boost - (load - e) ∧ 1 ≤ t.pwr.gate ∧ t.pwr.gate ≤ 64 ∧ t.pwr.shunt = 0) ∧
      (load ≤ e → t.pwr.boost = s.pwr.boost + min (e - load) (boostCap - s.pwr.boost) ∧
        t.pwr.shunt = min (e - load - (boostCap - s.pwr.boost)) 1800000)) ∧
    (isMember s = false → exec .beaconSend s = .next s) ∧
    (isMember s = true →
      let w := beaconBytes b k
      let u := synBroadcast b 0x14 0 w.1
      let v : State := { u with pwr := { u.pwr with asked := decide (w.2.1 ≠ 0) || decide (w.2.2 ≠ 0) } }
      (isCoord s = false → Becomes s .beaconSend v) ∧
      (isCoord s = true → Becomes s .beaconSend
        (addBeacon ⟨ownId s, fget s .HRD_COORD [] Fld.HRD_COORD_PRIO, w.2.1, w.2.2⟩ v))) ∧
    (∀ p x u, TakesPkt s 0x14 p x u → isCoord s = true → leNat (x.data.take 5) = k →
      ¬ (s.tick / 10 ^ 7 = epochNow s ∧ 6000000 ≤ s.tick % 10 ^ 7) →
      exec .beacon s = .next { u with pending := s.pending, pwr := { s.pwr with
        beacons := s.pwr.beacons.filter (fun y => y.dev != x.src) ++
          [⟨x.src, (lget 0 x.data 5).toNat, leNat ((x.data.drop 12).take 2), leNat ((x.data.drop 14).take 2)⟩] } }) ∧
    (∀ p x u, TakesPkt s 0x15 p x u → epochNow s < leNat (x.data.take 5) →
      exec .grant s = .next { u with pending := s.pending, pwr := { s.pwr with
        grant := some (leNat (x.data.take 5), leNat ((x.data.drop 8).take 2), leNat ((x.data.drop 10).take 2)) } }) ∧
    (∀ y : Beacon, isCoord s = true → s.pwr.beacons = [y] → y.dev = ownId s → y.up ≠ 0 →
      exec .grantIssue s = .next { s with pwr := { s.pwr with
        beacons := [],
        grant := some (k, min y.up (fget s .HRD_FLEET [] Fld.HRD_FLEET_UP_W), min y.dn (fget s .HRD_FLEET [] Fld.HRD_FLEET_DN_W)) } }) ∧
    (isCoord s = false → exec .grantIssue s = .next s) ∧
    (∀ n u d, n = (if epochNow s < s.tick / 10 ^ 7 then s.tick / 10 ^ 7 else k) → n < 2 ^ 40 → u < 2 ^ 16 → d < 2 ^ 16 →
      s.pwr.grant = some (n, u, d) → ∃ t, exec .epochStart s = .next t ∧ epochNow t = n ∧ t.tick = max s.tick (n * 10 ^ 7) ∧
        fget t .HRD_GRANT [] Fld.HRD_GRANT_UP = u ∧ fget t .HRD_GRANT [] Fld.HRD_GRANT_DN = d ∧
        fget t .HRD_GRANT [] Fld.HRD_GRANT_MISSED = fget s .HRD_GRANT [] Fld.HRD_GRANT_MISSED ∧
        t.pwr.grant = none ∧ t.log = s.log ∧ RegsOnly s t [RegId.HRD_EPOCH.off [], RegId.HRD_GRANT.off []]) ∧
    (∀ (d : Nat) (ph : Fin 8), d < 1051 → ph.val < phaseCount d → domDark s d = false →
      tbit (fget s .PWR_DOM_STAT [d] Fld.PWR_DOM_STAT_PHASE_GOOD) ph = true →
      let good := setBits (fget s .PWR_DOM_STAT [d] Fld.PWR_DOM_STAT_PHASE_GOOD) ph ph 0
      let cap := capAfter d (phaseCount d - popCount (phaseCount d) good)
      let us := s.tick / 1000
      (cap ≠ 0 → ∃ t, exec (.phaseFail d ph) s = .next t ∧
        fget t .PWR_DOM_STAT [d] Fld.PWR_DOM_STAT_PHASE_GOOD = good ∧ fget t .PWR_DOM_STAT [d] Fld.PWR_DOM_STAT_CAP_PCT = cap ∧
        domDark t d = false ∧ t.mem = s.mem ∧ RegsOnly s t [RegId.PWR_DOM_STAT.off [d]] ∧
        t.log.waiting.filter (fun r => !(sameFail d us r)) = s.log.waiting.filter (fun r => !(sameFail d us r)) ∧
        (t.log.waiting.filter (sameFail d us)).length =
          ((List.range 8).filter (fun p => p == ph.val || s.pwr.fails.contains (d, us, p))).length ∧
        ∃ r, (t.log.waiting.filter (sameFail d us)).getLast? = some r ∧ r.detail = cap * 2 ^ 8 + good % 16) ∧
      (cap = 0 → d = 1050 → ∃ t, exec (.phaseFail d ph) s = .next t ∧ domDark t d = true ∧ t.boot.life = .dark ∧
        t.out = s.out ++ [.pin "ALERT_N" 0] ∧ RegsOnly s t [RegId.PWR_DOM_STAT.off [d]])) ∧
    (∀ i : Fin 8, tbit (fget s .PWR_REF [] Fld.PWR_REF_IBC_GOOD) i = true → ∃ t, exec (.ibcFail i) s = .next t ∧
      fget t .PWR_REF [] Fld.PWR_REF_IBC_GOOD = fget s .PWR_REF [] Fld.PWR_REF_IBC_GOOD - 2 ^ i.val ∧
      t.log.waiting.length = s.log.waiting.length + 1 ∧ t.mem = s.mem ∧ RegsOnly s t [RegId.PWR_REF.off []]) ∧
    (∀ mv, mv < 40000 → s.pwr.low = false → exec (.inputRange mv) s =
      .next (logEv { s with pwr := { s.pwr with low := true } } 0x61 7 0 0 0 0 (mv / 10 % 65536))) ∧
    (∀ mv, 40000 ≤ mv → mv ≤ 60000 → s.pwr.low = true → exec (.inputRange mv) s =
      .next (logEv { s with pwr := { s.pwr with low := false } } 0x61 7 0 0 0 0 (2 ^ 16 + mv / 10 % 65536))) ∧
    (∀ mv, (mv ≤ 36000 ∨ 63000 < mv) → s.boot.vin = true → s.lcs.prog = none → s.boot.frrOpen = 0 → exec (.powerLoss mv) s =
      .next { s with boot := { s.boot with vin := false, life := .standby } }) ∧
    (∀ (n : Nat) (c : Cmd), Starts s n 0x91 c →
      let g := begun s c
      (snapDenied s c = true → par c 8 1 ≤ 1 →
        Becomes s (if par c 8 1 = 1 then .telemSnapThermal n else .telemSnap n) (finishPost g c 0x0701 0)) ∧
      (2 ≤ par c 8 1 → Becomes s (.telemSnap n) (finishPost g c 0x0101 0)) ∧
      (snapDenied s c = false → par c 8 1 = 0 →
        let w := accWrite g (agentOf g c) (par c 0 8) (powerSnap g)
        Becomes s (.telemSnap n) (finishPost w.2 c w.1 0)) ∧
      (snapDenied s c = false → par c 8 1 = 1 →
        let w := accWrite g (agentOf g c) (par c 0 8) (thermalSnap g)
        Becomes s (.telemSnapThermal n) (finishPost w.2 c w.1 0)))

/-! ### Thermal -/

/-- R404, R407, R408, R411, R412, R418, R419: a sensor's sample, its exclusion, a pair's suspicion and its end, the model's ready,
an override and its end, and a tower that leaves its critical state.
(Model: log entries 6, 106, 107, 109, 110, 112, 158 and 165.) -/
def Obligations.ThermalEvents : Prop :=
  ∀ (s : State), Live s →
    (∀ (i : Fin 3392) (v : Int), i.val ∉ s.thm.excluded → -640 ≤ v → v ≤ 2400 →
      let y := sensNode i % 160 / 8
      (∀ w, tfind s.thm.last i = some w → (v < limCrit s y ∨ w < limCrit s y) ∧ (v < limShut s y ∨ w < limShut s y)) →
      let a := tget (0, 0) s.thm.acc i
      exec (.sensorSample i v) s = .next { s with thm := { s.thm with
        last := tput i.val v s.thm.last, acc := tput i.val (a.1 + v, a.2 + 1) s.thm.acc } }) ∧
    (∀ (i : Fin 3392) (v w : Int), i.val ∉ s.thm.excluded → v ≤ 2400 → tfind s.thm.last i = some w →
      limShut s (sensNode i % 160 / 8) ≤ v → limShut s (sensNode i % 160 / 8) ≤ w → -640 ≤ v →
      ∃ t, exec (.sensorSample i v) s = .next t ∧ t.boot.life = .shut ∧ t.boot.trip = true ∧ bits (rget t .THM_TRIP []) 63 63 = 1 ∧
        bits (rget t .THM_TRIP []) 15 0 = wrap 16 v ∧
        (∃ l, t.out = l ++ [.pin "THERMTRIP_N" 0, .pin "ALERT_N" 0])) ∧
    (∀ (i : Fin 3392) (v : Int), i.val ∉ s.thm.excluded → (v < -640 ∨ 2400 < v) →
      ∃ t, exec (.sensorSample i v) s = .next t ∧ t.thm = { s.thm with
        excluded := i.val :: s.thm.excluded,
          suspect := s.thm.suspect.filter (fun k => k != i.val && some k != sensPair i.val) } ∧
        t.log.waiting.length = s.log.waiting.length + 1 ∧ RegsOnly s t [RegId.THM_CNT.off [3]]) ∧
    (∀ i : Fin 3392, i.val ∉ s.thm.excluded → ∃ t, exec (.sensorConvTimeout i) s = .next t ∧ t.thm = { s.thm with
        excluded := i.val :: s.thm.excluded,
          suspect := s.thm.suspect.filter (fun k => k != i.val && some k != sensPair i.val) } ∧
        t.log.waiting.length = s.log.waiting.length + 1 ∧ t.mem = s.mem ∧ RegsOnly s t [RegId.THM_CNT.off [3]]) ∧
    (∀ (i : Fin 3392) (j : Nat), sensPair i = some j → i.val ∉ s.thm.excluded → j ∉ s.thm.excluded → i.val ∉ s.thm.suspect →
      ((readingOf s i - readingOf s j).natAbs ≤ 64 → exec (.sensorSuspect i) s = .next s) ∧
      (64 < (readingOf s i - readingOf s j).natAbs → modelReady s = false → ∃ t, exec (.sensorSuspect i) s = .next t ∧ t.regs = s.regs ∧
        t.thm = { s.thm with suspect := i.val :: j :: s.thm.suspect } ∧ t.log.waiting.length = s.log.waiting.length + 1) ∧
      (64 < (readingOf s i - readingOf s j).natAbs → modelReady s = true → ∃ t, exec (.sensorSuspect i) s = .next t ∧ i.val ∉ t.thm.suspect ∧ j ∉ t.thm.suspect ∧
        (i.val ∈ t.thm.excluded ↔ j ∉ t.thm.excluded) ∧
        ((readingOf s i - estOf s (sensNode i)).natAbs < (readingOf s j - estOf s (sensNode j)).natAbs → j ∈ t.thm.excluded) ∧
        ((readingOf s j - estOf s (sensNode j)).natAbs < (readingOf s i - estOf s (sensNode i)).natAbs →
          i.val ∈ t.thm.excluded))) ∧
    (∀ (i : Fin 3392) (j : Nat), sensPair i = some j → exec (.sensorPairRecover i) s =
      .next (if 32 < (readingOf s i - readingOf s j).natAbs then s else { s with thm := { s.thm with suspect := s.thm.suspect.filter (fun k => k != i.val && k != j) } })) ∧
    (modelReady s = false → s.thm.tm ≠ [] → s.thm.suspect = [] → ∃ t, exec .modelReady s = .next t ∧ modelReady t = true ∧
      t.thm = { s.thm with off := t.thm.off } ∧ (∀ e ∈ t.thm.off, e.1 ∉ s.thm.offBad) ∧
      t.log.waiting.length = s.log.waiting.length + 1 ∧ RegsOnly s t [RegId.THM_STAT.off []]) ∧
    (∀ (t : Fin 16) (l : Fin 20) (r : Fin 8),
      let n := nodeNum t l r
      (modelReady s = true → overridden s n = false → 2 ≤ l.val → l.val ≠ 19 → 96 < excess s n →
        ∃ u, exec (.modelOverride t l r) s = .next u ∧ u.thm = { s.thm with overrides := s.thm.overrides ++ [⟨n, false⟩] } ∧
          fget u .THM_TWR [t.val] Fld.THM_TWR_OVERRIDE = 1 ∧ u.log.waiting.length = s.log.waiting.length + 1 ∧
          RegsOnly s u [RegId.THM_TWR.off [t.val], RegId.THM_CNT.off [2]]) ∧
      (excess s n ≤ 96 → exec (.modelOverride t l r) s = .next s) ∧
      (overridden s n = true → excess s n ≤ 48 → ∃ u, exec (.modelOverrideEnd t l r) s = .next u ∧ overridden u n = false ∧
        (∀ m, m ≠ n → overridden u m = overridden s m) ∧ u.log.waiting.length = s.log.waiting.length + 1 ∧
        RegsOnly s u [RegId.THM_TWR.off [t.val]])) ∧
    (∀ t : Fin 16, fbit s .THM_TWR [t.val] Fld.THM_TWR_CRIT = true →
      (∀ x ∈ towerTemps s t, x.2 < limCrit s (x.1 % 160 / 8) - 80) → ∃ u, exec (.criticalExit t) s = .next u ∧
        fget u .THM_TWR [t.val] Fld.THM_TWR_CRIT = 0 ∧ fget u .THM_TWR [t.val] Fld.THM_TWR_THROTTLED = 1 ∧
        fget u .THM_TWR [t.val] Fld.THM_TWR_W = Fld.cut Fld.THM_TWR_W (Config.towerIdle t) ∧
        tbit (fget u .THM_STAT [] Fld.THM_STAT_CRIT) t = false ∧ tbit (fget u .THM_STAT [] Fld.THM_STAT_THROTTLED) t = true ∧
        u.log.waiting.length = s.log.waiting.length + 1 ∧ u.mem = s.mem ∧
        RegsOnly s u [RegId.THM_TWR.off [t.val], RegId.THM_STAT.off []])

/-! ### The log and the recovery -/

/-- R351–R353: of the reports that wait, one that no other comes before receives the next sequence number and its place in the
ring of 8,192; in a full ring it takes the place of the oldest, which is counted as lost.
(Model: reports equal in every key keep their order of arrival, log entry 60.) -/
def Obligations.LogEntriesAreOrderedAndPlaced : Prop :=
  (∀ (l : List Report) (r : Report), firstRep l = some r → r ∈ l ∧ ∀ x ∈ l, repBefore x r = false) ∧
  (∀ (s : State) (r : Report), Inv s → firstRep s.log.waiting = some r → r.more = [] → (r.tick : Int) + r.shift + 2000 ≤ s.tick →
    let q := nextSeq s
    let full := (tfind s.log.slots (q % 8192)).isSome
    ∃ t, exec .logSequenceAssign s = .next t ∧ t.log.waiting = s.log.waiting.erase r ∧
      tfind t.log.slots (q % 8192) = some (entryWords4 r q r.ev r.detail true) ∧
      (∀ k, k ≠ q % 8192 → tfind t.log.slots k = tfind s.log.slots k) ∧
      nextSeq t = (q + 1) % 2 ^ 32 ∧
      oldestSeq t = (if full then (oldestSeq s + 1) % 2 ^ 32 else oldestSeq s) ∧
      fget t .LOG_LOST [] Fld.LOG_LOST_COUNT =
        (if full then min (2 ^ 64 - 1) (fget s .LOG_LOST [] Fld.LOG_LOST_COUNT + 1) else fget s .LOG_LOST [] Fld.LOG_LOST_COUNT) ∧
      t.mem = s.mem ∧ t.clu = s.clu ∧ t.cmds = s.cmds ∧ RegsOnly s t [RegId.LOG_STAT.off [], RegId.LOG_LOST.off []]) ∧
  (∀ s : State, Inv s → s.log.waiting = [] → exec .logSequenceAssign s = .next s) ∧
  (∀ (s : State) (r : Report), Inv s → firstRep s.log.waiting = some r → (s.tick : Int) < r.tick + r.shift + 2000 →
    exec .logSequenceAssign s = .next s)

/-- R355–R357, R471: LOG_READ copies records to its buffer, LOG_CLEAR empties the ring and keeps the count of sequence numbers,
and the corrections of a period are summarized per tower.
(Model: log entry 129.) -/
def Obligations.LogCommands : Prop :=
  ∀ (s : State) (k : Nat) (c : Cmd),
    let b := begun s c
    (Starts s k 0x90 c →
      let there := mapped b (par c 0 8) (32 * par c 12 2) = true
      (¬ there → Becomes s (.logRead k) (finishPost b c 0x0301 0)) ∧
      (there → readStart s (par c 8 4) = none → Becomes s (.logRead k) (finishPost b c 0 (nextSeq s * 2 ^ 32))) ∧
      (∀ q, there → readStart s (par c 8 4) = some q →
        let r := copyRecords c (qTenant s c.q) 8192 q 0 b
        Becomes s (.logRead k) (finishPost r.2.2.2 c r.1 (r.2.1 * 2 ^ 32 + r.2.2.1)))) ∧
    (Starts s k 0x92 c → Becomes s (.logClear k) (finishPost (logClear b) c 0 0) ∧ (logClear b).log.slots = [] ∧
      nextSeq (logClear b) = nextSeq s ∧ oldestSeq (logClear b) = nextSeq s ∧ (logClear b).log.waiting = s.log.waiting) ∧
    (Live s → fget s .LOG_CFG [] Fld.LOG_CFG_CE_PERIOD = 0 → exec .ceSummaryPeriod s = .next s) ∧
    (Live s → fget s .LOG_CFG [] Fld.LOG_CFG_CE_PERIOD ≠ 0 → ∃ t, exec .ceSummaryPeriod s = .next t ∧
      t.ecc = { s.ecc with perTower := [] } ∧ t.regs = s.regs ∧ t.mem = s.mem ∧
      t.log.waiting.length = s.log.waiting.length + (s.ecc.perTower.filter (fun e => e.2 != 0)).length ∧
      ∀ r ∈ t.log.waiting, r ∈ s.log.waiting ∨ (r.ev = 0x14 ∧ ∃ n, (r.idx, n) ∈ s.ecc.perTower ∧ r.detail % 2 ^ 40 = min (2 ^ 32 - 1) n))

/-- R271, R334–R338: a parity error in a unit of a job, with no recovery running, takes the next fence number, fences every queue of
the job with it and no other queue, and starts a recovery, which is in its drain stage. -/
def Obligations.AFaultFencesItsJob : Prop :=
  ∀ (s : State) (c : Fin 1024) (unit : Nat), Live s → rcvRunning s = false → isHeld s = false → jobOfC s c ≠ 0 →
    let j := jobOfC s c
    let f := (fget s .QD_STAT [] Fld.QD_STAT_FENCE_LAST + 1) % 2 ^ 32
    ∃ t, exec (.unitParity (some c) unit) s = .next t ∧
      fget t .QD_STAT [] Fld.QD_STAT_FENCE_LAST = f ∧
      (∀ q < 256, queueJob s q = j → fbit t .QD_Q_STAT [q] Fld.QD_Q_STAT_FENCED = true ∧
        fget t .QD_Q_STAT [q] Fld.QD_Q_STAT_FENCE = f ∧ (qdOf t q).fence = f ∧ qFenced t q = true) ∧
      (∀ q < 256, queueJob s q ≠ j → rget t .QD_Q_STAT [q] = rget s .QD_Q_STAT [q] ∧ qdOf t q = qdOf s q) ∧
      t.rcv.stage = 2 ∧ t.rcv.jobs = [j] ∧ t.rcv.res = [⟨.cluster c, .reverify, false, 1, 0⟩] ∧ t.rcv.fence = f ∧
      t.log.waiting.length = s.log.waiting.length + 3 ∧ t.mem = s.mem ∧ t.cmds = s.cmds ∧ t.clu = s.clu

/-- R338–R347, R439: the stages of a recovery, its two commands, a unit that does not stop, and a restart that leaves the device
Held.
(Model: log entries 79, 81, 82, 83, 84 and 128.) -/
def Obligations.RecoverySteps : Prop :=
  ∀ (s : State), Live s →
    let b := bare s
    (s.rcv.stage = 2 → Becomes s .drainComplete (drainComplete b) ∧
      (s.clu = [] → s.nb = [] → s.nbFlight = [] → s.cmds = [] →
        (drainComplete b).rcv.stage = 4 ∧ (drainComplete b).ready = false ∧ (∀ x ∈ (drainComplete b).rcv.res, x.fixed = true))) ∧
    (s.rcv.stage ≠ 2 → exec .drainComplete s = .next s) ∧
    (∀ (c : Fin 1024) (u : Nat), s.rcv.stage = 2 → jobOfC s c ≠ 0 → jobOfC s c ∈ s.rcv.jobs →
      let v : State := { b with rcv := { b.rcv with undrained := c.val :: b.rcv.undrained.filter (fun x => x != c.val) } }
      Becomes s (.drainTimeout (some c) u)
        (raiseFault v (jobOfC s c) [unitRes (some c) u] (mkRep v 0x17 4 1 c 0 (jobOfC s c) (u % 256)))) ∧
    (∀ lost lanes, s.rcv.stage = 4 → Becomes s (.computeResetStage lost lanes) (computeResetStage lost lanes b) ∧
      (let u := computeResetStage lost lanes b
       u.rcv.stage = 5 ∧ u.clu = [] ∧ u.nb = [] ∧ u.nbFlight = [] ∧ u.jobOf = [] ∧ u.launches = [] ∧ u.graphs = [] ∧
       u.groups = [] ∧ u.colls = [] ∧ u.chans = List.replicate 8 none ∧ u.topo.dark = [] ∧ u.topo.closed = [] ∧
       u.syn.wins = [] ∧ u.clk.hung = [] ∧ ∀ c < 1024, rget u .CORE_STAT (tk c) = RegId.CORE_STAT.desc.reset)) ∧
    ((∀ i < 27, domDark s (1024 + i) = false) → s.rcv.stage = 5 → s.rcv.waiters = [] → ∃ t, exec (.reverify []) s = .next t ∧
      t.ready = true ∧ t.rcv = { s.rcv with stage := 6, tests := [], acked := fget s .QD_STAT [] Fld.QD_STAT_FENCE_LAST } ∧
      fget t .LOG_RCV_CNT [] Fld.LOG_RCV_CNT_RECOVERIES = min (2 ^ 32 - 1) (fget s .LOG_RCV_CNT [] Fld.LOG_RCV_CNT_RECOVERIES + 1) ∧
      t.log.waiting.length = s.log.waiting.length + 1 ∧ t.mem = s.mem ∧ RegsOnly s t [RegId.LOG_RCV_CNT.off []]) ∧
    (∀ f : VerifyFail, (∀ i < 27, domDark s (1024 + i) = false) → s.rcv.stage = 5 → isTested s f = true →
      (s.rcv.restarts < 4 → ∃ t, exec (.reverify [f]) s = .next t ∧ t.rcv.stage = 2 ∧ t.rcv.restarts = s.rcv.restarts + 1 ∧
        t.rcv.jobs = s.rcv.jobs ∧ t.rcv.res.any (fun x => x.res == (verifyRes f).res) = true ∧
        fget t .QD_STAT [] Fld.QD_STAT_FENCE_LAST = (fget s .QD_STAT [] Fld.QD_STAT_FENCE_LAST + 1) % 2 ^ 32 ∧ t.mem = s.mem) ∧
      (4 ≤ s.rcv.restarts → ∃ t, exec (.reverify [f]) s = .next t ∧ isHeld t = true ∧ t.ready = false ∧
        fbit t .QD_STAT [] Fld.QD_STAT_HELD = true ∧ t.launches = [] ∧ t.colls = [] ∧
        t.cmds = s.cmds ∧ (∀ c ∈ t.cmds, c.opc ≠ 0xA0 → c.opc ≠ 0xA1 → heldStatus t c ≠ none ∧
          (ownFault t c = none → c.status = none → heldStatus t c = some 0x0602)) ∧ t.mem = s.mem)) ∧
    (∀ (k : Nat) (c : Cmd), Starts s k 0xA0 c →
      (isHeld s = false → rcvRunning s = false → ∃ t, exec (.computeReset k) s = .next t ∧ t.rcv.stage = 2 ∧ t.rcv.jobs = [] ∧
        t.rcv.res = [] ∧ t.rcv.fence = 0 ∧ t.rcv.byCommand = true ∧ t.rcv.waiters = s.rcv.waiters ++ [c.id] ∧ t.mem = s.mem) ∧
      (isHeld s = false → rcvRunning s = true → ∃ t, exec (.computeReset k) s = .next t ∧
        t.rcv = { s.rcv with waiters := s.rcv.waiters ++ [c.id] } ∧ t.regs = s.regs ∧ t.mem = s.mem) ∧
      (isHeld s = true → ∃ t, exec (.computeReset k) s = .next t ∧ t.rcv.stage = 2 ∧ t.rcv.jobs = s.rcv.jobs ∧
        t.rcv.restarts = 0 ∧ fget t .QD_STAT [] Fld.QD_STAT_HELD = 0 ∧ t.mem = s.mem)) ∧
    (∀ (k : Nat) (c : Cmd), Starts s k 0xA1 c → isHeld s = true → ∃ t, exec (.heldRelease k) s = .next t ∧
      t.rcv.stage = 2 ∧ t.rcv.jobs = s.rcv.jobs ∧ fget t .QD_STAT [] Fld.QD_STAT_HELD = 0 ∧
      (∀ x ∈ t.rcv.res, x.res ∈ s.rcv.culprits → x.act = .mapOut) ∧
      t.rcv.res.map (fun x => x.res) = s.rcv.res.map (fun x => x.res) ∧ t.mem = s.mem)

/-! ### Limited-change settings and credentials -/

/-- R448–R450: a write of a limited-change register that meets every condition of R449 begins its ledger record, and no value
changes before the record is complete; any other write records the first failing condition and changes nothing else. When the
record is complete the value applies. (A device ID never written differs from every value: the model's choice, log entry 72.) -/
def Obligations.LimitedChangeSettings : Prop :=
  ∀ (s : State) (src : RegSrc) (val : Word),
    (∀ (i : Instr) (r : RegId) (k : Nat),
      (i, r, k) ∈ [(.pwrCeilingWrite src val, RegId.PWR_CEILING, 0), (.hpRoleWrite src val, .HP_ROLE, 1),
        (.synIdWrite src val, .SYN_ID, 2), (.lcsTenantWrite src val, .LCS_TENANT, 3),
        (.hrdSlopeCeilWrite src val, .HRD_SLOPE_CEIL, 4), (.lcsGradeWrite src val, .LCS_GRADE, 5)] →
      Reaches s src r [] →
      let v := settingMask k val.toNat
      let fails : Nat → Prop := fun n => match n with
        | 1 => s.lcs.session = none
        | 2 => s.lcs.prog ≠ none
        | 3 => ∀ j < slotCount k, (tfind s.lcs.records (slotBase k + j)).isSome
        | 4 => valueInRange k v = false
        | 5 => v = settingNow s k ∧ (k = 2 → fbit s .SYN_ID [] Fld.SYN_ID_SET = true)
        | _ => ownCond s k v = false
      let rejected := fun n => ∃ t, exec i s = .next t ∧ t = { s with regs := t.regs } ∧
        fget t .LCS_STAT [] Fld.LCS_STAT_LAST_REJ = n ∧ RegsOnly s t [RegId.LCS_STAT.off []]
      (∀ n, 1 ≤ n → n ≤ 6 → fails n → (∀ m, 1 ≤ m → m < n → ¬ fails m) → rejected n) ∧
      ((∀ n, 1 ≤ n → n ≤ 6 → ¬ fails n) → ∃ t slot rec_, exec i s = .next t ∧ openSlot s k = some slot ∧
        t = { s with regs := t.regs, lcs := { s.lcs with prog := some (slotBase k + slot, rec_) } } ∧
        rec_ = { tick := s.tick, value := v, setting := k, slot := slot, cred := fget s .LCS_STAT [] Fld.LCS_STAT_SESS_CRED,
                 valid := true, torn := false, prior := settingNow s k } ∧
        fget t .LCS_STAT [] Fld.LCS_STAT_BUSY = 1 ∧ RegsOnly s t [RegId.LCS_STAT.off []])) ∧
    (Live s → ∀ slot rec_, s.lcs.prog = some (slot, rec_) → rec_.setting ≤ 5 → rec_.value = settingMask rec_.setting rec_.value →
      ∃ t, exec .ledgerProgramDone s = .next t ∧ t.lcs = { s.lcs with prog := none, records := tput slot rec_ s.lcs.records } ∧
        fget t .LCS_STAT [] Fld.LCS_STAT_BUSY = 0 ∧ settingNow t rec_.setting = rec_.value ∧ t.host = s.host ∧ t.mem = s.mem ∧
        t.log.waiting.length = s.log.waiting.length + (if rec_.setting = 0 then 1 else 0) ∧
        RegsOnly s t [RegId.LCS_STAT.off [], match rec_.setting with
          | 0 => RegId.PWR_CEILING.off []
          | 1 => RegId.HP_ROLE.off []
          | 2 => RegId.SYN_ID.off []
          | 3 => RegId.LCS_TENANT.off []
          | 4 => RegId.HRD_SLOPE_CEIL.off []
          | _ => RegId.LCS_GRADE.off [], RegId.ID_GRADE.off []]) ∧
    (Live s → s.lcs.prog = none → exec .ledgerProgramDone s = .next s)

/-- R455, R456: a credential action begins to be verified; a failing check leaves the credentials and the session as they are,
and reports itself; OPEN, BIND, SEAL and REVOKE have their effect, and CLOSE and the end of a session end it.
(Model: log entry 115.) -/
def Obligations.CredentialActions : Prop :=
  ∀ (s : State) (src : RegSrc) (val : Word),
    (∀ (i : Instr) (a : Nat),
      (i, a) ∈ [(.credOpen src val, 1), (.credBind src val, 2), (.credRevoke src val, 3), (.credSeal src val, 4)] →
      Reaches s src .LCS_AUTH_CTL [] →
      (s.lcs.verify = none → ∃ t, exec i s = .next t ∧ t = { s with regs := t.regs, lcs := { s.lcs with
          verify := some (a, bits val.toNat 2 0, regBytes s .LCS_AUTH_KEY 12, regBytes s .LCS_AUTH_SIG 12) } } ∧
        RegsOnly s t [RegId.LCS_AUTH_CTL.off []]) ∧
      (s.lcs.verify ≠ none → ∃ t, exec i s = .next t ∧ t = { s with regs := t.regs } ∧
        fget t .LCS_STAT [] Fld.LCS_STAT_AUTH_RES = 1 ∧ RegsOnly s t [RegId.LCS_AUTH_CTL.off [], RegId.LCS_STAT.off []])) ∧
    (Reaches s src .LCS_AUTH_CTL [] → s.lcs.verify = none → ∃ t, exec (.credClose src val) s = .next t ∧
      t = { s with regs := t.regs, lcs := { s.lcs with session := none } } ∧ fget t .LCS_STAT [] Fld.LCS_STAT_SESSION = 0 ∧
      fget t .LCS_STAT [] Fld.LCS_STAT_AUTH_RES = 0 ∧ RegsOnly s t [RegId.LCS_AUTH_CTL.off [], RegId.LCS_STAT.off []]) ∧
    (Live s → ∃ t, exec .sessionExpire s = .next t ∧ t = { s with regs := t.regs, lcs := { s.lcs with session := none } } ∧
      fget t .LCS_STAT [] Fld.LCS_STAT_SESSION = 0 ∧ RegsOnly s t [RegId.LCS_STAT.off []]) ∧
    (∀ a i key sig, Live s → s.lcs.verify = some (a, i, key, sig) → i < 8 →
      let r := authCheck s a i key sig
      let offs := RegId.LCS_STAT.off [] :: (List.range 6).map (fun n => RegId.LCS_NONCE.off [n])
      ∃ t, exec .authVerifyDone s = .next t ∧ t.lcs.verify = none ∧ RegsOnly s t offs ∧ t.mem = s.mem ∧ t.log = s.log ∧
        (r ≠ 0 → fget t .LCS_STAT [] Fld.LCS_STAT_AUTH_RES = r ∧ t.lcs = { s.lcs with verify := none } ∧
          commissioned t = commissioned s ∧ ∀ n < 8, credBound t n = credBound s n ∧ credRevoked t n = credRevoked s n) ∧
        (r = 0 → a = 1 → commissioned s = true → t.lcs.session = some s.tick ∧
          fget t .LCS_STAT [] Fld.LCS_STAT_SESS_CRED = i ∧ fget t .LCS_STAT [] Fld.LCS_STAT_AUTH_RES = 0) ∧
        (a = 1 → commissioned s = false → t.lcs.session = s.lcs.session ∧ fget t .LCS_STAT [] Fld.LCS_STAT_AUTH_RES ≠ 0) ∧
        (r = 0 → a = 2 → credBound t i = true ∧ tget 0 t.lcs.keys i = Config.sha384 key ∧
          ∀ n < 8, n ≠ i → credBound t n = credBound s n) ∧
        (r = 0 → a = 3 → s.lcs.session ≠ none → fget s .LCS_STAT [] Fld.LCS_STAT_SESS_CRED ≠ i →
          (∃ n < 8, n ≠ i ∧ credBound s n = true ∧ credRevoked s n = false) → credRevoked t i = true) ∧
        (a = 3 → (∀ n < 8, n ≠ i → credBound s n = true → credRevoked s n = true) → ∀ n < 8, credRevoked t n = credRevoked s n) ∧
        (r = 0 → a = 4 → commissioned t = true))

/-! ### Register writes that are commands -/

/-- R146–R149, R246, R252, R255, R259, R261, R263, R272: writes of the command registers of near-bank slots, tower caches and
queues.
(Model: log entries 33, 41, 64 and 71.) -/
def Obligations.CommandRegisterWrites : Prop :=
  ∀ (s : State) (src : RegSrc) (val : Word),
    let b := bare s
    (∀ (t : Fin 16) (slot : Fin 64), Reaches s src .NB_S_CMD [t.val, slot.val] →
      let key := 64 * t.val + slot.val
      let ix := slotIx key
      (∀ (i : Instr) (kd : Nat),
        (i, kd) ∈ [(.nbRun src t slot val, 1), (.nbLoad src t slot val, 2), (.nbSetgrp src t slot val, 3)] →
        let v := withKind val kd
        (fbit s .NB_S_STAT ix Fld.NB_S_STAT_BUSY = true → ∃ u, exec i s = .next u ∧ u = { s with regs := u.regs } ∧
          fget u .NB_S_STAT ix Fld.NB_S_STAT_OVR = 1 ∧ fget u .NB_S_STAT ix Fld.NB_S_STAT_BUSY = 1 ∧
          RegsOnly s u [RegId.NB_S_STAT.off ix]) ∧
        (∀ l, fbit s .NB_S_STAT ix Fld.NB_S_STAT_BUSY = false → nbFieldCheck s key v = 0 → nbTargets s key = (0, l) → l ≠ [] →
          (kd = 1 → ∀ k ∈ l, bankStriped s k = false) →
          ∃ (u : State) (cmd : NbCmd), exec i s = .next u ∧ u = { s with regs := u.regs, nbOut := u.nbOut, nbFlight := u.nbFlight } ∧
            u.nbOut = tput key l s.nbOut ∧
            u.nbFlight = s.nbFlight ++ l.map (fun k => (k, { cmd with job := jobOfC s (k / 512) })) ∧
            cmd.kind = kd ∧ cmd.tag = val.toNat % 2 ^ 32 ∧ cmd.pc = bits val.toNat 55 49 ∧ cmd.slot = slot.val ∧ cmd.tower = t.val ∧
            fget u .NB_S_STAT ix Fld.NB_S_STAT_BUSY = 1 ∧ fget u .NB_S_STAT ix Fld.NB_S_STAT_FAIL = 0 ∧
            fget u .NB_S_STAT ix Fld.NB_S_STAT_TARGETS = l.length % 2 ^ 16 ∧ fget u .NB_S_STAT ix Fld.NB_S_STAT_DONE_CNT = 0 ∧
            RegsOnly s u [RegId.NB_S_STAT.off ix, RegId.NB_S_FAIL.off ix])) ∧
      (bits val.toNat 63 56 ∉ [1, 2, 3] → fbit s .NB_S_STAT ix Fld.NB_S_STAT_BUSY = false →
        ∃ u, exec (.nbCmdReserved src t slot val) s = .next u ∧ u = { s with regs := u.regs } ∧
          fget u .NB_S_STAT ix Fld.NB_S_STAT_FAIL = 1 ∧ fget u .NB_S_STAT ix Fld.NB_S_STAT_TARGETS = 0 ∧
          bits (rget u .NB_S_FAIL ix) 63 48 = 0x0110 ∧ RegsOnly s u [RegId.NB_S_STAT.off ix, RegId.NB_S_FAIL.off ix])) ∧
    (∀ t : Fin 16, Reaches s src .TC_CTL [t.val] →
      let u := fset b .TC_CTL [t.val] Fld.TC_CTL_INV (bits val.toNat 3 3)
      (val.toNat % 4 = 0 → Becomes s (.tcFlush src t val) (flushStart t u) ∧
        fget (flushStart t u) .TC_STAT [t.val] Fld.TC_STAT_FLUSHING = 1 ∧ (tcOf (flushStart t u) t).flushInv = tbit val.toNat 3) ∧
      (val.toNat % 2 = 0 → tbit val.toNat 2 = false → Becomes s (.tcRclose src t val) (rclose t u)) ∧
      (tbit val.toNat 1 = false → tbit val.toNat 2 = false → Becomes s (.tcUnpin src t val) (unpin t u) ∧
        ∀ l ∈ (tcOf (unpin t u) t).lines, l.cls ≠ 1)) ∧
    (∀ q : Fin 256, Reaches s src .QD_DB_SQ [q.val] →
      (ptrDiff (val.toNat % 65536) (sqHead s q) ≤ ringLen s q → ∃ u, exec (.doorbellSq src q val) s = .next u ∧
        u = { s with regs := u.regs } ∧ sqTail u q = val.toNat % 65536 ∧ sqHead u q = sqHead s q ∧ RegsOnly s u [RegId.QD_Q_PTR.off [q.val]]) ∧
      (ringLen s q < ptrDiff (val.toNat % 65536) (sqHead s q) → ∃ u, exec (.doorbellSq src q val) s = .next u ∧
        u = { s with regs := u.regs } ∧ fget u .QD_Q_STAT [q.val] Fld.QD_Q_STAT_DB_ERR = 1 ∧ RegsOnly s u [RegId.QD_Q_STAT.off [q.val]])) ∧
    (∀ q : Fin 256, Reaches s src .QD_DB_CQ [q.val] →
      (ptrDiff (cqTail s q) (val.toNat % 65536) ≤ ringLen s q → ∃ u, exec (.doorbellCq src q val) s = .next u ∧
        u = { s with regs := u.regs } ∧ cqHead u q = val.toNat % 65536 ∧ cqTail u q = cqTail s q ∧ RegsOnly s u [RegId.QD_Q_PTR.off [q.val]]) ∧
      (ringLen s q < ptrDiff (cqTail s q) (val.toNat % 65536) → ∃ u, exec (.doorbellCq src q val) s = .next u ∧
        u = { s with regs := u.regs } ∧ fget u .QD_Q_STAT [q.val] Fld.QD_Q_STAT_DB_ERR = 1 ∧ RegsOnly s u [RegId.QD_Q_STAT.off [q.val]])) ∧
    (∀ q : Fin 256, Reaches s src .QD_Q_CTL [q.val] →
      let n := val.toNat
      let ready := fun (u : State) => fget u .QD_Q_STAT [q.val] Fld.QD_Q_STAT_ENABLED
      (tbit n 1 = false → tbit n 2 = false → qEnabled s q = false →
        let ok := ringOk (sqBase s q) (64 * ringLen s q) && ringOk (cqBase s q) (32 * ringLen s q)
        (ok = true → ∃ u, exec (.queueEnable src q val) s = .next u ∧ u = { s with regs := u.regs, qd := tput q.val ⟨0, 0⟩ s.qd } ∧
          qEnabled u q = true ∧ sqHead u q = 0 ∧ sqTail u q = 0 ∧ cqHead u q = 0 ∧ cqTail u q = 0 ∧ rget u .QD_Q_COUNT [q.val] = 0 ∧
          ready u = b2n (!(qError s q)) ∧
          RegsOnly s u [RegId.QD_Q_PTR.off [q.val], RegId.QD_Q_COUNT.off [q.val], RegId.QD_Q_STAT.off [q.val], RegId.QD_Q_CTL.off [q.val]]) ∧
        (ok = false → ∃ u, exec (.queueEnable src q val) s = .next u ∧ u = { s with regs := u.regs } ∧
          fget u .QD_Q_STAT [q.val] Fld.QD_Q_STAT_CFG_ERR = 1 ∧ qEnabled u q = false ∧ RegsOnly s u [RegId.QD_Q_STAT.off [q.val]])) ∧
      (tbit n 1 = false → tbit n 2 = false → qEnabled s q = true → ∃ u, exec (.queueDisable src q val) s = .next u ∧
        u = { s with regs := u.regs, cmds := u.cmds } ∧ qEnabled u q = false ∧ ready u = 0 ∧
        (∀ k c, cmdOf s k = some c → ¬ (c.opc = 0x01 ∧ par c 0 1 = q.val) → cmdOf u k = some c) ∧
        RegsOnly s u [RegId.QD_Q_STAT.off [q.val], RegId.QD_Q_CTL.off [q.val]]) ∧
      (tbit n 0 = true → tbit n 2 = false → qEnabled s q = true → qCmds s q = [] → ∃ u, exec (.queueReset src q val) s = .next u ∧
        u = { s with regs := u.regs, cmds := u.cmds } ∧ qEnabled u q = false ∧ sqHead u q = 0 ∧ cqTail u q = 0 ∧
        rget u .QD_Q_COUNT [q.val] = 0 ∧ qFenced u q = false ∧ qError u q = false) ∧
      (n % 4 = 1 → qEnabled s q = true →
        (s.rcv.acked + 2 ^ 32 - fget s .QD_Q_STAT [q.val] Fld.QD_Q_STAT_FENCE) % 2 ^ 32 < 2 ^ 31 →
        ∃ u, exec (.fenceAck src q val) s = .next u ∧ u = { s with regs := u.regs } ∧ qFenced u q = false ∧
          RegsOnly s u [RegId.QD_Q_STAT.off [q.val]]))

/-- R285, R294, R300, R308, R356, R394, R397, R398, R402, R420, R424, R431: writes of the fabric's, the log's, the clock's, the
cooling and the reset registers that are commands.
(Model: log entries 37, 41, 43, 105, 179 and 180.) -/
def Obligations.ControlRegisterWrites : Prop :=
  ∀ (s : State) (src : RegSrc) (val : Word),
    let b := bare s
    let n := val.toNat
    let word := fun on => writeWord RegId.SYN_CFG.desc (rget s .SYN_CFG []) (withBit val 0 on &&& writeMask RegId.SYN_CFG.desc false)
    let m := rput b .SYN_CFG [] (word true)
    let up := synEnable (if tbit (word true) 3 = fbit s .SYN_CFG [] Fld.SYN_CFG_TIME_MASTER then m else masterChange m)
    let down := rput (synDisable b) .SYN_CFG [] (word false)
    (Reaches s src .SYN_CFG [] →
      (fbit s .SYN_CFG [] Fld.SYN_CFG_EN = false → Becomes s (.synEnSet src val) up ∧
        fbit up .SYN_CFG [] Fld.SYN_CFG_EN = true ∧ ∀ p < 16, portState s p = 0 → portState up p = (if gateBit s p then 0 else 1)) ∧
      (fbit s .SYN_CFG [] Fld.SYN_CFG_EN = true → Becomes s (.synEnClear src val) down ∧
        fbit down .SYN_CFG [] Fld.SYN_CFG_EN = false ∧ down.syn.members = [] ∧ mstate down = 0 ∧ ∀ p < 16, portState down p = 0)) ∧
    (∀ i : Fin 16384, Reaches s src .SYN_RT [i.val] → ∃ u, exec (.routeTableWrite src i val) s = .next u ∧
      u = { s with regs := u.regs } ∧ rget u .SYN_RT [i.val] = n ∧
      (s.syn.members.length ≤ 4096 → RegsOnly s u [RegId.SYN_RT.off [i.val]]) ∧
      (4096 < s.syn.members.length → RegsOnly s u [RegId.SYN_RT.off [i.val], RegId.SYN_CNT.off []] ∧
        fget u .SYN_CNT [] Fld.SYN_CNT_NO_DJ =
          min (2 ^ 16 - 1) (fget s .SYN_CNT [] Fld.SYN_CNT_NO_DJ + b2n (!(tbit n 5) || !(tbit n 37))))) ∧
    (Reaches s src .LOG_CTL [] → ∃ u, exec (.logCtlClear src val) s = .next u ∧
      u = { s with regs := u.regs, log := { s.log with slots := [], traps := [] } } ∧ oldestSeq u = nextSeq s ∧ nextSeq u = nextSeq s ∧
      RegsOnly s u [RegId.LOG_STAT.off []]) ∧
    (Reaches s src .CLK_BYPASS [] →
      Becomes s (.clkBypass src val) (bypass (bits n 11 0) (rput b .CLK_BYPASS [] (bits n 11 0))) ∧
      (bits n 11 0 < 2107 → bits n 11 0 ∉ (bypass (bits n 11 0) (rput b .CLK_BYPASS [] (bits n 11 0))).clk.hung)) ∧
    (Reaches s src .CLK_MGMT [] → ∃ u m r, exec (.clkMgmtWrite src val) s = .next u ∧
      u = { s with regs := u.regs, clk := { s.clk with mgmt := s.clk.mgmt ++ [(m, r)], loops := u.clk.loops }, freeCtr := u.freeCtr } ∧
      fget u .CLK_MGMT [] Fld.CLK_MGMT_CORE_MHZ = bits n 15 0 ∧ fget u .CLK_MGMT [] Fld.CLK_MGMT_RBUS_MHZ = bits n 31 16 ∧
      400 ≤ m ∧ m ≤ 1200 ∧ m % 50 = 0 ∧ 250 ≤ r ∧ r ≤ 600 ∧ r % 25 = 0 ∧
      (400 ≤ bits n 15 0 → bits n 15 0 ≤ 1200 → bits n 15 0 % 50 = 0 → m = bits n 15 0) ∧ RegsOnly s u [RegId.CLK_MGMT.off []]) ∧
    (Reaches s src .CLK_GATE [] → ∃ u, exec (.clkGateWrite src val) s = .next u ∧ u = { s with regs := u.regs, out := u.out } ∧
      (∀ p < 16, portState u p = (if fbit s .SYN_CFG [] Fld.SYN_CFG_EN && gateBit s p && !(gateBit u p) && portState s p == 0 then 1
        else portState s p)) ∧
      (∀ i < 20, gateBit u i = (tbit n i && (gateBit s i || !(blockUsed s i)))) ∧
      ((∃ i < 20, tbit n i = true ∧ gateBit s i = false ∧ blockUsed s i = true) →
        fget u .CLK_STAT [] Fld.CLK_STAT_GATE_REJ = 1) ∧ RegsOnly s u ([RegId.CLK_GATE.off [], RegId.CLK_STAT.off [], RegId.SYN_STAT.off []] ++
        (List.range 16).map (fun p => RegId.SYN_PORT_STAT.off [p]))) ∧
    (Reaches s src .CLK_OBS [] → ∃ u, exec (.clkObsWrite src val) s = .next u ∧ u = { s with regs := u.regs, out := u.out } ∧
      fget u .CLK_OBS [] Fld.CLK_OBS_EN = bits n 63 63 ∧ fget u .CLK_OBS [] Fld.CLK_OBS_SEL = bits n 43 32 ∧
      fget u .CLK_OBS [] Fld.CLK_OBS_N = bits n 20 16 ∧ RegsOnly s u [RegId.CLK_OBS.off []]) ∧
    (Reaches s src .THM_COOL [] →
      let ok := 170 ≤ bits n 47 32 ∧ bits n 47 32 ≤ 450 ∧ 20 ≤ bits n 31 16 ∧ bits n 15 0 ≠ 0
      (ok → exec (.thmCoolWrite src val) s = .next { s with thm := { s.thm with cool := some (n % 2 ^ 48) } }) ∧
      (¬ ok → ∃ u, exec (.thmCoolWrite src val) s = .next u ∧ u = { s with regs := u.regs } ∧
        fget u .THM_STAT [] Fld.THM_STAT_COOL_ERR = 1 ∧ RegsOnly s u [RegId.THM_STAT.off []])) ∧
    (Reaches s src .RST_CTL [] → canReset s = true → Becomes s (.rstCtlCold src val) (coldReset 3 b))

/-- R431: a write of BOOT_FW_CTL.COMMIT always completes: it raises MIN_SVN to the running SVN, at most 32 times; a commit that
would not raise it, or finds no raise left, changes nothing and sets COMMIT_ERR; and an image with an SVN below MIN_SVN does not
pass. -/
def Obligations.CommitRaisesTheMinimumVersion : Prop :=
  (∀ (s : State) (src : RegSrc) (val : Word), Live s → ratioBad s = none → ∃ t, exec (.fwCommit src val) s = .next t ∧ Inv t) ∧
  (∀ (s : State) (src : RegSrc) (val : Word), Reaches s src .BOOT_FW_CTL [] →
    let svn := fget s .BOOT_FW [] Fld.BOOT_FW_SVN
    let may := fget s .BOOT_FW [] Fld.BOOT_FW_MIN_SVN < svn ∧ s.boot.raises < 32
    (may → ∃ u, exec (.fwCommit src val) s = .next u ∧ u = { s with regs := u.regs, boot := { s.boot with raises := s.boot.raises + 1 } } ∧
      fget u .BOOT_FW [] Fld.BOOT_FW_MIN_SVN = svn ∧ RegsOnly s u [RegId.BOOT_FW.off [], RegId.BOOT_FW_CTL.off []]) ∧
    (¬ may → ∃ u, exec (.fwCommit src val) s = .next u ∧ u = { s with regs := u.regs } ∧
      fget u .BOOT_FW_CTL [] Fld.BOOT_FW_CTL_COMMIT_ERR = 1 ∧ RegsOnly s u [RegId.BOOT_FW_CTL.off []])) ∧
  (∀ (s : State) (slots : List (List Byte)) (k : Nat), fwSelect s slots = .inl k →
    fget s .BOOT_FW [] Fld.BOOT_FW_MIN_SVN ≤ leNat (imgBytes (lget [] slots k) 8 1))

/-! ### The register space -/

/-- R444: a read of a reserved offset, or of an offset within a block that no register occupies, returns 0; a write to such an
offset is discarded; neither raises an error. (The Sett image and the bus of a wrong clock ratio are not such offsets.) -/
def Obligations.ReservedOffsetsReadZero : Prop :=
  ∀ (s : State) (src : RegSrc) (off : Nat) (be : BitVec 8) (val : Word), Inv s → answers s src = true →
    (s.alive = true → ratioBad s = none) → (∀ v, viewOff src off = some v → inSett v = false ∧ regAt v = none) →
    exec (.registerRead src off be) s = .next (emit s (.data (srcCode src) 0 0 [])) ∧
    exec (.registerWrite src off 0xFF val) s = .next s

/-- R14, R15, R399, R428, R440, R445, R446: what a register access comes to: a partial write is counted, a write to a register
absent from the Tenant view is counted and discarded, a register of a gated block answers as R399 says, and a plain register
takes its fields by their access codes; and what a configuration request gets.
(Model: the order of the checks and what a gate covers are log entry 30; configuration space is log entry 32.) -/
def Obligations.RegisterAccesses : Prop :=
  (∀ (s : State) (src : RegSrc) (off v : Nat) (be : BitVec 8) (val : Word), Live s → answers s src = true → ratioBad s = none →
    viewOff src off = some v →
    let n := val.toNat
    (be ≠ 0xFF → ∃ t, exec (.registerWrite src off be val) s = .next t ∧ t = { s with regs := t.regs } ∧
      fget t .ID_VIEW [] Fld.ID_VIEW_PARTIAL = min (2 ^ 16 - 1) (fget s .ID_VIEW [] Fld.ID_VIEW_PARTIAL + 1) ∧
      RegsOnly s t [RegId.ID_VIEW.off []]) ∧
    (land s src v = .absent → exec (.registerRead src off be) s = .next (emit s (.data (srcCode src) 0 0 [])) ∧
      ∃ t, exec (.registerWrite src off 0xFF val) s = .next t ∧ t = { s with regs := t.regs } ∧
        fget t .ID_VIEW [] Fld.ID_VIEW_DENIED = min (2 ^ 32 - 1) (fget s .ID_VIEW [] Fld.ID_VIEW_DENIED + 1) ∧
        RegsOnly s t [RegId.ID_VIEW.off []]) ∧
    (∀ bit, land s src v = .gated bit → ∃ t u, exec (.registerRead src off be) s = .next t ∧
      exec (.registerWrite src off 0xFF val) s = .next u ∧
      t.out = s.out ++ [.data (srcCode src) (if src = .bar0 ∨ src = .bar2 then 3 else 0) 0 []] ∧ u.out = s.out ∧
      fget u .CLK_STAT [] Fld.CLK_STAT_GATED_ACC = min (2 ^ 16 - 1) (fget s .CLK_STAT [] Fld.CLK_STAT_GATED_ACC + 1) ∧
      t.regs = u.regs ∧ u.log.waiting.length = s.log.waiting.length + 1 ∧ u.mem = s.mem ∧ RegsOnly s u [RegId.CLK_STAT.off []]) ∧
    (∀ ix, land s src v = .reg .ID_DEVICE ix → exec (.registerRead src off be) s =
      .next (emit s (.data (srcCode src) 0 (rget s .ID_DEVICE ix &&& readMask RegId.ID_DEVICE.desc (tenantSrc src) &&& byteMask be) [])) ∧
      (opMask RegId.ID_DEVICE.desc = 0 → rget s .ID_DEVICE ix < 2 ^ 64 → ∃ t, exec (.registerWrite src off 0xFF val) s = .next t ∧
        ∀ f ∈ RegId.ID_DEVICE.desc.fields, fget t .ID_DEVICE ix f.fld = fget s .ID_DEVICE ix f.fld)) ∧
    (∀ (ix : List Nat) (r : RegId), r ∈ [.SP_CFG, .LOG_CFG, .KV_CFG, .HRD_AVG, .THM_LIM, .RST_CFG, .ECC_CFG] → land s src v = .reg r ix →
      tenantSrc src = false → ∃ t, exec (.registerWrite src off 0xFF val) s = .next t ∧ t = { s with regs := t.regs } ∧
        (∀ f ∈ r.desc.fields, f.acc = .rw → fget t r ix f.fld = bits n f.fld.hi f.fld.lo) ∧
        (∀ f ∈ r.desc.fields, f.acc = .ro → fget t r ix f.fld = fget s r ix f.fld) ∧ RegsOnly s t [r.off ix]) ∧
    (∀ (ix : List Nat) (r : RegId), land s src v = .reg r ix → tenantSrc src = false →
      Becomes s (.registerWrite src off 0xFF val) (regWrite false r ix (writeData r.desc false (rget s r ix) n) (bare s)) ∧
      (r ∉ [.MEM_ILV_STAGE, .HP_HDM_SHARE, .DMA_CH_CFG, .NB_S_CMD, .NB_CAP, .TC_CTL, .QD_SQ_BASE, .QD_CQ_BASE, .QD_Q_CFG, .QD_Q_CTL,
          .QD_DB_SQ, .QD_DB_CQ, .SYN_ID, .SYN_CFG, .SYN_RT, .HP_ROLE, .LOG_CTL, .PWR_CEILING, .HRD_SLOPE_CEIL, .CLK_MGMT, .CLK_GATE,
          .CLK_OBS, .CLK_BYPASS, .THM_COOL, .BOOT_FW_CTL, .RST_CTL, .LCS_TENANT, .LCS_GRADE, .LCS_AUTH_CTL] →
        ∃ t, exec (.registerWrite src off 0xFF val) s = .next t ∧ t = { s with regs := t.regs } ∧
          rget t r ix = writeWord r.desc (rget s r ix) (writeData r.desc false (rget s r ix) n) ∧ RegsOnly s t [r.off ix]))) ∧
  (∀ s : State, Live s → ∀ (p : Fin 2) (w : Bool), portRole s p = 1 →
      (fget s .BOOT_STAT [] Fld.BOOT_STAT_STAGE ≤ 4 → exec (.configRequest p w) s = .next (emit s (.completion p 2 false []))) ∧
      (4 < fget s .BOOT_STAT [] Fld.BOOT_STAT_STAGE →
        exec (.configRequest p true) s = .next (emit s (.completion p 0 false [])) ∧
        ∃ t d, exec (.configRequest p false) s = .next t ∧ t = { s with freeCtr := s.freeCtr + 4, out := t.out } ∧
          t.out = s.out ++ [.completion p 0 false d] ∧ d.length = 4))

/-! ### Bring-up, reset and the package -/

/-- R359, R423, R424, R442, R466, R467, R469: what the input supply, RESET_N, PERST# and the watchdog do.
(Model: log entries 118, 119 and 121.) -/
def Obligations.ResetSources : Prop :=
  ∀ (s : State), Inv s →
    let cold := fun (i : Instr) (bit : Nat) => ∃ t, exec i s = .next t ∧ ColdBegun s t bit
    (s.boot.vin = false → s.boot.life ≠ .dark →
      (s.boot.resetN = false → cold .powerOn 1) ∧
      (s.boot.resetN = true → exec .powerOn s = .next { s with boot := { s.boot with vin := true } })) ∧
    (s.boot.vin = true → exec .powerOn s = .next s) ∧
    (s.boot.resetN = false → ∃ t, exec .resetNAssert s = .next t ∧
      t = { s with boot := { s.boot with resetN := true }, out := t.out } ∧ t.alive = false ∧
      (s.boot.life ≠ .unpowered → t.out = s.out ++ spiPins.map (fun n => .pin n 2))) ∧
    (s.boot.resetN = true →
      (s.boot.vin = true → s.boot.life ≠ .dark → cold .resetNRelease 2) ∧
      (s.boot.vin = false → exec .resetNRelease s = .next { s with boot := { s.boot with resetN := false } })) ∧
    (∀ p : Fin 2,
      (tbit (fget s .RST_CFG [] Fld.RST_CFG_PERST_COLD) p = true → portRole s p = 1 → canReset s = true → cold (.perstCold p) (4 + p.val)) ∧
      (tbit (fget s .RST_CFG [] Fld.RST_CFG_PERST_COLD) p = false → s.alive = true → hostUp s p = true →
        s.host.reqs.filter (fun r => r.port == p.val) = [] → s.host.unmaps = [] → ∃ t, exec (.perstCold p) s = .next t ∧
          t = { s with regs := t.regs } ∧ hostUp t p = false ∧ RegsOnly s t [RegId.HP_LINK_STAT.off (linkIx p.val)])) ∧
    (s.alive = true → s.boot.wdog.isSome = true →
      exec .watchdogService s = .next { s with boot := { s.boot with wdog := some s.tick } }) ∧
    (canReset s = true → s.boot.wdog.isSome = true → fbit s .RST_CFG [] Fld.RST_CFG_WDOG_EN = true → s.boot.life = .run →
      cold .watchdogExpire 6) ∧
    (canReset s = true → fbit s .RST_CFG [] Fld.RST_CFG_WDOG_EN = false → exec .watchdogExpire s = .next s) ∧
    (s.boot.life = .unpowered →
      exec .standbyRailUp s = .next { s with boot := { s.boot with life := .standby } }) ∧
    (∃ t, exec .powerRemoved s = .next t ∧ t.boot.life = .unpowered ∧ t.boot.vin = false ∧ t.mem = s.mem ∧
      (∀ r : RegId, r.desc.dims = [] → r.desc.domain = .powerOn → rget t r [] = resetWord r []) ∧
      (∀ r : RegId, r.desc.dims = [] → r.desc.domain ≠ .powerOn → rget t r [] = rget s r []))

/-- R425–R427, R429, R430, R432–R437: a stage that completes latches its tick and the next begins; reaching the last the device
reports ready; a stage that fails halts the device with the stage and the code in BOOT_FAIL.
(Model: the stage's findings are its operand, log entry 122; also log entries 116, 117, 120 and 182–185.) -/
def Obligations.BringUpStages : Prop :=
  ∀ (s : State) (r : StageResult), Live s →
    let st := fget s .BOOT_STAT [] Fld.BOOT_STAT_STAGE
    let w := stageWork st r (bare s)
    let done := fun (t : State) => fget t .BOOT_STAT [] Fld.BOOT_STAT_STAGE = st + 1 ∧ rget t .BOOT_TICK [st] = t.tick ∧
      .pldm (st + 1) 0 ∈ t.out
    (0 < st → st < 14 → (st = 12 → s.boot.meas.1 = 4) → w.1 = none →
      ¬ (st = 1 ∧ fget w.2 .PWR_DOM_STAT [1050] Fld.PWR_DOM_STAT_CAP_PCT = 0) → w.2.host.hit = [] →
      fget w.2 .BOOT_STAT [] Fld.BOOT_STAT_STAGE = st → w.2.tick < 2 ^ 64 →
      ∃ t, exec (.bringupStageComplete r) s = .next t ∧ done t ∧ (st = 13 → t.ready = true) ∧ (st ≠ 13 → t.ready = w.2.ready) ∧
        t.mem = Memory.norm w.2.mem ∧ t.clu = w.2.clu ∧ t.topo = w.2.topo ∧
        t.log.waiting.length = w.2.log.waiting.length + (if st = 5 then w.2.topo.out.length else 0)) ∧
    (∀ h : Halt, 0 < st → st < 14 → w.1 = some h → h.code < 256 → h.kind < 16 → h.idx < 4096 → h.det < 2 ^ 36 →
      ¬ (st = 1 ∧ fget w.2 .PWR_DOM_STAT [1050] Fld.PWR_DOM_STAT_CAP_PCT = 0) → w.2.host.hit = [] →
      fget w.2 .BOOT_STAT [] Fld.BOOT_STAT_STAGE = st → ∃ t, exec (.bringupStageComplete r) s = .next t ∧
        t.alive = false ∧ t.boot.life = .halted ∧ fget t .BOOT_STAT [] Fld.BOOT_STAT_HALTED = 1 ∧
        fget t .BOOT_FAIL [] Fld.BOOT_FAIL_CODE = h.code ∧ fget t .BOOT_FAIL [] Fld.BOOT_FAIL_STAGE = st ∧
        fget t .BOOT_FAIL [] Fld.BOOT_FAIL_KIND = h.kind ∧ fget t .BOOT_FAIL [] Fld.BOOT_FAIL_INDEX = h.idx ∧
        fget t .BOOT_FAIL [] Fld.BOOT_FAIL_DETAIL = h.det ∧ t.out = w.2.out ++ [.pin "ALERT_N" 0, .pldm st h.code]) ∧
    (st = 4 → (∀ k, fwSelect (bare s) r.slots = .inl k → w.1 = none ∧
        fget w.2 .BOOT_FW [] Fld.BOOT_FW_SLOT = Fld.cut Fld.BOOT_FW_SLOT k ∧
        fget w.2 .BOOT_FW [] Fld.BOOT_FW_SVN = leNat (imgBytes (lget [] r.slots k) 8 1) ∧ w.2.boot.wdog = some s.tick ∧
        w.2.boot.spdm = (List.range 6).map (fun i => rget w.2 .BOOT_FW_DIGEST [i]) ∧
        ∀ i < 6, rget w.2 .BOOT_FW_DIGEST [i] = leNat (imgBytes (lget [] r.slots k) (112 + 8 * i) 8)) ∧
      (∀ a b, fwSelect (bare s) r.slots = .inr (a, b) → w = (some ⟨3, 0, 0, b * 16 + a⟩, bare s))) ∧
    (st = 2 → (∀ i, r.fuses.findIdx? (fun b => (fuseLoad b).isNone) = some i → w = (some ⟨2, 0, 0, i % 256⟩, bare s)) ∧
      ((∀ b ∈ r.fuses, (fuseLoad b).isSome = true) → r.halt = none → w.1 = none ∧ w.2.boot.fuses = r.fuses.filterMap fuseLoad)) ∧
    (st = 7 → (w.1 = none ↔ ∀ b ∈ r.bonds, (sameBundle r.bonds b).length ≤ 2) ∧
      (∀ h, w.1 = some h → h.code = 6 ∧ h.kind = 3 ∧ ∃ b ∈ r.bonds, 2 < (sameBundle r.bonds b).length ∧ h.idx = b.1 ∧ h.det = b.2.1)) ∧
    (st = 10 → (w.1 = none ↔ ∃ c < 1024, isOut (s.boot.frr.foldl frrApply (bare s)) c = false)) ∧
    (st = 12 → w.1 = none ∧ w.2.regs = s.regs ∧ (s.boot.meas.1 ≠ 4 → exec (.bringupStageComplete r) s = .next s) ∧
      ∀ (m : Measured) (sum : Nat), let u := measureStep m s
        let mean := (sum + m.pin) / 100000
        (s.boot.meas = (1, 99, sum) → u.boot.meas = (2, 0, 0) ∧
          fget u .PWR_REF [] Fld.PWR_REF_IDLE = Fld.cut Fld.PWR_REF_IDLE mean ∧ RegsOnly s u [RegId.PWR_REF.off []]) ∧
        (s.boot.meas = (3, 99, sum) → u.boot.meas = (4, 0, 0) ∧
          fget u .PWR_REF [] Fld.PWR_REF_BALLAST_MAX = Fld.cut Fld.PWR_REF_BALLAST_MAX mean ∧ RegsOnly s u [RegId.PWR_REF.off []])) ∧
    (st = 0 ∨ 14 ≤ st → exec (.bringupStageComplete r) s = .next s)

/-- R468: IDCODE shifts out the version, part 0xD5A1 and maker; BYPASS always acts; the instructions that drive or sample
contacts act only while RESET_N is low, and as BYPASS at other times; TRST_N holds the port in reset.
(Model: the maker's code is open, log entry 28; the instruction after a port reset is log entry 88.) -/
def Obligations.TestPortInstructions : Prop :=
  ∀ (s : State), Inv s →
    let took := fun (i : Instr) (ir : TapIr) (v : Nat) =>
      exec i s = .next { s with boot := { s.boot with tap := ir }, out := s.out ++ [.tap (tapName ir) v] }
    let driving : List (Instr × TapIr) := [(.extest, .extest), (.extestPulse, .extestPulse), (.extestTrain, .extestTrain),
      (.intest, .intest), (.clamp, .clamp), (.samplePreload, .sample)]
    (s.boot.trst = false → s.boot.life ≠ .unpowered →
      took .bypass .bypass 0 ∧ took .idcode .idcode (idcode s) ∧ idcode s % 2 = 1 ∧ bits (idcode s) 27 12 = 0xD5A1 ∧
      bits (idcode s) 31 28 = fget s .ID_DEVICE [] Fld.ID_DEVICE_STEP_MAJOR % 16 ∧
      (s.boot.resetN = true → ∀ x ∈ driving, took x.1 x.2 0) ∧
      (s.boot.resetN = false → ∀ x ∈ driving, took x.1 .bypass 0)) ∧
    (s.boot.trst = true → ∀ x ∈ driving ++ [(.bypass, .bypass), (.idcode, .idcode)], exec x.1 s = .next s) ∧
    (∃ t, exec (.tapReset true) s = .next t ∧ t = { s with boot := { s.boot with trst := true, tap := .idcode } }) ∧
    (exec (.tapReset false) s = .next { s with boot := { s.boot with trst := false } })

/-! ### The block as a whole -/

/-- With no command waiting the block's tick counts while the always-on domain runs (the model's choice, log entries 24
and 48). R299: an offset to the parent is taken up by 2 or by 0 in place of 1, at most once in 10,000 counts; offsets are in quarters of 1 ns. -/
def Obligations.IdleBlockTicks : Prop :=
  ∀ (s : State), s.pending = [] →
    let due := 4 ≤ s.syn.slew.natAbs ∧ s.syn.slewAt + 9999 ≤ s.tick
    (s.alive = true → s.counts = true) ∧ (s.counts = false → step s = .next s) ∧
    (s.counts = true →
      (¬ due → step s = .next { s with tick := s.tick + 1 }) ∧
      (due → 0 < s.syn.slew → step s = .next { s with
        tick := s.tick + 2, syn := { s.syn with slew := s.syn.slew - 4, slewAt := s.tick + 2 } }) ∧
      (due → s.syn.slew < 0 → step s = .next { s with syn := { s.syn with slew := s.syn.slew + 4, slewAt := s.tick } }))

/-- R423, R425: what holds right after reset. Every register the spec gives a reset value has it; no stage of bring-up is
complete and nothing waits.
(Model: fuse and ledger fields hold the values of log entry 3, memory that nothing has written reads as log entry 15 says,
and RAISES_LEFT is log entry 90.) -/
def Obligations.ResetState : Prop :=
  Live State.reset ∧ State.reset.pending = [] ∧ State.reset.mem = [] ∧ State.reset.tick = 0 ∧ State.reset.ready = false ∧
  (∀ (r : RegId) (ix : List Nat), rget State.reset r ix = resetWord r ix) ∧
  fget State.reset .BOOT_STAT [] Fld.BOOT_STAT_STAGE = 1 ∧ rget State.reset .RST_CAUSE [] = 2 ∧
  rget State.reset .ID_DEVICE [] = 0xD5A000100000100 ∧ fget State.reset .RST_CFG [] Fld.RST_CFG_WDOG_EN = 1 ∧
  fget State.reset .BOOT_FW_CTL [] Fld.BOOT_FW_CTL_RAISES_LEFT = 31 ∧ ratioBad State.reset = none

/-- Every step keeps memory in its canonical form, no back-invalidate half asked, and the queue's order: the command at the
front leaves it and no command enters. -/
def Obligations.EveryStepKeepsItsInvariant : Prop :=
  ∀ (s t : State), Inv s → step s = .next t → Inv t ∧ t.pending = s.pending.tail

/-- R397: no command is refused, and the one fault is a register access or a command fetch while CLK_MGMT holds a ratio
outside 2 to 8, which the spec leaves undefined. -/
def Obligations.TheOnlyFaultIsTheClockRatio : Prop :=
  (∀ (s : State) (r : Refusal), step s ≠ .refused r) ∧
  (∀ (s : State), ratioBad s = none → ∃ t, step s = .next t) ∧
  (∀ (s : State), (∃ c ∈ s.pending.head?, ∃ (a : RegSrc) (v : Word), c = .rstCtlCold a v ∨ c = .synEnSet a v ∨ c = .fwCommit a v) →
    s.alive = true → ratioBad s ≠ none → step s = .fault .mgmtClockRatio)
end

