-- ==== Sys2Proof/Laws/Access.lean ====
section
/-! SUPPORT. What an access meets on its way: with every clock running it waits for none. -/

namespace Sys2Proof.Machine

theorem meshPath_lt : ∀ a, a < 16 → ∀ b, b < 16 → ∀ t ∈ meshPath a b, t < 16 := by decide

theorem towerQuad_lt {t : Nat} (h : t < 16) : towerQuad t < 4 := by unfold towerQuad; omega

theorem niTower_lt {ni t : Nat} (h : niTower ni = some t) : t < 16 := by
  unfold niTower at h
  split at h
  · simp only [Option.some.injEq] at h; omega
  · split at h <;> simp_all <;> omega

/-- With the routers and the mesh running no path stops. -/
theorem pathStops_of_clear {s : State} {a b : Nat} (h : (List.range 20).all (fun i => !(noClock s (2064 + i))) = true)
    (ha : a < 16) (hb : b < 16) : pathStops s a b = false := by
  have run : ∀ i, i < 20 → noClock s (2064 + i) = false := fun i hi => by
    have := List.all_eq_true.mp h i (List.mem_range.mpr hi); simpa using this
  have lt := meshPath_lt a ha b hb
  unfold pathStops
  rw [Bool.or_eq_false_iff, List.any_eq_false, List.any_eq_false]
  refine ⟨fun t ht => ?_, fun t ht => ?_⟩
  · simp [run t (by have := lt t ht; omega)]
  · have q := towerQuad_lt (lt t (List.mem_of_mem_dropLast ht))
    have := run (16 + towerQuad t) (by omega)
    rw [show 2064 + (16 + towerQuad t) = 2080 + towerQuad t by omega] at this
    simp [this]

/-- An access whose way is clear meets no island without a clock, whichever interface makes it. -/
theorem clockStops_of_clear {s : State} {a n : Nat} (h : wayClear s a n = true) (ni : Nat) : clockStops s ni a n = false := by
  unfold wayClear at h
  rw [Bool.and_eq_true] at h
  obtain ⟨hc, hr⟩ := h
  have run : ∀ i, i < 20 → noClock s (2064 + i) = false := fun i hi => by
    have := List.all_eq_true.mp hr i (List.mem_range.mpr hi); simpa using this
  unfold clockStops
  rw [List.any_eq_false]
  intro c hm
  have := List.all_eq_true.mp hc c hm
  simp only [Bool.and_eq_true, decide_eq_true_eq, Bool.not_eq_true'] at this
  obtain ⟨⟨hl, h1⟩, h2⟩ := this
  have ht : c / 64 < 16 := by omega
  rw [h1, h2, Bool.and_false, Bool.false_or, Bool.false_or]
  cases hn : niTower ni with
  | none => simp [run (c / 64) (by omega)]
  | some t => simp [pathStops_of_clear hr (niTower_lt hn) ht, pathStops_of_clear hr ht (niTower_lt hn)]

/-- Such an access asks for nothing on its way. -/
theorem atClocks_of_clear {s : State} {a n : Nat} (h : wayClear s a n = true) (ni : Nat) : atClocks s ni a n = s := by
  simp [atClocks, clockStops_of_clear h ni, needs]

end Sys2Proof.Machine
end

