-- ==== Sys2Proof/Laws/Memory.lean ====
section
/-! SUPPORT. Laws of memory and of the sparse tables: every memory operation keeps the canonical form, a read after a write
gives what was written, and a write leaves every other byte alone. -/

namespace Sys2Proof.Machine

theorem Memory.wfFrom_mono {lo lo' : Nat} (h : lo' ≤ lo) : ∀ {m : Memory}, m.wfFrom lo = true → m.wfFrom lo' = true
  | [], _ => rfl
  | (a, b) :: r, w => by
    simp only [Memory.wfFrom, Bool.and_eq_true, decide_eq_true_eq] at w ⊢
    exact ⟨⟨by omega, w.1.2⟩, w.2⟩

theorem Memory.wfFrom_filter (p : Host.Cell → Bool) : ∀ {lo : Nat} {m : Memory}, m.wfFrom lo = true → Memory.wfFrom lo (m.filter p) = true
  | _, [], _ => rfl
  | lo, (a, b) :: r, w => by
    simp only [Memory.wfFrom, Bool.and_eq_true, decide_eq_true_eq] at w
    have ih := Memory.wfFrom_filter p w.2
    by_cases hp : p (a, b) = true
    · simp only [List.filter_cons_of_pos hp, Memory.wfFrom, Bool.and_eq_true, decide_eq_true_eq]
      exact ⟨w.1, ih⟩
    · rw [List.filter_cons_of_neg (by simpa using hp)]
      exact Memory.wfFrom_mono (by omega) ih

/-- Cells of the canonical form lie at or above its bound. -/
theorem Memory.wfFrom_le : ∀ {lo : Nat} {m : Memory}, m.wfFrom lo = true → ∀ c ∈ m, lo ≤ c.1
  | _, [], _, c, hc => by simp at hc
  | lo, (a, b) :: r, w, c, hc => by
    simp only [Memory.wfFrom, Bool.and_eq_true, decide_eq_true_eq] at w
    rcases List.mem_cons.mp hc with rfl | hr
    · exact w.1.1
    · have := Memory.wfFrom_le w.2 c hr; omega

/-- Two canonical lists, the first below the second. -/
theorem Memory.wfFrom_append {hi : Nat} {m2 : Memory} (h2 : m2.wfFrom hi = true) :
    ∀ {lo : Nat} {m1 : Memory}, lo ≤ hi → m1.wfFrom lo = true → (∀ c ∈ m1, c.1 < hi) → Memory.wfFrom lo (m1 ++ m2) = true
  | _, [], h, _, _ => Memory.wfFrom_mono h h2
  | lo, (a, b) :: r, _, w, hb => by
    simp only [Memory.wfFrom, Bool.and_eq_true, decide_eq_true_eq, List.cons_append] at w ⊢
    exact ⟨w.1, Memory.wfFrom_append h2 (hb (a, b) (by simp)) w.2 (fun c hc => hb c (by simp [hc]))⟩

theorem mput_wfFrom {a : Nat} (b : Byte) : ∀ {lo : Nat} {m : Memory}, lo ≤ a → m.wfFrom lo = true → (mput m a b).wfFrom lo = true
  | lo, [], h, _ => by
    unfold mput; split
    · rfl
    · next hb => simp [Memory.wfFrom, h, hb]
  | lo, (k, v) :: r, h, w => by
    simp only [Memory.wfFrom, Bool.and_eq_true, decide_eq_true_eq, bne_iff_ne, ne_eq] at w
    unfold mput; split
    · split
      · simp [Memory.wfFrom, w.1, w.2]
      · next h1 hb =>
        simp only [Memory.wfFrom, Bool.and_eq_true, decide_eq_true_eq, bne_iff_ne, ne_eq]
        exact ⟨⟨h, hb⟩, ⟨by omega, w.1.2⟩, w.2⟩
    · split
      · next hak =>
        subst hak; split
        · exact Memory.wfFrom_mono (by omega) w.2
        · next hb => simp [Memory.wfFrom, h, hb, w.2]
      · next h1 h2 =>
        simp only [Memory.wfFrom, Bool.and_eq_true, decide_eq_true_eq, bne_iff_ne, ne_eq]
        exact ⟨w.1, mput_wfFrom b (by omega) w.2⟩

/-- A byte write keeps the canonical form. -/
theorem mput_wf {m : Memory} (a : Nat) (b : Byte) (h : m.wf = true) : (mput m a b).wf = true := mput_wfFrom b (Nat.zero_le a) h

/-- A canonical memory is its own normal form. -/
theorem Memory.norm_of_wf {m : Memory} (h : m.wf = true) : m.norm = m := by simp [Memory.norm, h]

/-- The normal form is canonical. -/
theorem Memory.norm_wf (m : Memory) : m.norm.wf = true := by
  unfold Memory.norm; split
  · assumption
  · suffices h : ∀ (l acc : Memory), acc.wf = true → Memory.wf (l.foldl (fun acc c => mput acc c.1 c.2) acc) = true from h m [] rfl
    intro l
    induction l with
    | nil => intro acc h; exact h
    | cons c r ih => intro acc h; exact ih _ (mput_wf _ _ h)

theorem cellsOf_wfFrom : ∀ (d : List Byte) (a : Nat), (cellsOf a d).wfFrom a = true
  | [], _ => rfl
  | b :: r, a => by
    unfold cellsOf; split
    · exact Memory.wfFrom_mono (Nat.le_succ a) (cellsOf_wfFrom r (a + 1))
    · next hb => simp [Memory.wfFrom, hb, cellsOf_wfFrom r (a + 1)]

theorem cellsOf_lt : ∀ (d : List Byte) (a : Nat), ∀ c ∈ cellsOf a d, c.1 < a + d.length
  | [], _, c, h => by simp [cellsOf] at h
  | b :: r, a, c, h => by
    have ih := cellsOf_lt r (a + 1) c
    unfold cellsOf at h
    simp only [List.length_cons]
    split at h
    · have := ih h; omega
    · rcases List.mem_cons.mp h with rfl | h
      · simp
      · have := ih h; omega

theorem filter_ge_wfFrom (e : Nat) : ∀ {lo : Nat} {m : Memory}, m.wfFrom lo = true →
    Memory.wfFrom e (m.filter (fun c => decide (e ≤ c.1))) = true
  | _, [], _ => rfl
  | lo, (a, b) :: r, w => by
    simp only [Memory.wfFrom, Bool.and_eq_true, decide_eq_true_eq] at w
    by_cases h : e ≤ a
    · rw [List.filter_cons_of_pos (by simpa using h)]
      simp only [Memory.wfFrom, Bool.and_eq_true, decide_eq_true_eq]
      exact ⟨⟨h, w.1.2⟩, Memory.wfFrom_filter _ w.2⟩
    · rw [List.filter_cons_of_neg (by simpa using h)]
      exact filter_ge_wfFrom e w.2

/-- A write of bytes keeps the canonical form. -/
theorem mwrite_wf {m : Memory} (a : Nat) (d : List Byte) (h : m.wf = true) : (mwrite m a d).wf = true := by
  unfold mwrite Memory.wf
  refine Memory.wfFrom_append (hi := a) ?_ (Nat.zero_le a) (Memory.wfFrom_filter _ h) (fun c hc => by simpa using (List.mem_filter.mp hc).2)
  exact Memory.wfFrom_append (filter_ge_wfFrom _ h) (by omega) (cellsOf_wfFrom d a) (cellsOf_lt d a)

/-- Clearing a range keeps the canonical form. -/
theorem mclear_wf {m : Memory} (a n : Nat) (h : m.wf = true) : (mclear m a n).wf = true := Memory.wfFrom_filter _ h

/-! ### Reading -/

theorem mget_of_lt : ∀ {lo : Nat} {m : Memory} {x : Nat}, m.wfFrom lo = true → x < lo → mget m x = Memory.unlisted
  | _, [], _, _, _ => rfl
  | lo, (k, v) :: r, x, w, h => by
    simp only [Memory.wfFrom, Bool.and_eq_true, decide_eq_true_eq] at w
    rw [mget, if_neg (by omega)]
    exact mget_of_lt w.2 (by omega)

theorem mget_mput_from {a : Nat} (b : Byte) (x : Nat) : ∀ {lo : Nat} {m : Memory}, m.wfFrom lo = true →
    mget (mput m a b) x = if x = a then b else mget m x
  | lo, [], _ => by
    unfold mput; split
    · next hb => simp [mget, hb]
    · simp [mget]
  | lo, (k, v) :: r, w => by
    simp only [Memory.wfFrom, Bool.and_eq_true, decide_eq_true_eq] at w
    have ih := mget_mput_from b x w.2 (a := a)
    unfold mput; split
    · next h1 =>
      split
      · next hb =>
        by_cases hx : x = a
        · subst hx
          rw [if_pos rfl, hb, mget, if_neg (by omega)]
          exact mget_of_lt w.2 (by omega)
        · rw [if_neg hx]
      · by_cases hx : x = a
        · simp [mget, hx]
        · rw [mget, if_neg hx]
    · split
      · next h1 h2 =>
        subst h2
        split
        · next hb =>
          by_cases hx : x = a
          · subst hx
            rw [if_pos rfl, hb]
            exact mget_of_lt w.2 (by omega)
          · rw [if_neg hx, mget, if_neg hx]
        · by_cases hx : x = a
          · simp [mget, hx]
          · rw [mget, if_neg hx, if_neg hx, mget, if_neg hx]
      · next h1 h2 =>
        by_cases hk : x = k
        · subst hk
          rw [mget, if_pos rfl, if_neg (by omega), mget, if_pos rfl]
        · rw [mget, if_neg hk, ih, mget, if_neg hk]

/-- A byte reads as it was last written, and a write leaves every other byte alone. -/
theorem mget_mput {m : Memory} (h : m.wf = true) (a : Nat) (b : Byte) (x : Nat) :
    mget (mput m a b) x = if x = a then b else mget m x := mget_mput_from b x h

theorem mget_append {x : Nat} : ∀ {m1 m2 : Memory}, (∀ c ∈ m1, c.1 ≠ x) → mget (m1 ++ m2) x = mget m2 x
  | [], _, _ => rfl
  | (k, v) :: r, m2, h => by
    rw [List.cons_append, mget, if_neg (fun e => h (k, v) (by simp) e.symm)]
    exact mget_append (fun c hc => h c (by simp [hc]))

theorem mget_append_of_notin {x : Nat} : ∀ {m1 m2 : Memory}, (∀ c ∈ m2, c.1 ≠ x) → mget (m1 ++ m2) x = mget m1 x
  | [], m2, h => by
    have e := mget_append (m2 := []) h
    rw [List.append_nil] at e
    rw [List.nil_append, e]
  | (k, v) :: r, m2, h => by
    rw [List.cons_append, mget, mget, mget_append_of_notin h]

theorem mget_filter {x : Nat} (p : Nat → Bool) (hp : p x = true) : ∀ (m : Memory), mget (m.filter (fun c => p c.1)) x = mget m x
  | [] => rfl
  | (k, v) :: r => by
    by_cases hk : p k = true
    · rw [List.filter_cons_of_pos (by simpa using hk), mget, mget, mget_filter p hp r]
    · rw [List.filter_cons_of_neg (by simpa using hk), mget, if_neg (fun e : x = k => hk (by rw [← e]; exact hp)), mget_filter p hp r]

theorem mget_cellsOf : ∀ (d : List Byte) (a x : Nat), a ≤ x → mget (cellsOf a d) x = d.getD (x - a) Memory.unlisted
  | [], a, x, _ => by simp [cellsOf, mget]
  | b :: r, a, x, h => by
    by_cases hx : x = a
    · subst hx
      unfold cellsOf; split
      · next hb =>
        simp only [Nat.sub_self, List.getD_cons_zero, hb]
        exact mget_of_lt (cellsOf_wfFrom r (x + 1)) (Nat.lt_succ_self x)
      · simp [mget]
    · have e : x - a = (x - (a + 1)) + 1 := by omega
      have ih := mget_cellsOf r (a + 1) x (by omega)
      unfold cellsOf; split
      · rw [ih, e, List.getD_cons_succ]
      · rw [mget, if_neg hx, ih, e, List.getD_cons_succ]

/-- Bytes read as they were last written. -/
theorem mget_mwrite_in (m : Memory) (a : Nat) (d : List Byte) {x : Nat} (h : a ≤ x) (h' : x < a + d.length) :
    mget (mwrite m a d) x = d.getD (x - a) Memory.unlisted := by
  unfold mwrite
  rw [mget_append (fun c hc => by have := (List.mem_filter.mp hc).2; simp at this; omega),
      mget_append_of_notin (fun c hc => by have := (List.mem_filter.mp hc).2; simp at this; omega), mget_cellsOf d a x h]

/-- A write leaves every other byte alone. -/
theorem mget_mwrite_out (m : Memory) (a : Nat) (d : List Byte) {x : Nat} (h : x < a ∨ a + d.length ≤ x) :
    mget (mwrite m a d) x = mget m x := by
  unfold mwrite
  rcases h with h | h
  · rw [mget_append_of_notin, mget_filter (fun k => decide (k < a)) (by simpa using h)]
    intro c hc
    rcases List.mem_append.mp hc with hc | hc
    · have := Memory.wfFrom_le (cellsOf_wfFrom d a) c hc; omega
    · have := (List.mem_filter.mp hc).2; simp at this; omega
  · rw [mget_append (fun c hc => by have := (List.mem_filter.mp hc).2; simp at this; omega),
        mget_append (fun c hc => by have := cellsOf_lt d a c hc; omega),
        mget_filter (fun k => decide (a + d.length ≤ k)) (by simpa using h)]

/-- A cleared range reads 0, and every other byte as before. -/
theorem mget_mclear (m : Memory) (a n x : Nat) (h : x < a ∨ a + n ≤ x) : mget (mclear m a n) x = mget m x := by
  unfold mclear
  exact mget_filter (fun k => decide (k < a) || decide (a + n ≤ k)) (by simpa using h) m

theorem readFrom_eq : ∀ (n : Nat) {m : Memory} (a : Nat), m.wfFrom a = true →
    readFrom m a n = (List.range n).map (fun i => mget m (a + i))
  | 0, m, a, _ => by cases m <;> simp [readFrom]
  | n + 1, [], a, _ => by
    rw [List.range_succ_eq_map, List.map_cons, List.map_map, readFrom, readFrom_eq n (a + 1) (m := []) rfl]
    simp only [mget, Function.comp_def]
  | n + 1, (k, v) :: r, a, w => by
    have w' := w
    simp only [Memory.wfFrom, Bool.and_eq_true, decide_eq_true_eq, bne_iff_ne, ne_eq] at w
    rw [List.range_succ_eq_map, List.map_cons, List.map_map, readFrom]
    split
    · next hk =>
      subst hk
      rw [readFrom_eq n (k + 1) w.2]
      simp only [Nat.add_zero, mget, if_true, List.cons.injEq, true_and]
      refine List.map_congr_left (fun i _ => ?_)
      simp only [Function.comp, Nat.succ_eq_add_one]
      rw [if_neg (by omega)]; congr 1; omega
    · next hk =>
      have w2 : Memory.wfFrom (a + 1) ((k, v) :: r) = true := by
        simp only [Memory.wfFrom, Bool.and_eq_true, decide_eq_true_eq, bne_iff_ne, ne_eq]
        exact ⟨⟨by omega, w.1.2⟩, w.2⟩
      rw [readFrom_eq n (a + 1) w2]
      have h0 : mget ((k, v) :: r) (a + 0) = Memory.unlisted := mget_of_lt w2 (by omega)
      rw [h0]
      refine congrArg _ (List.map_congr_left (fun i _ => ?_))
      simp only [Function.comp, Nat.succ_eq_add_one]
      congr 1; omega

/-- Reading bytes is reading each of them. -/
theorem mread_eq {m : Memory} (h : m.wf = true) (a n : Nat) : mread m a n = (List.range n).map (fun i => mget m (a + i)) := by
  unfold mread
  suffices H : ∀ {lo : Nat} {m : Memory}, m.wfFrom lo = true →
      Memory.wfFrom a (m.dropWhile (fun c => decide (c.1 < a))) = true
        ∧ ∀ x, a ≤ x → mget (m.dropWhile (fun c => decide (c.1 < a))) x = mget m x by
    have := H h
    rw [readFrom_eq n a this.1]
    exact List.map_congr_left (fun i _ => this.2 _ (by omega))
  intro lo m
  induction m generalizing lo with
  | nil => intro _; exact ⟨rfl, fun _ _ => rfl⟩
  | cons c r ih =>
    obtain ⟨k, v⟩ := c
    intro w
    have w0 := w
    simp only [Memory.wfFrom, Bool.and_eq_true, decide_eq_true_eq, bne_iff_ne, ne_eq] at w
    by_cases hk : k < a
    · rw [List.dropWhile_cons_of_pos (by simpa using hk)]
      obtain ⟨i1, i2⟩ := ih w.2
      exact ⟨i1, fun x hx => by rw [i2 x hx, mget, if_neg (by omega)]⟩
    · rw [List.dropWhile_cons_of_neg (by simpa using hk)]
      refine ⟨?_, fun _ _ => rfl⟩
      simp only [Memory.wfFrom, Bool.and_eq_true, decide_eq_true_eq, bne_iff_ne, ne_eq]
      exact ⟨⟨by omega, w.1.2⟩, w.2⟩

/-! ### Sparse tables -/

/-- An entry reads as it was last written. -/
@[simp] theorem tfind_tput_self {α : Type} (k : Nat) (v : α) : ∀ (t : Tbl α), tfind (tput k v t) k = some v
  | [] => by simp [tput, tfind]
  | p :: r => by
    unfold tput; split
    · simp [tfind]
    · split
      · simp [tfind]
      · next h1 h2 =>
        have ih := tfind_tput_self k v r
        have : ¬ p.1 = k := fun e => h2 e.symm
        simpa [tfind, List.find?_cons, this] using ih

/-- Writing an entry leaves every other entry alone. -/
theorem tfind_tput_other {α : Type} {k j : Nat} (h : j ≠ k) (v : α) : ∀ (t : Tbl α), tfind (tput k v t) j = tfind t j
  | [] => by simp [tput, tfind, Ne.symm h]
  | p :: r => by
    have ih := tfind_tput_other h v r
    have hk : ¬ k = j := fun e => h e.symm
    unfold tput; split
    · simp [tfind, List.find?_cons, hk]
    · split
      · next h2 => subst h2; simp [tfind, hk]
      · simp only [tfind, List.find?_cons] at ih ⊢
        split
        · rfl
        · exact ih

@[simp] theorem tget_tput_self {α : Type} (d : α) (k : Nat) (v : α) (t : Tbl α) : tget d (tput k v t) k = v := by simp [tget]

theorem tget_tput_other {α : Type} (d : α) {k j : Nat} (h : j ≠ k) (v : α) (t : Tbl α) :
    tget d (tput k v t) j = tget d t j := by simp [tget, tfind_tput_other h]

end Sys2Proof.Machine
end

