-- ==== Sys2Proof/Laws/State.lean ====
section
/-! SUPPORT. What each shared update of the state leaves alone, field by field, and what it sets. -/

namespace Sys2Proof.Machine

/-! ### rput -/

@[simp] theorem rput_pending (s : State) (r : RegId) (ix : List Nat) (v : Nat) : (rput s r ix v).pending = s.pending := rfl
@[simp] theorem rput_tick (s : State) (r : RegId) (ix : List Nat) (v : Nat) : (rput s r ix v).tick = s.tick := rfl
@[simp] theorem rput_freeCtr (s : State) (r : RegId) (ix : List Nat) (v : Nat) : (rput s r ix v).freeCtr = s.freeCtr := rfl
@[simp] theorem rput_mem (s : State) (r : RegId) (ix : List Nat) (v : Nat) : (rput s r ix v).mem = s.mem := rfl
@[simp] theorem rput_chk (s : State) (r : RegId) (ix : List Nat) (v : Nat) : (rput s r ix v).chk = s.chk := rfl
@[simp] theorem rput_tcBytes (s : State) (r : RegId) (ix : List Nat) (v : Nat) : (rput s r ix v).tcBytes = s.tcBytes := rfl
@[simp] theorem rput_tcDev (s : State) (r : RegId) (ix : List Nat) (v : Nat) : (rput s r ix v).tcDev = s.tcDev := rfl
@[simp] theorem rput_topo (s : State) (r : RegId) (ix : List Nat) (v : Nat) : (rput s r ix v).topo = s.topo := rfl
@[simp] theorem rput_ecc (s : State) (r : RegId) (ix : List Nat) (v : Nat) : (rput s r ix v).ecc = s.ecc := rfl
@[simp] theorem rput_refr (s : State) (r : RegId) (ix : List Nat) (v : Nat) : (rput s r ix v).refr = s.refr := rfl
@[simp] theorem rput_tc (s : State) (r : RegId) (ix : List Nat) (v : Nat) : (rput s r ix v).tc = s.tc := rfl
@[simp] theorem rput_nb (s : State) (r : RegId) (ix : List Nat) (v : Nat) : (rput s r ix v).nb = s.nb := rfl
@[simp] theorem rput_nbFlight (s : State) (r : RegId) (ix : List Nat) (v : Nat) : (rput s r ix v).nbFlight = s.nbFlight := rfl
@[simp] theorem rput_nbOut (s : State) (r : RegId) (ix : List Nat) (v : Nat) : (rput s r ix v).nbOut = s.nbOut := rfl
@[simp] theorem rput_bucket (s : State) (r : RegId) (ix : List Nat) (v : Nat) : (rput s r ix v).bucket = s.bucket := rfl
@[simp] theorem rput_nbHeld (s : State) (r : RegId) (ix : List Nat) (v : Nat) : (rput s r ix v).nbHeld = s.nbHeld := rfl
@[simp] theorem rput_nbBlock (s : State) (r : RegId) (ix : List Nat) (v : Nat) : (rput s r ix v).nbBlock = s.nbBlock := rfl
@[simp] theorem rput_clu (s : State) (r : RegId) (ix : List Nat) (v : Nat) : (rput s r ix v).clu = s.clu := rfl
@[simp] theorem rput_jobOf (s : State) (r : RegId) (ix : List Nat) (v : Nat) : (rput s r ix v).jobOf = s.jobOf := rfl
@[simp] theorem rput_log (s : State) (r : RegId) (ix : List Nat) (v : Nat) : (rput s r ix v).log = s.log := rfl
@[simp] theorem rput_rcv (s : State) (r : RegId) (ix : List Nat) (v : Nat) : (rput s r ix v).rcv = s.rcv := rfl
@[simp] theorem rput_cmds (s : State) (r : RegId) (ix : List Nat) (v : Nat) : (rput s r ix v).cmds = s.cmds := rfl
@[simp] theorem rput_qd (s : State) (r : RegId) (ix : List Nat) (v : Nat) : (rput s r ix v).qd = s.qd := rfl
@[simp] theorem rput_nextCmd (s : State) (r : RegId) (ix : List Nat) (v : Nat) : (rput s r ix v).nextCmd = s.nextCmd := rfl
@[simp] theorem rput_turn (s : State) (r : RegId) (ix : List Nat) (v : Nat) : (rput s r ix v).turn = s.turn := rfl
@[simp] theorem rput_launches (s : State) (r : RegId) (ix : List Nat) (v : Nat) : (rput s r ix v).launches = s.launches := rfl
@[simp] theorem rput_graphs (s : State) (r : RegId) (ix : List Nat) (v : Nat) : (rput s r ix v).graphs = s.graphs := rfl
@[simp] theorem rput_chans (s : State) (r : RegId) (ix : List Nat) (v : Nat) : (rput s r ix v).chans = s.chans := rfl
@[simp] theorem rput_kv (s : State) (r : RegId) (ix : List Nat) (v : Nat) : (rput s r ix v).kv = s.kv := rfl
@[simp] theorem rput_mrg (s : State) (r : RegId) (ix : List Nat) (v : Nat) : (rput s r ix v).mrg = s.mrg := rfl
@[simp] theorem rput_floor (s : State) (r : RegId) (ix : List Nat) (v : Nat) : (rput s r ix v).floor = s.floor := rfl
@[simp] theorem rput_attends (s : State) (r : RegId) (ix : List Nat) (v : Nat) : (rput s r ix v).attends = s.attends := rfl
@[simp] theorem rput_pageRuns (s : State) (r : RegId) (ix : List Nat) (v : Nat) : (rput s r ix v).pageRuns = s.pageRuns := rfl
@[simp] theorem rput_syn (s : State) (r : RegId) (ix : List Nat) (v : Nat) : (rput s r ix v).syn = s.syn := rfl
@[simp] theorem rput_host (s : State) (r : RegId) (ix : List Nat) (v : Nat) : (rput s r ix v).host = s.host := rfl
@[simp] theorem rput_groups (s : State) (r : RegId) (ix : List Nat) (v : Nat) : (rput s r ix v).groups = s.groups := rfl
@[simp] theorem rput_readies (s : State) (r : RegId) (ix : List Nat) (v : Nat) : (rput s r ix v).readies = s.readies := rfl
@[simp] theorem rput_colls (s : State) (r : RegId) (ix : List Nat) (v : Nat) : (rput s r ix v).colls = s.colls := rfl
@[simp] theorem rput_pwr (s : State) (r : RegId) (ix : List Nat) (v : Nat) : (rput s r ix v).pwr = s.pwr := rfl
@[simp] theorem rput_clk (s : State) (r : RegId) (ix : List Nat) (v : Nat) : (rput s r ix v).clk = s.clk := rfl
@[simp] theorem rput_thm (s : State) (r : RegId) (ix : List Nat) (v : Nat) : (rput s r ix v).thm = s.thm := rfl
@[simp] theorem rput_lcs (s : State) (r : RegId) (ix : List Nat) (v : Nat) : (rput s r ix v).lcs = s.lcs := rfl
@[simp] theorem rput_boot (s : State) (r : RegId) (ix : List Nat) (v : Nat) : (rput s r ix v).boot = s.boot := rfl
@[simp] theorem rput_tenant (s : State) (r : RegId) (ix : List Nat) (v : Nat) : (rput s r ix v).tenant = s.tenant := rfl
@[simp] theorem rput_ready (s : State) (r : RegId) (ix : List Nat) (v : Nat) : (rput s r ix v).ready = s.ready := rfl
@[simp] theorem rput_out (s : State) (r : RegId) (ix : List Nat) (v : Nat) : (rput s r ix v).out = s.out := rfl

/-! ### fset -/

@[simp] theorem fset_pending (s : State) (r : RegId) (ix : List Nat) (f : Fld) (v : Nat) : (fset s r ix f v).pending = s.pending := rfl
@[simp] theorem fset_tick (s : State) (r : RegId) (ix : List Nat) (f : Fld) (v : Nat) : (fset s r ix f v).tick = s.tick := rfl
@[simp] theorem fset_freeCtr (s : State) (r : RegId) (ix : List Nat) (f : Fld) (v : Nat) : (fset s r ix f v).freeCtr = s.freeCtr := rfl
@[simp] theorem fset_mem (s : State) (r : RegId) (ix : List Nat) (f : Fld) (v : Nat) : (fset s r ix f v).mem = s.mem := rfl
@[simp] theorem fset_chk (s : State) (r : RegId) (ix : List Nat) (f : Fld) (v : Nat) : (fset s r ix f v).chk = s.chk := rfl
@[simp] theorem fset_tcBytes (s : State) (r : RegId) (ix : List Nat) (f : Fld) (v : Nat) : (fset s r ix f v).tcBytes = s.tcBytes := rfl
@[simp] theorem fset_tcDev (s : State) (r : RegId) (ix : List Nat) (f : Fld) (v : Nat) : (fset s r ix f v).tcDev = s.tcDev := rfl
@[simp] theorem fset_topo (s : State) (r : RegId) (ix : List Nat) (f : Fld) (v : Nat) : (fset s r ix f v).topo = s.topo := rfl
@[simp] theorem fset_ecc (s : State) (r : RegId) (ix : List Nat) (f : Fld) (v : Nat) : (fset s r ix f v).ecc = s.ecc := rfl
@[simp] theorem fset_refr (s : State) (r : RegId) (ix : List Nat) (f : Fld) (v : Nat) : (fset s r ix f v).refr = s.refr := rfl
@[simp] theorem fset_tc (s : State) (r : RegId) (ix : List Nat) (f : Fld) (v : Nat) : (fset s r ix f v).tc = s.tc := rfl
@[simp] theorem fset_nb (s : State) (r : RegId) (ix : List Nat) (f : Fld) (v : Nat) : (fset s r ix f v).nb = s.nb := rfl
@[simp] theorem fset_nbFlight (s : State) (r : RegId) (ix : List Nat) (f : Fld) (v : Nat) : (fset s r ix f v).nbFlight = s.nbFlight := rfl
@[simp] theorem fset_nbOut (s : State) (r : RegId) (ix : List Nat) (f : Fld) (v : Nat) : (fset s r ix f v).nbOut = s.nbOut := rfl
@[simp] theorem fset_bucket (s : State) (r : RegId) (ix : List Nat) (f : Fld) (v : Nat) : (fset s r ix f v).bucket = s.bucket := rfl
@[simp] theorem fset_nbHeld (s : State) (r : RegId) (ix : List Nat) (f : Fld) (v : Nat) : (fset s r ix f v).nbHeld = s.nbHeld := rfl
@[simp] theorem fset_nbBlock (s : State) (r : RegId) (ix : List Nat) (f : Fld) (v : Nat) : (fset s r ix f v).nbBlock = s.nbBlock := rfl
@[simp] theorem fset_clu (s : State) (r : RegId) (ix : List Nat) (f : Fld) (v : Nat) : (fset s r ix f v).clu = s.clu := rfl
@[simp] theorem fset_jobOf (s : State) (r : RegId) (ix : List Nat) (f : Fld) (v : Nat) : (fset s r ix f v).jobOf = s.jobOf := rfl
@[simp] theorem fset_log (s : State) (r : RegId) (ix : List Nat) (f : Fld) (v : Nat) : (fset s r ix f v).log = s.log := rfl
@[simp] theorem fset_rcv (s : State) (r : RegId) (ix : List Nat) (f : Fld) (v : Nat) : (fset s r ix f v).rcv = s.rcv := rfl
@[simp] theorem fset_cmds (s : State) (r : RegId) (ix : List Nat) (f : Fld) (v : Nat) : (fset s r ix f v).cmds = s.cmds := rfl
@[simp] theorem fset_qd (s : State) (r : RegId) (ix : List Nat) (f : Fld) (v : Nat) : (fset s r ix f v).qd = s.qd := rfl
@[simp] theorem fset_nextCmd (s : State) (r : RegId) (ix : List Nat) (f : Fld) (v : Nat) : (fset s r ix f v).nextCmd = s.nextCmd := rfl
@[simp] theorem fset_turn (s : State) (r : RegId) (ix : List Nat) (f : Fld) (v : Nat) : (fset s r ix f v).turn = s.turn := rfl
@[simp] theorem fset_launches (s : State) (r : RegId) (ix : List Nat) (f : Fld) (v : Nat) : (fset s r ix f v).launches = s.launches := rfl
@[simp] theorem fset_graphs (s : State) (r : RegId) (ix : List Nat) (f : Fld) (v : Nat) : (fset s r ix f v).graphs = s.graphs := rfl
@[simp] theorem fset_chans (s : State) (r : RegId) (ix : List Nat) (f : Fld) (v : Nat) : (fset s r ix f v).chans = s.chans := rfl
@[simp] theorem fset_kv (s : State) (r : RegId) (ix : List Nat) (f : Fld) (v : Nat) : (fset s r ix f v).kv = s.kv := rfl
@[simp] theorem fset_mrg (s : State) (r : RegId) (ix : List Nat) (f : Fld) (v : Nat) : (fset s r ix f v).mrg = s.mrg := rfl
@[simp] theorem fset_floor (s : State) (r : RegId) (ix : List Nat) (f : Fld) (v : Nat) : (fset s r ix f v).floor = s.floor := rfl
@[simp] theorem fset_attends (s : State) (r : RegId) (ix : List Nat) (f : Fld) (v : Nat) : (fset s r ix f v).attends = s.attends := rfl
@[simp] theorem fset_pageRuns (s : State) (r : RegId) (ix : List Nat) (f : Fld) (v : Nat) : (fset s r ix f v).pageRuns = s.pageRuns := rfl
@[simp] theorem fset_syn (s : State) (r : RegId) (ix : List Nat) (f : Fld) (v : Nat) : (fset s r ix f v).syn = s.syn := rfl
@[simp] theorem fset_host (s : State) (r : RegId) (ix : List Nat) (f : Fld) (v : Nat) : (fset s r ix f v).host = s.host := rfl
@[simp] theorem fset_groups (s : State) (r : RegId) (ix : List Nat) (f : Fld) (v : Nat) : (fset s r ix f v).groups = s.groups := rfl
@[simp] theorem fset_readies (s : State) (r : RegId) (ix : List Nat) (f : Fld) (v : Nat) : (fset s r ix f v).readies = s.readies := rfl
@[simp] theorem fset_colls (s : State) (r : RegId) (ix : List Nat) (f : Fld) (v : Nat) : (fset s r ix f v).colls = s.colls := rfl
@[simp] theorem fset_pwr (s : State) (r : RegId) (ix : List Nat) (f : Fld) (v : Nat) : (fset s r ix f v).pwr = s.pwr := rfl
@[simp] theorem fset_clk (s : State) (r : RegId) (ix : List Nat) (f : Fld) (v : Nat) : (fset s r ix f v).clk = s.clk := rfl
@[simp] theorem fset_thm (s : State) (r : RegId) (ix : List Nat) (f : Fld) (v : Nat) : (fset s r ix f v).thm = s.thm := rfl
@[simp] theorem fset_lcs (s : State) (r : RegId) (ix : List Nat) (f : Fld) (v : Nat) : (fset s r ix f v).lcs = s.lcs := rfl
@[simp] theorem fset_boot (s : State) (r : RegId) (ix : List Nat) (f : Fld) (v : Nat) : (fset s r ix f v).boot = s.boot := rfl
@[simp] theorem fset_tenant (s : State) (r : RegId) (ix : List Nat) (f : Fld) (v : Nat) : (fset s r ix f v).tenant = s.tenant := rfl
@[simp] theorem fset_ready (s : State) (r : RegId) (ix : List Nat) (f : Fld) (v : Nat) : (fset s r ix f v).ready = s.ready := rfl
@[simp] theorem fset_out (s : State) (r : RegId) (ix : List Nat) (f : Fld) (v : Nat) : (fset s r ix f v).out = s.out := rfl

/-! ### finc -/

@[simp] theorem finc_pending (s : State) (r : RegId) (ix : List Nat) (f : Fld) (n : Nat) : (finc s r ix f n).pending = s.pending := rfl
@[simp] theorem finc_tick (s : State) (r : RegId) (ix : List Nat) (f : Fld) (n : Nat) : (finc s r ix f n).tick = s.tick := rfl
@[simp] theorem finc_freeCtr (s : State) (r : RegId) (ix : List Nat) (f : Fld) (n : Nat) : (finc s r ix f n).freeCtr = s.freeCtr := rfl
@[simp] theorem finc_mem (s : State) (r : RegId) (ix : List Nat) (f : Fld) (n : Nat) : (finc s r ix f n).mem = s.mem := rfl
@[simp] theorem finc_chk (s : State) (r : RegId) (ix : List Nat) (f : Fld) (n : Nat) : (finc s r ix f n).chk = s.chk := rfl
@[simp] theorem finc_tcBytes (s : State) (r : RegId) (ix : List Nat) (f : Fld) (n : Nat) : (finc s r ix f n).tcBytes = s.tcBytes := rfl
@[simp] theorem finc_tcDev (s : State) (r : RegId) (ix : List Nat) (f : Fld) (n : Nat) : (finc s r ix f n).tcDev = s.tcDev := rfl
@[simp] theorem finc_topo (s : State) (r : RegId) (ix : List Nat) (f : Fld) (n : Nat) : (finc s r ix f n).topo = s.topo := rfl
@[simp] theorem finc_ecc (s : State) (r : RegId) (ix : List Nat) (f : Fld) (n : Nat) : (finc s r ix f n).ecc = s.ecc := rfl
@[simp] theorem finc_refr (s : State) (r : RegId) (ix : List Nat) (f : Fld) (n : Nat) : (finc s r ix f n).refr = s.refr := rfl
@[simp] theorem finc_tc (s : State) (r : RegId) (ix : List Nat) (f : Fld) (n : Nat) : (finc s r ix f n).tc = s.tc := rfl
@[simp] theorem finc_nb (s : State) (r : RegId) (ix : List Nat) (f : Fld) (n : Nat) : (finc s r ix f n).nb = s.nb := rfl
@[simp] theorem finc_nbFlight (s : State) (r : RegId) (ix : List Nat) (f : Fld) (n : Nat) : (finc s r ix f n).nbFlight = s.nbFlight := rfl
@[simp] theorem finc_nbOut (s : State) (r : RegId) (ix : List Nat) (f : Fld) (n : Nat) : (finc s r ix f n).nbOut = s.nbOut := rfl
@[simp] theorem finc_bucket (s : State) (r : RegId) (ix : List Nat) (f : Fld) (n : Nat) : (finc s r ix f n).bucket = s.bucket := rfl
@[simp] theorem finc_nbHeld (s : State) (r : RegId) (ix : List Nat) (f : Fld) (n : Nat) : (finc s r ix f n).nbHeld = s.nbHeld := rfl
@[simp] theorem finc_nbBlock (s : State) (r : RegId) (ix : List Nat) (f : Fld) (n : Nat) : (finc s r ix f n).nbBlock = s.nbBlock := rfl
@[simp] theorem finc_clu (s : State) (r : RegId) (ix : List Nat) (f : Fld) (n : Nat) : (finc s r ix f n).clu = s.clu := rfl
@[simp] theorem finc_jobOf (s : State) (r : RegId) (ix : List Nat) (f : Fld) (n : Nat) : (finc s r ix f n).jobOf = s.jobOf := rfl
@[simp] theorem finc_log (s : State) (r : RegId) (ix : List Nat) (f : Fld) (n : Nat) : (finc s r ix f n).log = s.log := rfl
@[simp] theorem finc_rcv (s : State) (r : RegId) (ix : List Nat) (f : Fld) (n : Nat) : (finc s r ix f n).rcv = s.rcv := rfl
@[simp] theorem finc_cmds (s : State) (r : RegId) (ix : List Nat) (f : Fld) (n : Nat) : (finc s r ix f n).cmds = s.cmds := rfl
@[simp] theorem finc_qd (s : State) (r : RegId) (ix : List Nat) (f : Fld) (n : Nat) : (finc s r ix f n).qd = s.qd := rfl
@[simp] theorem finc_nextCmd (s : State) (r : RegId) (ix : List Nat) (f : Fld) (n : Nat) : (finc s r ix f n).nextCmd = s.nextCmd := rfl
@[simp] theorem finc_turn (s : State) (r : RegId) (ix : List Nat) (f : Fld) (n : Nat) : (finc s r ix f n).turn = s.turn := rfl
@[simp] theorem finc_launches (s : State) (r : RegId) (ix : List Nat) (f : Fld) (n : Nat) : (finc s r ix f n).launches = s.launches := rfl
@[simp] theorem finc_graphs (s : State) (r : RegId) (ix : List Nat) (f : Fld) (n : Nat) : (finc s r ix f n).graphs = s.graphs := rfl
@[simp] theorem finc_chans (s : State) (r : RegId) (ix : List Nat) (f : Fld) (n : Nat) : (finc s r ix f n).chans = s.chans := rfl
@[simp] theorem finc_kv (s : State) (r : RegId) (ix : List Nat) (f : Fld) (n : Nat) : (finc s r ix f n).kv = s.kv := rfl
@[simp] theorem finc_mrg (s : State) (r : RegId) (ix : List Nat) (f : Fld) (n : Nat) : (finc s r ix f n).mrg = s.mrg := rfl
@[simp] theorem finc_floor (s : State) (r : RegId) (ix : List Nat) (f : Fld) (n : Nat) : (finc s r ix f n).floor = s.floor := rfl
@[simp] theorem finc_attends (s : State) (r : RegId) (ix : List Nat) (f : Fld) (n : Nat) : (finc s r ix f n).attends = s.attends := rfl
@[simp] theorem finc_pageRuns (s : State) (r : RegId) (ix : List Nat) (f : Fld) (n : Nat) : (finc s r ix f n).pageRuns = s.pageRuns := rfl
@[simp] theorem finc_syn (s : State) (r : RegId) (ix : List Nat) (f : Fld) (n : Nat) : (finc s r ix f n).syn = s.syn := rfl
@[simp] theorem finc_host (s : State) (r : RegId) (ix : List Nat) (f : Fld) (n : Nat) : (finc s r ix f n).host = s.host := rfl
@[simp] theorem finc_groups (s : State) (r : RegId) (ix : List Nat) (f : Fld) (n : Nat) : (finc s r ix f n).groups = s.groups := rfl
@[simp] theorem finc_readies (s : State) (r : RegId) (ix : List Nat) (f : Fld) (n : Nat) : (finc s r ix f n).readies = s.readies := rfl
@[simp] theorem finc_colls (s : State) (r : RegId) (ix : List Nat) (f : Fld) (n : Nat) : (finc s r ix f n).colls = s.colls := rfl
@[simp] theorem finc_pwr (s : State) (r : RegId) (ix : List Nat) (f : Fld) (n : Nat) : (finc s r ix f n).pwr = s.pwr := rfl
@[simp] theorem finc_clk (s : State) (r : RegId) (ix : List Nat) (f : Fld) (n : Nat) : (finc s r ix f n).clk = s.clk := rfl
@[simp] theorem finc_thm (s : State) (r : RegId) (ix : List Nat) (f : Fld) (n : Nat) : (finc s r ix f n).thm = s.thm := rfl
@[simp] theorem finc_lcs (s : State) (r : RegId) (ix : List Nat) (f : Fld) (n : Nat) : (finc s r ix f n).lcs = s.lcs := rfl
@[simp] theorem finc_boot (s : State) (r : RegId) (ix : List Nat) (f : Fld) (n : Nat) : (finc s r ix f n).boot = s.boot := rfl
@[simp] theorem finc_tenant (s : State) (r : RegId) (ix : List Nat) (f : Fld) (n : Nat) : (finc s r ix f n).tenant = s.tenant := rfl
@[simp] theorem finc_ready (s : State) (r : RegId) (ix : List Nat) (f : Fld) (n : Nat) : (finc s r ix f n).ready = s.ready := rfl
@[simp] theorem finc_out (s : State) (r : RegId) (ix : List Nat) (f : Fld) (n : Nat) : (finc s r ix f n).out = s.out := rfl

/-! ### fincWrap -/

@[simp] theorem fincWrap_pending (s : State) (r : RegId) (ix : List Nat) (f : Fld) (n : Nat) : (fincWrap s r ix f n).pending = s.pending := rfl
@[simp] theorem fincWrap_tick (s : State) (r : RegId) (ix : List Nat) (f : Fld) (n : Nat) : (fincWrap s r ix f n).tick = s.tick := rfl
@[simp] theorem fincWrap_freeCtr (s : State) (r : RegId) (ix : List Nat) (f : Fld) (n : Nat) : (fincWrap s r ix f n).freeCtr = s.freeCtr := rfl
@[simp] theorem fincWrap_mem (s : State) (r : RegId) (ix : List Nat) (f : Fld) (n : Nat) : (fincWrap s r ix f n).mem = s.mem := rfl
@[simp] theorem fincWrap_chk (s : State) (r : RegId) (ix : List Nat) (f : Fld) (n : Nat) : (fincWrap s r ix f n).chk = s.chk := rfl
@[simp] theorem fincWrap_tcBytes (s : State) (r : RegId) (ix : List Nat) (f : Fld) (n : Nat) : (fincWrap s r ix f n).tcBytes = s.tcBytes := rfl
@[simp] theorem fincWrap_tcDev (s : State) (r : RegId) (ix : List Nat) (f : Fld) (n : Nat) : (fincWrap s r ix f n).tcDev = s.tcDev := rfl
@[simp] theorem fincWrap_topo (s : State) (r : RegId) (ix : List Nat) (f : Fld) (n : Nat) : (fincWrap s r ix f n).topo = s.topo := rfl
@[simp] theorem fincWrap_ecc (s : State) (r : RegId) (ix : List Nat) (f : Fld) (n : Nat) : (fincWrap s r ix f n).ecc = s.ecc := rfl
@[simp] theorem fincWrap_refr (s : State) (r : RegId) (ix : List Nat) (f : Fld) (n : Nat) : (fincWrap s r ix f n).refr = s.refr := rfl
@[simp] theorem fincWrap_tc (s : State) (r : RegId) (ix : List Nat) (f : Fld) (n : Nat) : (fincWrap s r ix f n).tc = s.tc := rfl
@[simp] theorem fincWrap_nb (s : State) (r : RegId) (ix : List Nat) (f : Fld) (n : Nat) : (fincWrap s r ix f n).nb = s.nb := rfl
@[simp] theorem fincWrap_nbFlight (s : State) (r : RegId) (ix : List Nat) (f : Fld) (n : Nat) : (fincWrap s r ix f n).nbFlight = s.nbFlight := rfl
@[simp] theorem fincWrap_nbOut (s : State) (r : RegId) (ix : List Nat) (f : Fld) (n : Nat) : (fincWrap s r ix f n).nbOut = s.nbOut := rfl
@[simp] theorem fincWrap_bucket (s : State) (r : RegId) (ix : List Nat) (f : Fld) (n : Nat) : (fincWrap s r ix f n).bucket = s.bucket := rfl
@[simp] theorem fincWrap_nbHeld (s : State) (r : RegId) (ix : List Nat) (f : Fld) (n : Nat) : (fincWrap s r ix f n).nbHeld = s.nbHeld := rfl
@[simp] theorem fincWrap_nbBlock (s : State) (r : RegId) (ix : List Nat) (f : Fld) (n : Nat) : (fincWrap s r ix f n).nbBlock = s.nbBlock := rfl
@[simp] theorem fincWrap_clu (s : State) (r : RegId) (ix : List Nat) (f : Fld) (n : Nat) : (fincWrap s r ix f n).clu = s.clu := rfl
@[simp] theorem fincWrap_jobOf (s : State) (r : RegId) (ix : List Nat) (f : Fld) (n : Nat) : (fincWrap s r ix f n).jobOf = s.jobOf := rfl
@[simp] theorem fincWrap_log (s : State) (r : RegId) (ix : List Nat) (f : Fld) (n : Nat) : (fincWrap s r ix f n).log = s.log := rfl
@[simp] theorem fincWrap_rcv (s : State) (r : RegId) (ix : List Nat) (f : Fld) (n : Nat) : (fincWrap s r ix f n).rcv = s.rcv := rfl
@[simp] theorem fincWrap_cmds (s : State) (r : RegId) (ix : List Nat) (f : Fld) (n : Nat) : (fincWrap s r ix f n).cmds = s.cmds := rfl
@[simp] theorem fincWrap_qd (s : State) (r : RegId) (ix : List Nat) (f : Fld) (n : Nat) : (fincWrap s r ix f n).qd = s.qd := rfl
@[simp] theorem fincWrap_nextCmd (s : State) (r : RegId) (ix : List Nat) (f : Fld) (n : Nat) : (fincWrap s r ix f n).nextCmd = s.nextCmd := rfl
@[simp] theorem fincWrap_turn (s : State) (r : RegId) (ix : List Nat) (f : Fld) (n : Nat) : (fincWrap s r ix f n).turn = s.turn := rfl
@[simp] theorem fincWrap_launches (s : State) (r : RegId) (ix : List Nat) (f : Fld) (n : Nat) : (fincWrap s r ix f n).launches = s.launches := rfl
@[simp] theorem fincWrap_graphs (s : State) (r : RegId) (ix : List Nat) (f : Fld) (n : Nat) : (fincWrap s r ix f n).graphs = s.graphs := rfl
@[simp] theorem fincWrap_chans (s : State) (r : RegId) (ix : List Nat) (f : Fld) (n : Nat) : (fincWrap s r ix f n).chans = s.chans := rfl
@[simp] theorem fincWrap_kv (s : State) (r : RegId) (ix : List Nat) (f : Fld) (n : Nat) : (fincWrap s r ix f n).kv = s.kv := rfl
@[simp] theorem fincWrap_mrg (s : State) (r : RegId) (ix : List Nat) (f : Fld) (n : Nat) : (fincWrap s r ix f n).mrg = s.mrg := rfl
@[simp] theorem fincWrap_floor (s : State) (r : RegId) (ix : List Nat) (f : Fld) (n : Nat) : (fincWrap s r ix f n).floor = s.floor := rfl
@[simp] theorem fincWrap_attends (s : State) (r : RegId) (ix : List Nat) (f : Fld) (n : Nat) : (fincWrap s r ix f n).attends = s.attends := rfl
@[simp] theorem fincWrap_pageRuns (s : State) (r : RegId) (ix : List Nat) (f : Fld) (n : Nat) : (fincWrap s r ix f n).pageRuns = s.pageRuns := rfl
@[simp] theorem fincWrap_syn (s : State) (r : RegId) (ix : List Nat) (f : Fld) (n : Nat) : (fincWrap s r ix f n).syn = s.syn := rfl
@[simp] theorem fincWrap_host (s : State) (r : RegId) (ix : List Nat) (f : Fld) (n : Nat) : (fincWrap s r ix f n).host = s.host := rfl
@[simp] theorem fincWrap_groups (s : State) (r : RegId) (ix : List Nat) (f : Fld) (n : Nat) : (fincWrap s r ix f n).groups = s.groups := rfl
@[simp] theorem fincWrap_readies (s : State) (r : RegId) (ix : List Nat) (f : Fld) (n : Nat) : (fincWrap s r ix f n).readies = s.readies := rfl
@[simp] theorem fincWrap_colls (s : State) (r : RegId) (ix : List Nat) (f : Fld) (n : Nat) : (fincWrap s r ix f n).colls = s.colls := rfl
@[simp] theorem fincWrap_pwr (s : State) (r : RegId) (ix : List Nat) (f : Fld) (n : Nat) : (fincWrap s r ix f n).pwr = s.pwr := rfl
@[simp] theorem fincWrap_clk (s : State) (r : RegId) (ix : List Nat) (f : Fld) (n : Nat) : (fincWrap s r ix f n).clk = s.clk := rfl
@[simp] theorem fincWrap_thm (s : State) (r : RegId) (ix : List Nat) (f : Fld) (n : Nat) : (fincWrap s r ix f n).thm = s.thm := rfl
@[simp] theorem fincWrap_lcs (s : State) (r : RegId) (ix : List Nat) (f : Fld) (n : Nat) : (fincWrap s r ix f n).lcs = s.lcs := rfl
@[simp] theorem fincWrap_boot (s : State) (r : RegId) (ix : List Nat) (f : Fld) (n : Nat) : (fincWrap s r ix f n).boot = s.boot := rfl
@[simp] theorem fincWrap_tenant (s : State) (r : RegId) (ix : List Nat) (f : Fld) (n : Nat) : (fincWrap s r ix f n).tenant = s.tenant := rfl
@[simp] theorem fincWrap_ready (s : State) (r : RegId) (ix : List Nat) (f : Fld) (n : Nat) : (fincWrap s r ix f n).ready = s.ready := rfl
@[simp] theorem fincWrap_out (s : State) (r : RegId) (ix : List Nat) (f : Fld) (n : Nat) : (fincWrap s r ix f n).out = s.out := rfl

/-! ### emit -/

@[simp] theorem emit_pending (s : State) (o : Output) : (emit s o).pending = s.pending := rfl
@[simp] theorem emit_tick (s : State) (o : Output) : (emit s o).tick = s.tick := rfl
@[simp] theorem emit_freeCtr (s : State) (o : Output) : (emit s o).freeCtr = s.freeCtr := rfl
@[simp] theorem emit_regs (s : State) (o : Output) : (emit s o).regs = s.regs := rfl
@[simp] theorem emit_mem (s : State) (o : Output) : (emit s o).mem = s.mem := rfl
@[simp] theorem emit_chk (s : State) (o : Output) : (emit s o).chk = s.chk := rfl
@[simp] theorem emit_tcBytes (s : State) (o : Output) : (emit s o).tcBytes = s.tcBytes := rfl
@[simp] theorem emit_tcDev (s : State) (o : Output) : (emit s o).tcDev = s.tcDev := rfl
@[simp] theorem emit_topo (s : State) (o : Output) : (emit s o).topo = s.topo := rfl
@[simp] theorem emit_ecc (s : State) (o : Output) : (emit s o).ecc = s.ecc := rfl
@[simp] theorem emit_refr (s : State) (o : Output) : (emit s o).refr = s.refr := rfl
@[simp] theorem emit_tc (s : State) (o : Output) : (emit s o).tc = s.tc := rfl
@[simp] theorem emit_nb (s : State) (o : Output) : (emit s o).nb = s.nb := rfl
@[simp] theorem emit_nbFlight (s : State) (o : Output) : (emit s o).nbFlight = s.nbFlight := rfl
@[simp] theorem emit_nbOut (s : State) (o : Output) : (emit s o).nbOut = s.nbOut := rfl
@[simp] theorem emit_bucket (s : State) (o : Output) : (emit s o).bucket = s.bucket := rfl
@[simp] theorem emit_nbHeld (s : State) (o : Output) : (emit s o).nbHeld = s.nbHeld := rfl
@[simp] theorem emit_nbBlock (s : State) (o : Output) : (emit s o).nbBlock = s.nbBlock := rfl
@[simp] theorem emit_clu (s : State) (o : Output) : (emit s o).clu = s.clu := rfl
@[simp] theorem emit_jobOf (s : State) (o : Output) : (emit s o).jobOf = s.jobOf := rfl
@[simp] theorem emit_log (s : State) (o : Output) : (emit s o).log = s.log := rfl
@[simp] theorem emit_rcv (s : State) (o : Output) : (emit s o).rcv = s.rcv := rfl
@[simp] theorem emit_cmds (s : State) (o : Output) : (emit s o).cmds = s.cmds := rfl
@[simp] theorem emit_qd (s : State) (o : Output) : (emit s o).qd = s.qd := rfl
@[simp] theorem emit_nextCmd (s : State) (o : Output) : (emit s o).nextCmd = s.nextCmd := rfl
@[simp] theorem emit_turn (s : State) (o : Output) : (emit s o).turn = s.turn := rfl
@[simp] theorem emit_launches (s : State) (o : Output) : (emit s o).launches = s.launches := rfl
@[simp] theorem emit_graphs (s : State) (o : Output) : (emit s o).graphs = s.graphs := rfl
@[simp] theorem emit_chans (s : State) (o : Output) : (emit s o).chans = s.chans := rfl
@[simp] theorem emit_kv (s : State) (o : Output) : (emit s o).kv = s.kv := rfl
@[simp] theorem emit_mrg (s : State) (o : Output) : (emit s o).mrg = s.mrg := rfl
@[simp] theorem emit_floor (s : State) (o : Output) : (emit s o).floor = s.floor := rfl
@[simp] theorem emit_attends (s : State) (o : Output) : (emit s o).attends = s.attends := rfl
@[simp] theorem emit_pageRuns (s : State) (o : Output) : (emit s o).pageRuns = s.pageRuns := rfl
@[simp] theorem emit_syn (s : State) (o : Output) : (emit s o).syn = s.syn := rfl
@[simp] theorem emit_host (s : State) (o : Output) : (emit s o).host = s.host := rfl
@[simp] theorem emit_groups (s : State) (o : Output) : (emit s o).groups = s.groups := rfl
@[simp] theorem emit_readies (s : State) (o : Output) : (emit s o).readies = s.readies := rfl
@[simp] theorem emit_colls (s : State) (o : Output) : (emit s o).colls = s.colls := rfl
@[simp] theorem emit_pwr (s : State) (o : Output) : (emit s o).pwr = s.pwr := rfl
@[simp] theorem emit_clk (s : State) (o : Output) : (emit s o).clk = s.clk := rfl
@[simp] theorem emit_thm (s : State) (o : Output) : (emit s o).thm = s.thm := rfl
@[simp] theorem emit_lcs (s : State) (o : Output) : (emit s o).lcs = s.lcs := rfl
@[simp] theorem emit_boot (s : State) (o : Output) : (emit s o).boot = s.boot := rfl
@[simp] theorem emit_tenant (s : State) (o : Output) : (emit s o).tenant = s.tenant := rfl
@[simp] theorem emit_ready (s : State) (o : Output) : (emit s o).ready = s.ready := rfl

/-! ### sendRep -/

@[simp] theorem sendRep_pending (s : State) (r : Report) : (sendRep s r).pending = s.pending := rfl
@[simp] theorem sendRep_tick (s : State) (r : Report) : (sendRep s r).tick = s.tick := rfl
@[simp] theorem sendRep_freeCtr (s : State) (r : Report) : (sendRep s r).freeCtr = s.freeCtr := rfl
@[simp] theorem sendRep_regs (s : State) (r : Report) : (sendRep s r).regs = s.regs := rfl
@[simp] theorem sendRep_mem (s : State) (r : Report) : (sendRep s r).mem = s.mem := rfl
@[simp] theorem sendRep_chk (s : State) (r : Report) : (sendRep s r).chk = s.chk := rfl
@[simp] theorem sendRep_tcBytes (s : State) (r : Report) : (sendRep s r).tcBytes = s.tcBytes := rfl
@[simp] theorem sendRep_tcDev (s : State) (r : Report) : (sendRep s r).tcDev = s.tcDev := rfl
@[simp] theorem sendRep_topo (s : State) (r : Report) : (sendRep s r).topo = s.topo := rfl
@[simp] theorem sendRep_ecc (s : State) (r : Report) : (sendRep s r).ecc = s.ecc := rfl
@[simp] theorem sendRep_refr (s : State) (r : Report) : (sendRep s r).refr = s.refr := rfl
@[simp] theorem sendRep_tc (s : State) (r : Report) : (sendRep s r).tc = s.tc := rfl
@[simp] theorem sendRep_nb (s : State) (r : Report) : (sendRep s r).nb = s.nb := rfl
@[simp] theorem sendRep_nbFlight (s : State) (r : Report) : (sendRep s r).nbFlight = s.nbFlight := rfl
@[simp] theorem sendRep_nbOut (s : State) (r : Report) : (sendRep s r).nbOut = s.nbOut := rfl
@[simp] theorem sendRep_bucket (s : State) (r : Report) : (sendRep s r).bucket = s.bucket := rfl
@[simp] theorem sendRep_nbHeld (s : State) (r : Report) : (sendRep s r).nbHeld = s.nbHeld := rfl
@[simp] theorem sendRep_nbBlock (s : State) (r : Report) : (sendRep s r).nbBlock = s.nbBlock := rfl
@[simp] theorem sendRep_clu (s : State) (r : Report) : (sendRep s r).clu = s.clu := rfl
@[simp] theorem sendRep_jobOf (s : State) (r : Report) : (sendRep s r).jobOf = s.jobOf := rfl
@[simp] theorem sendRep_rcv (s : State) (r : Report) : (sendRep s r).rcv = s.rcv := rfl
@[simp] theorem sendRep_cmds (s : State) (r : Report) : (sendRep s r).cmds = s.cmds := rfl
@[simp] theorem sendRep_qd (s : State) (r : Report) : (sendRep s r).qd = s.qd := rfl
@[simp] theorem sendRep_nextCmd (s : State) (r : Report) : (sendRep s r).nextCmd = s.nextCmd := rfl
@[simp] theorem sendRep_turn (s : State) (r : Report) : (sendRep s r).turn = s.turn := rfl
@[simp] theorem sendRep_launches (s : State) (r : Report) : (sendRep s r).launches = s.launches := rfl
@[simp] theorem sendRep_graphs (s : State) (r : Report) : (sendRep s r).graphs = s.graphs := rfl
@[simp] theorem sendRep_chans (s : State) (r : Report) : (sendRep s r).chans = s.chans := rfl
@[simp] theorem sendRep_kv (s : State) (r : Report) : (sendRep s r).kv = s.kv := rfl
@[simp] theorem sendRep_mrg (s : State) (r : Report) : (sendRep s r).mrg = s.mrg := rfl
@[simp] theorem sendRep_floor (s : State) (r : Report) : (sendRep s r).floor = s.floor := rfl
@[simp] theorem sendRep_attends (s : State) (r : Report) : (sendRep s r).attends = s.attends := rfl
@[simp] theorem sendRep_pageRuns (s : State) (r : Report) : (sendRep s r).pageRuns = s.pageRuns := rfl
@[simp] theorem sendRep_syn (s : State) (r : Report) : (sendRep s r).syn = s.syn := rfl
@[simp] theorem sendRep_host (s : State) (r : Report) : (sendRep s r).host = s.host := rfl
@[simp] theorem sendRep_groups (s : State) (r : Report) : (sendRep s r).groups = s.groups := rfl
@[simp] theorem sendRep_readies (s : State) (r : Report) : (sendRep s r).readies = s.readies := rfl
@[simp] theorem sendRep_colls (s : State) (r : Report) : (sendRep s r).colls = s.colls := rfl
@[simp] theorem sendRep_pwr (s : State) (r : Report) : (sendRep s r).pwr = s.pwr := rfl
@[simp] theorem sendRep_clk (s : State) (r : Report) : (sendRep s r).clk = s.clk := rfl
@[simp] theorem sendRep_thm (s : State) (r : Report) : (sendRep s r).thm = s.thm := rfl
@[simp] theorem sendRep_lcs (s : State) (r : Report) : (sendRep s r).lcs = s.lcs := rfl
@[simp] theorem sendRep_boot (s : State) (r : Report) : (sendRep s r).boot = s.boot := rfl
@[simp] theorem sendRep_tenant (s : State) (r : Report) : (sendRep s r).tenant = s.tenant := rfl
@[simp] theorem sendRep_ready (s : State) (r : Report) : (sendRep s r).ready = s.ready := rfl
@[simp] theorem sendRep_out (s : State) (r : Report) : (sendRep s r).out = s.out := rfl

/-! ### logEv -/

@[simp] theorem logEv_pending (s : State) (ev cls kind idx status job detail : Nat) : (logEv s ev cls kind idx status job detail).pending = s.pending := rfl
@[simp] theorem logEv_tick (s : State) (ev cls kind idx status job detail : Nat) : (logEv s ev cls kind idx status job detail).tick = s.tick := rfl
@[simp] theorem logEv_freeCtr (s : State) (ev cls kind idx status job detail : Nat) : (logEv s ev cls kind idx status job detail).freeCtr = s.freeCtr := rfl
@[simp] theorem logEv_regs (s : State) (ev cls kind idx status job detail : Nat) : (logEv s ev cls kind idx status job detail).regs = s.regs := rfl
@[simp] theorem logEv_mem (s : State) (ev cls kind idx status job detail : Nat) : (logEv s ev cls kind idx status job detail).mem = s.mem := rfl
@[simp] theorem logEv_chk (s : State) (ev cls kind idx status job detail : Nat) : (logEv s ev cls kind idx status job detail).chk = s.chk := rfl
@[simp] theorem logEv_tcBytes (s : State) (ev cls kind idx status job detail : Nat) : (logEv s ev cls kind idx status job detail).tcBytes = s.tcBytes := rfl
@[simp] theorem logEv_tcDev (s : State) (ev cls kind idx status job detail : Nat) : (logEv s ev cls kind idx status job detail).tcDev = s.tcDev := rfl
@[simp] theorem logEv_topo (s : State) (ev cls kind idx status job detail : Nat) : (logEv s ev cls kind idx status job detail).topo = s.topo := rfl
@[simp] theorem logEv_ecc (s : State) (ev cls kind idx status job detail : Nat) : (logEv s ev cls kind idx status job detail).ecc = s.ecc := rfl
@[simp] theorem logEv_refr (s : State) (ev cls kind idx status job detail : Nat) : (logEv s ev cls kind idx status job detail).refr = s.refr := rfl
@[simp] theorem logEv_tc (s : State) (ev cls kind idx status job detail : Nat) : (logEv s ev cls kind idx status job detail).tc = s.tc := rfl
@[simp] theorem logEv_nb (s : State) (ev cls kind idx status job detail : Nat) : (logEv s ev cls kind idx status job detail).nb = s.nb := rfl
@[simp] theorem logEv_nbFlight (s : State) (ev cls kind idx status job detail : Nat) : (logEv s ev cls kind idx status job detail).nbFlight = s.nbFlight := rfl
@[simp] theorem logEv_nbOut (s : State) (ev cls kind idx status job detail : Nat) : (logEv s ev cls kind idx status job detail).nbOut = s.nbOut := rfl
@[simp] theorem logEv_bucket (s : State) (ev cls kind idx status job detail : Nat) : (logEv s ev cls kind idx status job detail).bucket = s.bucket := rfl
@[simp] theorem logEv_nbHeld (s : State) (ev cls kind idx status job detail : Nat) : (logEv s ev cls kind idx status job detail).nbHeld = s.nbHeld := rfl
@[simp] theorem logEv_nbBlock (s : State) (ev cls kind idx status job detail : Nat) : (logEv s ev cls kind idx status job detail).nbBlock = s.nbBlock := rfl
@[simp] theorem logEv_clu (s : State) (ev cls kind idx status job detail : Nat) : (logEv s ev cls kind idx status job detail).clu = s.clu := rfl
@[simp] theorem logEv_jobOf (s : State) (ev cls kind idx status job detail : Nat) : (logEv s ev cls kind idx status job detail).jobOf = s.jobOf := rfl
@[simp] theorem logEv_rcv (s : State) (ev cls kind idx status job detail : Nat) : (logEv s ev cls kind idx status job detail).rcv = s.rcv := rfl
@[simp] theorem logEv_cmds (s : State) (ev cls kind idx status job detail : Nat) : (logEv s ev cls kind idx status job detail).cmds = s.cmds := rfl
@[simp] theorem logEv_qd (s : State) (ev cls kind idx status job detail : Nat) : (logEv s ev cls kind idx status job detail).qd = s.qd := rfl
@[simp] theorem logEv_nextCmd (s : State) (ev cls kind idx status job detail : Nat) : (logEv s ev cls kind idx status job detail).nextCmd = s.nextCmd := rfl
@[simp] theorem logEv_turn (s : State) (ev cls kind idx status job detail : Nat) : (logEv s ev cls kind idx status job detail).turn = s.turn := rfl
@[simp] theorem logEv_launches (s : State) (ev cls kind idx status job detail : Nat) : (logEv s ev cls kind idx status job detail).launches = s.launches := rfl
@[simp] theorem logEv_graphs (s : State) (ev cls kind idx status job detail : Nat) : (logEv s ev cls kind idx status job detail).graphs = s.graphs := rfl
@[simp] theorem logEv_chans (s : State) (ev cls kind idx status job detail : Nat) : (logEv s ev cls kind idx status job detail).chans = s.chans := rfl
@[simp] theorem logEv_kv (s : State) (ev cls kind idx status job detail : Nat) : (logEv s ev cls kind idx status job detail).kv = s.kv := rfl
@[simp] theorem logEv_mrg (s : State) (ev cls kind idx status job detail : Nat) : (logEv s ev cls kind idx status job detail).mrg = s.mrg := rfl
@[simp] theorem logEv_floor (s : State) (ev cls kind idx status job detail : Nat) : (logEv s ev cls kind idx status job detail).floor = s.floor := rfl
@[simp] theorem logEv_attends (s : State) (ev cls kind idx status job detail : Nat) : (logEv s ev cls kind idx status job detail).attends = s.attends := rfl
@[simp] theorem logEv_pageRuns (s : State) (ev cls kind idx status job detail : Nat) : (logEv s ev cls kind idx status job detail).pageRuns = s.pageRuns := rfl
@[simp] theorem logEv_syn (s : State) (ev cls kind idx status job detail : Nat) : (logEv s ev cls kind idx status job detail).syn = s.syn := rfl
@[simp] theorem logEv_host (s : State) (ev cls kind idx status job detail : Nat) : (logEv s ev cls kind idx status job detail).host = s.host := rfl
@[simp] theorem logEv_groups (s : State) (ev cls kind idx status job detail : Nat) : (logEv s ev cls kind idx status job detail).groups = s.groups := rfl
@[simp] theorem logEv_readies (s : State) (ev cls kind idx status job detail : Nat) : (logEv s ev cls kind idx status job detail).readies = s.readies := rfl
@[simp] theorem logEv_colls (s : State) (ev cls kind idx status job detail : Nat) : (logEv s ev cls kind idx status job detail).colls = s.colls := rfl
@[simp] theorem logEv_pwr (s : State) (ev cls kind idx status job detail : Nat) : (logEv s ev cls kind idx status job detail).pwr = s.pwr := rfl
@[simp] theorem logEv_clk (s : State) (ev cls kind idx status job detail : Nat) : (logEv s ev cls kind idx status job detail).clk = s.clk := rfl
@[simp] theorem logEv_thm (s : State) (ev cls kind idx status job detail : Nat) : (logEv s ev cls kind idx status job detail).thm = s.thm := rfl
@[simp] theorem logEv_lcs (s : State) (ev cls kind idx status job detail : Nat) : (logEv s ev cls kind idx status job detail).lcs = s.lcs := rfl
@[simp] theorem logEv_boot (s : State) (ev cls kind idx status job detail : Nat) : (logEv s ev cls kind idx status job detail).boot = s.boot := rfl
@[simp] theorem logEv_tenant (s : State) (ev cls kind idx status job detail : Nat) : (logEv s ev cls kind idx status job detail).tenant = s.tenant := rfl
@[simp] theorem logEv_ready (s : State) (ev cls kind idx status job detail : Nat) : (logEv s ev cls kind idx status job detail).ready = s.ready := rfl
@[simp] theorem logEv_out (s : State) (ev cls kind idx status job detail : Nat) : (logEv s ev cls kind idx status job detail).out = s.out := rfl

/-! ### free -/

@[simp] theorem free_pending (s : State) : ((free s).2).pending = s.pending := rfl
@[simp] theorem free_tick (s : State) : ((free s).2).tick = s.tick := rfl
@[simp] theorem free_regs (s : State) : ((free s).2).regs = s.regs := rfl
@[simp] theorem free_mem (s : State) : ((free s).2).mem = s.mem := rfl
@[simp] theorem free_chk (s : State) : ((free s).2).chk = s.chk := rfl
@[simp] theorem free_tcBytes (s : State) : ((free s).2).tcBytes = s.tcBytes := rfl
@[simp] theorem free_tcDev (s : State) : ((free s).2).tcDev = s.tcDev := rfl
@[simp] theorem free_topo (s : State) : ((free s).2).topo = s.topo := rfl
@[simp] theorem free_ecc (s : State) : ((free s).2).ecc = s.ecc := rfl
@[simp] theorem free_refr (s : State) : ((free s).2).refr = s.refr := rfl
@[simp] theorem free_tc (s : State) : ((free s).2).tc = s.tc := rfl
@[simp] theorem free_nb (s : State) : ((free s).2).nb = s.nb := rfl
@[simp] theorem free_nbFlight (s : State) : ((free s).2).nbFlight = s.nbFlight := rfl
@[simp] theorem free_nbOut (s : State) : ((free s).2).nbOut = s.nbOut := rfl
@[simp] theorem free_bucket (s : State) : ((free s).2).bucket = s.bucket := rfl
@[simp] theorem free_nbHeld (s : State) : ((free s).2).nbHeld = s.nbHeld := rfl
@[simp] theorem free_nbBlock (s : State) : ((free s).2).nbBlock = s.nbBlock := rfl
@[simp] theorem free_clu (s : State) : ((free s).2).clu = s.clu := rfl
@[simp] theorem free_jobOf (s : State) : ((free s).2).jobOf = s.jobOf := rfl
@[simp] theorem free_log (s : State) : ((free s).2).log = s.log := rfl
@[simp] theorem free_rcv (s : State) : ((free s).2).rcv = s.rcv := rfl
@[simp] theorem free_cmds (s : State) : ((free s).2).cmds = s.cmds := rfl
@[simp] theorem free_qd (s : State) : ((free s).2).qd = s.qd := rfl
@[simp] theorem free_nextCmd (s : State) : ((free s).2).nextCmd = s.nextCmd := rfl
@[simp] theorem free_turn (s : State) : ((free s).2).turn = s.turn := rfl
@[simp] theorem free_launches (s : State) : ((free s).2).launches = s.launches := rfl
@[simp] theorem free_graphs (s : State) : ((free s).2).graphs = s.graphs := rfl
@[simp] theorem free_chans (s : State) : ((free s).2).chans = s.chans := rfl
@[simp] theorem free_kv (s : State) : ((free s).2).kv = s.kv := rfl
@[simp] theorem free_mrg (s : State) : ((free s).2).mrg = s.mrg := rfl
@[simp] theorem free_floor (s : State) : ((free s).2).floor = s.floor := rfl
@[simp] theorem free_attends (s : State) : ((free s).2).attends = s.attends := rfl
@[simp] theorem free_pageRuns (s : State) : ((free s).2).pageRuns = s.pageRuns := rfl
@[simp] theorem free_syn (s : State) : ((free s).2).syn = s.syn := rfl
@[simp] theorem free_host (s : State) : ((free s).2).host = s.host := rfl
@[simp] theorem free_groups (s : State) : ((free s).2).groups = s.groups := rfl
@[simp] theorem free_readies (s : State) : ((free s).2).readies = s.readies := rfl
@[simp] theorem free_colls (s : State) : ((free s).2).colls = s.colls := rfl
@[simp] theorem free_pwr (s : State) : ((free s).2).pwr = s.pwr := rfl
@[simp] theorem free_clk (s : State) : ((free s).2).clk = s.clk := rfl
@[simp] theorem free_thm (s : State) : ((free s).2).thm = s.thm := rfl
@[simp] theorem free_lcs (s : State) : ((free s).2).lcs = s.lcs := rfl
@[simp] theorem free_boot (s : State) : ((free s).2).boot = s.boot := rfl
@[simp] theorem free_tenant (s : State) : ((free s).2).tenant = s.tenant := rfl
@[simp] theorem free_ready (s : State) : ((free s).2).ready = s.ready := rfl
@[simp] theorem free_out (s : State) : ((free s).2).out = s.out := rfl

/-! ### What they set -/

@[simp] theorem rput_regs (s : State) (r : RegId) (ix : List Nat) (v : Nat) :
    (rput s r ix v).regs = tput (r.off ix) (BitVec.ofNat 64 v) s.regs := rfl
theorem fset_eq (s : State) (r : RegId) (ix : List Nat) (f : Fld) (v : Nat) :
    fset s r ix f v = rput s r ix (setBits (rget s r ix) f.hi f.lo v) := rfl
@[simp] theorem emit_out (s : State) (o : Output) : (emit s o).out = s.out ++ [o] := rfl
@[simp] theorem sendRep_log (s : State) (r : Report) : (sendRep s r).log = { s.log with waiting := s.log.waiting ++ [r] } := rfl
theorem logEv_eq (s : State) (ev cls kind idx status job detail : Nat) :
    logEv s ev cls kind idx status job detail = sendRep s (mkRep s ev cls kind idx status job detail) := rfl
@[simp] theorem free_fst (s : State) : (free s).1 = Config.freeNat s.freeCtr := rfl
@[simp] theorem free_freeCtr (s : State) : (free s).2.freeCtr = s.freeCtr + 1 := rfl

end Sys2Proof.Machine
end

