-- ==== Sys2Proof/Laws/Ops.lean ====
section
/-! SUPPORT. What the shared operations can do: registers and fields read back as they were written, and a command's effect
enters the state with the queue and the canonical form of memory kept. -/

namespace Sys2Proof.Machine

/-! ### Bit fields -/

/-- A field reads back as it was written, cut to its width. -/
theorem bits_setBits (v x : Nat) {hi lo : Nat} (h : lo ≤ hi) : bits (setBits v hi lo x) hi lo = x % 2 ^ (hi + 1 - lo) := by
  unfold bits setBits
  have e : 2 ^ (hi + 1) = 2 ^ (hi + 1 - lo) * 2 ^ lo := by rw [← Nat.pow_add]; congr 1; omega
  have hp : 0 < 2 ^ lo := Nat.two_pow_pos lo
  have h1 : v / 2 ^ (hi + 1) * 2 ^ (hi + 1) + x % 2 ^ (hi + 1 - lo) * 2 ^ lo + v % 2 ^ lo
      = v % 2 ^ lo + 2 ^ lo * (x % 2 ^ (hi + 1 - lo) + 2 ^ (hi + 1 - lo) * (v / 2 ^ (hi + 1))) := by rw [e]; ring
  rw [h1, Nat.add_mul_div_left _ _ hp, Nat.div_eq_of_lt (Nat.mod_lt _ hp), Nat.zero_add, Nat.add_mul_mod_self_left, Nat.mod_mod]

/-- Bits above a written field keep their value. -/
theorem setBits_div_above (v x : Nat) {hi lo k : Nat} (h : lo ≤ hi) (hk : hi < k) : setBits v hi lo x / 2 ^ k = v / 2 ^ k := by
  unfold setBits
  have hlt : x % 2 ^ (hi + 1 - lo) * 2 ^ lo + v % 2 ^ lo < 2 ^ (hi + 1) := by
    have e : 2 ^ (hi + 1) = 2 ^ (hi + 1 - lo) * 2 ^ lo := by rw [← Nat.pow_add]; congr 1; omega
    have a := Nat.mod_lt x (Nat.two_pow_pos (hi + 1 - lo))
    have b := Nat.mod_lt v (Nat.two_pow_pos lo)
    calc x % 2 ^ (hi + 1 - lo) * 2 ^ lo + v % 2 ^ lo < x % 2 ^ (hi + 1 - lo) * 2 ^ lo + 2 ^ lo := by omega
      _ = (x % 2 ^ (hi + 1 - lo) + 1) * 2 ^ lo := by ring
      _ ≤ 2 ^ (hi + 1 - lo) * 2 ^ lo := Nat.mul_le_mul_right _ a
      _ = 2 ^ (hi + 1) := e.symm
  obtain ⟨j, rfl⟩ : ∃ j, k = hi + 1 + j := ⟨k - (hi + 1), by omega⟩
  rw [Nat.pow_add 2 (hi + 1) j, ← Nat.div_div_eq_div_mul, ← Nat.div_div_eq_div_mul]
  congr 1
  rw [Nat.add_assoc, Nat.mul_comm, Nat.mul_add_div (Nat.two_pow_pos _), Nat.div_eq_of_lt hlt, Nat.add_zero]

/-- A field above a written one keeps its value. -/
theorem bits_setBits_above (v x : Nat) {hi lo hi' lo' : Nat} (h : lo ≤ hi) (hk : hi < lo') :
    bits (setBits v hi lo x) hi' lo' = bits v hi' lo' := by unfold bits; rw [setBits_div_above v x h hk]

theorem setBits_mod_below (v x : Nat) {hi lo : Nat} (h : lo ≤ hi) : setBits v hi lo x % 2 ^ lo = v % 2 ^ lo := by
  unfold setBits
  have e : 2 ^ (hi + 1) = 2 ^ lo * 2 ^ (hi + 1 - lo) := by rw [← Nat.pow_add]; congr 1; omega
  have h1 : v / 2 ^ (hi + 1) * 2 ^ (hi + 1) + x % 2 ^ (hi + 1 - lo) * 2 ^ lo + v % 2 ^ lo
      = v % 2 ^ lo + 2 ^ lo * (v / 2 ^ (hi + 1) * 2 ^ (hi + 1 - lo) + x % 2 ^ (hi + 1 - lo)) := by rw [e]; ring
  rw [h1, Nat.add_mul_mod_self_left, Nat.mod_mod]

/-- A field below a written one keeps its value. -/
theorem bits_setBits_below (v x : Nat) {hi lo hi' lo' : Nat} (h : lo ≤ hi) (h' : lo' ≤ hi') (hk : hi' < lo) :
    bits (setBits v hi lo x) hi' lo' = bits v hi' lo' := by
  have cut : ∀ w : Nat, bits w hi' lo' = bits (w % 2 ^ lo) hi' lo' := by
    intro w
    unfold bits
    have e1 : 2 ^ lo = 2 ^ lo' * 2 ^ (lo - lo') := by rw [← Nat.pow_add]; congr 1; omega
    have e2 : 2 ^ (lo - lo') = 2 ^ (hi' + 1 - lo') * 2 ^ (lo - lo' - (hi' + 1 - lo')) := by rw [← Nat.pow_add]; congr 1; omega
    rw [e1, Nat.mod_mul_right_div_self, e2, Nat.mod_mul_right_mod]
  rw [cut (setBits v hi lo x), setBits_mod_below v x h, ← cut]

theorem setBits_lt (v x : Nat) {hi lo : Nat} (h : lo ≤ hi) (hh : hi < 64) (hv : v < 2 ^ 64) : setBits v hi lo x < 2 ^ 64 := by
  by_cases e : hi = 63
  · subst e
    unfold setBits
    have : v / 2 ^ (63 + 1) = 0 := Nat.div_eq_of_lt hv
    rw [this]
    have e1 : (2 : Nat) ^ 64 = 2 ^ (63 + 1 - lo) * 2 ^ lo := by rw [← Nat.pow_add]; congr 1; omega
    have a := Nat.mod_lt x (Nat.two_pow_pos (63 + 1 - lo))
    have b := Nat.mod_lt v (Nat.two_pow_pos lo)
    calc 0 * 2 ^ (63 + 1) + x % 2 ^ (63 + 1 - lo) * 2 ^ lo + v % 2 ^ lo < x % 2 ^ (63 + 1 - lo) * 2 ^ lo + 2 ^ lo := by omega
      _ = (x % 2 ^ (63 + 1 - lo) + 1) * 2 ^ lo := by ring
      _ ≤ 2 ^ (63 + 1 - lo) * 2 ^ lo := Nat.mul_le_mul_right _ a
      _ = 2 ^ 64 := e1.symm
  · have := setBits_div_above v x (k := 64) h (by omega)
    rw [Nat.div_eq_of_lt hv] at this
    exact (Nat.div_eq_zero_iff_lt (Nat.two_pow_pos 64)).mp this

/-! ### Registers -/

/-- A register reads back as it was written. -/
theorem rget_rput_self (s : State) (r : RegId) (ix : List Nat) (v : Nat) : rget (rput s r ix v) r ix = v % 2 ^ 64 := by
  simp [rget, rput]

/-- A write leaves every register of another offset alone. -/
theorem rget_rput_other (s : State) {r r' : RegId} {ix ix' : List Nat} (h : r'.off ix' ≠ r.off ix) (v : Nat) :
    rget (rput s r ix v) r' ix' = rget s r' ix' := by
  simp [rget, rput, tfind_tput_other h]

/-- A field reads back as it was written, cut to its width. -/
theorem fget_fset_self (s : State) (r : RegId) (ix : List Nat) (f : Fld) (v : Nat) (h : f.lo ≤ f.hi) (hh : f.hi < 64)
    (hv : rget s r ix < 2 ^ 64) : fget (fset s r ix f v) r ix f = v % 2 ^ (f.hi + 1 - f.lo) := by
  unfold fget fset
  rw [rget_rput_self, Nat.mod_eq_of_lt (setBits_lt _ _ h hh hv), bits_setBits _ _ h]

/-- A field write leaves every other register alone. -/
theorem fget_fset_other (s : State) {r r' : RegId} {ix ix' : List Nat} (h : r'.off ix' ≠ r.off ix) (f f' : Fld) (v : Nat) :
    fget (fset s r ix f v) r' ix' f' = fget s r' ix' f' := by
  unfold fget fset; rw [rget_rput_other s h]

theorem rget_fset_other (s : State) {r r' : RegId} {ix ix' : List Nat} (h : r'.off ix' ≠ r.off ix) (f : Fld) (v : Nat) :
    rget (fset s r ix f v) r' ix' = rget s r' ix' := rget_rput_other s h _

/-! ### The log -/

/-- The reports of a state that an event has been sent to. -/
theorem logEv_waiting (s : State) (ev cls kind idx status job detail : Nat) :
    (logEv s ev cls kind idx status job detail).log.waiting = s.log.waiting ++ [mkRep s ev cls kind idx status job detail] := rfl

/-! ### A command's effect enters the state -/

theorem snoop_frame (hits : List Need) : ∀ (s : State),
    (s.snoop hits).pending = s.pending ∧ (s.snoop hits).mem = s.mem ∧ (s.snoop hits).host.hit = s.host.hit := by
  unfold State.snoop
  induction hits with
  | nil => intro s; exact ⟨rfl, rfl, rfl⟩
  | cons x r ih =>
    intro s
    rw [List.foldl_cons]
    obtain ⟨h1, h2, h3⟩ := ih _
    rw [h1, h2, h3]
    cases x with
    | clock => exact ⟨rfl, rfl, rfl⟩
    | snoop x => dsimp only; split <;> exact ⟨rfl, rfl, rfl⟩
    | bank b a n out =>
      dsimp only
      split
      · exact ⟨rfl, rfl, rfl⟩
      · split
        · split <;> exact ⟨rfl, rfl, rfl⟩
        · exact ⟨rfl, rfl, rfl⟩

/-- Everything `runAny` can do: the effect with the queue kept, or, when it meets a line a host holds, only the
back-invalidates. -/
theorem State.runAny_cases (s : State) (f : State → State) :
    ((f { s with pending := [] }).host.hit = [] ∧ s.runAny f = .next
        { f { s with pending := [] } with pending := s.pending, mem := Memory.norm (f { s with pending := [] }).mem })
    ∨ ((f { s with pending := [] }).host.hit ≠ [] ∧ s.runAny f = .next
        { { s with pending := [] }.snoop (f { s with pending := [] }).host.hit with pending := s.pending, mem := Memory.norm s.mem }) := by
  unfold State.runAny
  by_cases h : (f { s with pending := [] }).host.hit = []
  · exact .inl ⟨h, by simp [h]⟩
  · refine .inr ⟨h, ?_⟩
    have : (f { s with pending := [] }).host.hit.isEmpty = false := by simpa using h
    simp [this]

/-- `runAny` answers a next state. -/
theorem State.runAny_next (s : State) (f : State → State) : ∃ t, s.runAny f = .next t := by
  rcases s.runAny_cases f with ⟨_, h⟩ | ⟨_, h⟩ <;> exact ⟨_, h⟩

/-- An effect that meets no host copy and keeps memory canonical enters the state as it is. -/
theorem State.runAny_quiet (s : State) (f : State → State) (h : (f { s with pending := [] }).host.hit = [])
    (hm : Memory.wf (f { s with pending := [] }).mem = true) : s.runAny f = .next { f { s with pending := [] } with pending := s.pending } := by
  rcases s.runAny_cases f with ⟨_, e⟩ | ⟨h', _⟩
  · rw [e, Memory.norm_of_wf hm]
  · exact absurd h h'

/-- What every `runAny` keeps: the commands that wait, the canonical form of memory, and that no step leaves a
back-invalidate half asked. -/
theorem State.runAny_keeps (s : State) (f : State → State) {t : State} (h : s.runAny f = .next t) :
    t.pending = s.pending ∧ Memory.wf t.mem = true ∧ (s.host.hit = [] → t.host.hit = []) := by
  rcases s.runAny_cases f with ⟨h0, e⟩ | ⟨_, e⟩ <;> rw [e] at h <;> cases h
  · exact ⟨rfl, Memory.norm_wf _, fun _ => h0⟩
  · exact ⟨rfl, Memory.norm_wf _, fun h => by rw [(snoop_frame _ _).2.2]; exact h⟩

/-- A running device runs the effect. -/
theorem State.run_alive (s : State) (f : State → State) (h : s.alive = true)
    (h0 : (f { s with pending := [] }).host.hit = []) (hm : Memory.wf (f { s with pending := [] }).mem = true) :
    s.run f = .next { f { s with pending := [] } with pending := s.pending } := by
  have e : (if ({ s with pending := [] } : State).alive then f { s with pending := [] } else { s with pending := [] })
      = f { s with pending := [] } := if_pos h
  have := s.runAny_quiet (fun s => if s.alive then f s else s) (by simp only [e]; exact h0) (by simp only [e]; exact hm)
  simp only [e] at this
  exact this

end Sys2Proof.Machine
end

