-- ==== Sys2Proof/Laws/Exec.lean ====
section
/-! SUPPORT. What the meaning of any command can do, said once: it is an effect that enters the state through `runAny`, or the
fault of R397. -/

namespace Sys2Proof.Machine

theorem State.run_shape (s : State) (f : State → State) : ∃ g, s.run f = s.runAny g := ⟨_, rfl⟩

theorem State.runF_shape (s : State) (bad : Option Fault) (f : State → State) :
    (∃ g, s.runF bad f = s.runAny g) ∨ ∃ r, bad = some r ∧ s.runF bad f = .fault r := by
  cases bad with
  | none => exact .inl ⟨_, rfl⟩
  | some r => exact .inr ⟨r, rfl, rfl⟩

theorem ratioBad_fault {s : State} {r : Fault} (_h : ratioBad s = some r) : r = .mgmtClockRatio := by cases r; rfl

theorem State.onBus_shape (s : State) (src : RegSrc) (f : State → State) :
    (∃ g, s.onBus src f = s.runAny g) ∨ s.onBus src f = .fault .mgmtClockRatio := by
  unfold State.onBus
  split
  · next x _ => cases x; exact .inr rfl
  · exact .inl ⟨_, rfl⟩

theorem State.runF_shape' (s : State) (bad : Option Fault) (f : State → State) :
    (∃ g, s.runF bad f = s.runAny g) ∨ s.runF bad f = .fault .mgmtClockRatio := by
  rcases s.runF_shape bad f with h | ⟨r, _, h⟩
  · exact .inl h
  · cases r; exact .inr h

/-- The meaning of a command is an effect that enters the state, or the one fault. -/
theorem exec_shape (c : Instr) (s : State) : (∃ g, exec c s = s.runAny g) ∨ exec c s = .fault .mgmtClockRatio := by
  cases c <;> first
    | exact .inl ⟨_, rfl⟩
    | exact s.onBus_shape _ _
    | exact s.runF_shape' _ _

/-- What every command keeps: the commands that wait, the canonical form of memory, and that no step leaves a
back-invalidate half asked. -/
theorem exec_keeps {c : Instr} {s t : State} (h : exec c s = .next t) :
    t.pending = s.pending ∧ Memory.wf t.mem = true ∧ (s.host.hit = [] → t.host.hit = []) := by
  rcases exec_shape c s with ⟨g, e⟩ | e
  · exact s.runAny_keeps g (e ▸ h)
  · rw [e] at h; cases h

end Sys2Proof.Machine
end

