-- ==== Sys2Proof/WellFormed.lean ====
section
/-! DEFINITION. Which commands are well formed: their operands lie where the manual's fields and arrays put them. A command
that is not well formed stands for nothing the manual describes; the machine gives it a meaning all the same. -/

namespace Sys2Proof

open Sys2Proof.Machine (MemReq WordErr bits tbit)

/-- A register offset: a whole word within the window of its source (R443, R446, R447). -/
def busOff (src : RegSrc) (off : Nat) : Bool := off % 8 == 0 && decide (off < if src == .bar2 then 2 ^ 24 else 2 ^ 26)

/-- Hints are normal, keep and evict-first (R241). -/
def hintOk (h : Nat) : Bool := decide (h < 3)

/-- A memory access: some bytes below the top of the address space, with as many data bytes as it writes. -/
def reqOk (q : MemReq) : Bool :=
  decide (0 < q.len ∧ q.addr + q.len ≤ 2 ^ 47) && q.data.length == (if q.write then q.len else 0) && hintOk q.hint

/-- Bit errors lie in the words an access reads (R59). -/
def errsOk (a n : Nat) (errs : List WordErr) : Bool := errs.all (fun e => decide (a / 16 ≤ e.word ∧ e.word ≤ (a + n - 1) / 16))

/-- A flit comes over 4 to 8 lanes, with the symbol times of a short or a full flit on each (R283, R284). -/
def wireOk (f : Machine.Wire) : Bool :=
  let n := f.lanes.length
  let fits := fun m => f.lanes.all (fun l => l.length == (m + n - 1) / n)
  decide (4 ≤ n ∧ n ≤ 8) && (fits 72 || fits 360)

/-- Unit codes of R354 have one byte. -/
def unitOk (_c : Option (Fin 1024)) (unit : Nat) : Bool := decide (unit < 256)

/-- What a stage found names domains, clusters, lanes, ways and banks that the device has. -/
def stageOk (r : StageResult) : Bool :=
  r.bonds.all (fun x => decide (x.1 < 16 ∧ x.2.1 < 32 ∧ x.2.2.2 < 32)) && decide (r.fuses.length ≤ 256)
    && r.phases.all (fun x => decide (x.1 < 1051 ∧ x.2 < 6)) && r.clocks.all (fun c => decide (c < 2107))
    && r.lanes.all (fun x => decide (x.1 < 1024 ∧ x.2 < 576)) && r.logic.all (fun c => decide (c < 1024))
    && r.scratch.all (fun c => decide (c < 1024)) && r.ways.all (fun x => decide (x.1 < 16 ∧ x.2 < 16))
    && r.banks.all (fun x => decide (x.1 < 1024 ∧ x.2.1 < 16 ∧ x.2.2 ≤ 32)) && decide (r.slots.length ≤ 2)

/-- Whether a command is well formed. -/
def Instr.wf : Instr → Bool
  | .registerWrite src off _ _ => busOff src off
  | .credOpen _ val => tbit val.toNat 63
  | .credClose _ val => tbit val.toNat 62
  | .credBind _ val => tbit val.toNat 61
  | .credSeal _ val => tbit val.toNat 60
  | .credRevoke _ val => tbit val.toNat 59
  | .stackAccess req errs => reqOk req && errsOk req.addr req.len errs && decide (req.addr + req.len ≤ 0x040000000000)
  | .nbActivityEval _ busyUs => decide (busyUs ≤ 32000)
  | .drainTimeout c unit => unitOk c unit
  | .computeResetStage _ failed => failed.all (fun x => decide (x.1 < 1024 ∧ x.2 < 576))
  | .reverify fails => fails.all (fun f => decide (f.kind < 16 ∧ f.c < 1051 ∧ f.unit < 256))
  | .kernelComplete l => decide (l < 1024)
  | .rocFill _ _ addr _ => addr % 64 == 0 && decide (addr < 2 ^ 47)
  | .scratchpadAccess _ _ req errs => reqOk req && errsOk req.addr req.len errs && decide (0x040000000000 ≤ req.addr ∧ req.addr + req.len ≤ 0x040100000000)
  | .launchStart l => decide (l < 1024)
  | .graphNodeStart _ node => decide (node < 65536)
  | .nbRun _ _ _ val => bits val.toNat 63 56 == 1
  | .nbLoad _ _ _ val => bits val.toNat 63 56 == 2
  | .nbSetgrp _ _ _ val => bits val.toNat 63 56 == 3
  | .tcReduction src addr op data hint => decide (1 ≤ op ∧ op ≤ 9 ∧ src < 2 ^ 32) && hintOk hint && !data.isEmpty && data.length % 16 == 0 && addr % 16 == 0
  | .batchTimeout _ gran => decide (gran < 2 ^ 32)
  | .tcFlush _ _ val => tbit val.toNat 2
  | .tcRclose _ _ val => tbit val.toNat 1
  | .tcUnpin _ _ val => tbit val.toNat 0
  | .tcApertureAccess _ req => reqOk req && decide (0x040100000000 ≤ req.addr ∧ req.addr + req.len ≤ 0x040140000000)
  | .queueEnable _ _ val => tbit val.toNat 0
  | .queueDisable _ _ val => !(tbit val.toNat 0)
  | .queueReset _ _ val => tbit val.toNat 1
  | .fenceAck _ _ val => tbit val.toNat 2
  | .flitReceive _ flit => wireOk flit
  | .portUp _ lanes _ => decide (lanes < 256)
  | .portTrainAttempt _ _ lanes => decide (lanes < 256)
  | .memberTimeout id => decide (id < 0x8000)
  | .collTimeout g => decide (g < 65536)
  | .synEnSet _ val => tbit val.toNat 0
  | .synEnClear _ val => !(tbit val.toNat 0)
  | .hostMemAccess _ req => reqOk req
  | .cxlMemRequest _ req _ => reqOk req
  | .birsp _ _ dirty => (match dirty with | some d => d.length == 64 | none => true)
  | .hostCompletion _ _ _ data => decide (data.length ≤ 4096)
  | .logCtlClear _ val => tbit val.toNat 0
  | .millisecondBoundary m => decide (m.vin < 65536 ∧ m.iin < 65536) && m.cur.all (fun e => decide (e.1 < 1051)) && m.spAcc.all (fun e => decide (e.1 < 1024)) && m.cols.all (fun e => decide (e.1 < 16384)) && m.looks.all (fun e => decide (e.1 < 1024)) && m.towerDemand.length == 16
  | .phaseFail d _ => decide (d < 1051)
  | .switchHung isl => decide (isl < 2107)
  | .clkBypass _ val => tbit val.toNat 63
  | .pllUnlock gen _ => decide (gen < 23)
  | .marginMeasure isl _ => decide (isl < 1024)
  | .marginCalibrate isl => decide (isl < 1024)
  | .sensorSample _ v => decide (-(2 ^ 15) ≤ v ∧ v < 2 ^ 15)
  | .rstCtlCold _ val => tbit val.toNat 0
  | .bringupStageComplete r => stageOk r
  | .fwCommit _ val => tbit val.toNat 0
  | .nbCmdReserved _ _ _ val => decide (bits val.toNat 63 56 = 0 ∨ 3 < bits val.toNat 63 56)
  | .registerRead src off _ => busOff src off
  | .unitParity c unit => unitOk c unit
  | .hostLinkUp _ speed width => decide (1 ≤ speed ∧ speed ≤ 6) && [1, 2, 4, 8, 16].contains width
  | .configRequest _ _ | .pwrCeilingWrite _ _ | .hpRoleWrite _ _ | .synIdWrite _ _ | .lcsTenantWrite _ _ | .hrdSlopeCeilWrite _ _
  | .lcsGradeWrite _ _ | .ledgerProgramDone | .authVerifyDone | .sessionExpire | .shaftCmdCrcFail _ _ | .refreshRowDue _
  | .refreshComplete _ | .scrubRead _ _ | .drainComplete | .mma _ | .mmaStreamStart _ | .mmaSlotUpdate _ _
  | .mmaOutputRecord _ | .mmaComplete _ | .mdrain _ | .msync _ | .msyncComplete _ | .matrixBallastStart _ | .add _ | .sub _
  | .and _ | .or _ | .xor _ | .sll _ | .srl _ | .sra _ | .mul _ | .mulh _ | .slt _ | .sltu _ | .divu _ | .remu _ | .addi _
  | .andi _ | .ori _ | .xori _ | .slli _ | .srli _ | .srai _ | .shli _ | .lds _ | .sts _ | .ldg _ | .ldgComplete _ | .stg _
  | .stgComplete _ | .beq _ | .bne _ | .blt _ | .bge _ | .bltu _ | .bgeu _ | .jal _ | .jalr _ | .qpush _ | .twait _ | .tread _
  | .dkick _ | .dctlResume _ | .dctlRetry _ | .dctlReset _ | .roinv _ | .csrr _ | .csrw _ | .trap _ | .eret _ | .halt _
  | .asyncTrap _ | .vnop _ _ | .vadd _ _ | .vsub _ _ | .vmul _ _ | .vfma _ _ | .vmax _ _ | .vmin _ _ | .vabs _ _ | .vneg _ _
  | .vaddi _ _ | .vmuli _ _ | .vexp2 _ _ | .vlog2 _ _ | .vrcp _ _ | .vrsqrt _ _ | .vldexp _ _ | .vgete _ _ | .vrsum _ _
  | .vrmax _ _ | .vperm _ _ | .vcmp _ _ | .vsel _ _ | .vcvt _ _ | .vld _ _ | .vst _ _ | .vldbc _ _ | .vseta _ _ | .vadda _ _
  | .vsync _ _ | .vsyncComplete _ _ | .dmaCopy _ _ | .dmaCopy2d _ _ | .dmaFill _ _ | .descStatusWrite _ _ | .launch _
  | .graphLaunch _ | .nbCmdArrive _ | .unitNop _ | .unitEnd _ | .setac _ | .setlc _ | .setlcp _ | .loop _ | .bzlc _ | .rdc _
  | .wrc _ | .emit _ | .dot _ | .axpy _ | .avscale _ | .avzero _ | .sseti _ | .sldp _ | .smov _ | .sadd _ | .ssub _ | .smul _
  | .smax _ | .sexp2 _ | .nbStepBoundary _ | .tokenRefill _ | .nbUnitComplete _ | .nbReadTimeout _ | .kvPoolSet _
  | .kvProfileSet _ | .seqCreate _ | .seqFork _ | .seqFree _ | .seqTruncate _ | .kvAppend _ | .kvExport _ | .kvSpillSet _
  | .kvSwapSet _ | .kvPrefetch _ | .kvSpillPages _ | .seqSwapOut _ | .seqSwapIn _ | .spillStart _ | .readerSlotGrant
  | .retiredReturn | .allocWaitExpire _ | .kvAttend _ | .pageRunDispatch _ | .mergeAccept _ | .floorMergeFold _
  | .victimWriteback _ _ | .tcFlushDone _ | .thrashWindowEnd _ | .doorbellSq _ _ _ | .doorbellCq _ _ _ | .commandFetch _
  | .replyPost _ | .tarhelNop _ | .waitQueue _ | .signal _ | .tenantSwitch _ | .codeLoad _ | .modelLoad _ | .modelLoadConvert _
  | .winOpen _ | .winClose _ | .hwinMap _ | .hwinUnmap _ | .dmaDesc _ | .dmaList _ | .dmaChannelGrant | .allreduce _
  | .allgather _ | .reduceScatter _ | .broadcast _ | .alltoall _ | .permute _ | .expertDispatch _ | .expertCombine _
  | .groupSet _ | .hrdTarget _ | .clkSync _ | .hrdBallast _ | .logRead _ | .telemSnap _ | .telemSnapThermal _ | .logClear _
  | .computeReset _ | .heldRelease _ | .vendorTest _ | .idleFlitSend _ | .winWrite | .winRead | .winReadData | .winWriteDone
  | .winReduce | .unreach | .regWr | .regRd | .regData | .collReady | .collCounts | .collDone | .collData | .beacon | .grant
  | .syncReq | .syncRsp | .hello | .join | .leave | .alive | .fence | .memberMap | .laneFail _ _ | .portRetrain _ | .portFailed _
  | .flitAged _ | .pathHoldExpire _ | .syncPeriod | .alivePeriod | .joinSettle | .spareRelease | .burstTorn _
  | .routeTableWrite _ _ _ | .biTimeout _ _ | .hostSnoop _ _ | .hostLinkDown _ | .spillDeviceLost _ | .hostLinkReset _
  | .logSequenceAssign | .ceSummaryPeriod | .envelopeStep _ | .targetApply | .beaconSend | .grantIssue | .epochStart | .ibcFail _
  | .inputRange _ | .powerLoss _ | .clockSwitch _ | .refLoss | .holdoverTimeout | .refReturn | .holdoverLimit | .clkMgmtWrite _ _
  | .clkGateWrite _ _ | .clkObsWrite _ _ | .sensorConvTimeout _ | .sensorSuspect _ | .sensorPairRecover _ | .modelReady
  | .modelOverride _ _ _ | .modelOverrideEnd _ _ _ | .criticalExit _ | .thmCoolWrite _ _ | .powerOn | .powerRemoved
  | .resetNRelease | .perstCold _ | .watchdogService | .watchdogExpire | .extest | .extestPulse | .extestTrain | .intest | .clamp
  | .samplePreload | .bypass | .idcode | .illegalInstruction _ | .vectorReservedOp _ _ | .matrixReservedOp _ | .mgmtClockChange
  | .resetNAssert | .standbyRailUp | .tapReset _ => true

end Sys2Proof
end

