-- ==== Sys2Proof/Tests/Slice0.lean ====
section
/-! SUPPORT. Tests: ill-formed commands that are refused by the check, words of the scalar core written out from R108 and
R109, a few results worked out by hand, and for every obligation a concrete state that meets its hypotheses. -/

set_option maxRecDepth 20000
set_option synthInstance.maxHeartbeats 400000
set_option synthInstance.maxSize 4000

namespace Sys2Proof.Tests

set_option Elab.async false

open Sys2Proof.Machine

/-! ### States -/

/-- A device in service with clusters 0 and 1 as logical clusters 0 and 1. -/
def up : State :=
  { rput State.reset .BOOT_STAT [] 14 with
    ready := true, topo := { State.reset.topo with loaded := true, lmap := [some 0, some 1] } }

/-- An instruction line of the read-only cache with the word `w` at address 0. -/
def line (w : Nat) : RocLine := ⟨true, 0, 0, leBytes 4 w ++ List.replicate 252 0, List.replicate 16 0⟩

/-- The core of cluster 0 runs, its pc at 0, with the word `w` in its instruction cache and the registers `g`. -/
def core (w : Nat) (g : List Word) : State :=
  fset { up with clu := [(0, { Clu.init with g := g, roc := [line w], tvec := 0x400, epc := 0x80, scratch := 7 })] }
    .CORE_STAT (tk 0) Fld.CORE_STAT_RUN 1

/-- The registers hold 3 times their number. -/
def g3 : List Word := (List.range 32).map (fun i => BitVec.ofNat 64 (3 * i))

/-- The state after a command that answers a next state, and the same state otherwise. -/
def after (s : State) (i : Instr) : State := match exec i s with | .next t => t | _ => s

/-- The first byte of the scratchpads. -/
def sp : Nat := 0x040000000000

/-! ### Witnesses: the scalar core -/

theorem wit_StepRunsTheFrontCommand : { up with pending := [.add 0, .idcode] }.pending = .add 0 :: [.idcode] := by decide +kernel

/-- A word of format R or I: operation, D, A and the rest (R108). -/
def fmt (o d a r : Nat) : Nat := o * 2 ^ 26 + d * 2 ^ 21 + a * 2 ^ 16 + r

theorem wit_ArithmeticInstructionsWriteTheirResult :
    (∀ x ∈ [(0, CoreOp.add), (1, .sub), (2, .and), (3, .or), (4, .xor), (5, .sll), (6, .srl), (7, .sra), (8, .mul),
        (9, .mulh), (10, .slt), (11, .sltu), (12, .divu), (13, .remu)],
      Issues (core (fmt 0 3 4 (5 * 2 ^ 11 + x.1)) g3) 0 (fmt 0 3 4 (5 * 2 ^ 11 + x.1)) x.2 ∧
      Issues (core (fmt 0 0 4 x.1) g3) 0 (fmt 0 0 4 x.1) x.2) ∧
    (∀ x ∈ [(1, CoreOp.addi), (2, .andi), (3, .ori), (4, .xori), (5, .slli), (6, .srli), (7, .srai), (8, .shli)],
      Issues (core (fmt x.1 3 4 0x8001) g3) 0 (fmt x.1 3 4 0x8001) x.2 ∧
      Issues (core (fmt x.1 0 4 63) g3) 0 (fmt x.1 0 4 63) x.2) := by
  simp only [Issues, Live, Machine.Inv]; decide +kernel

theorem wit_BranchesAndJumpsSetThePc :
    ∀ x ∈ [(0x18, CoreOp.beq), (0x19, .bne), (0x1A, .blt), (0x1B, .bge), (0x1C, .bltu), (0x1D, .bgeu), (0x1E, .jal),
        (0x1F, .jalr)],
      Issues (core (fmt x.1 3 4 0xFFFF) g3) 0 (fmt x.1 3 4 0xFFFF) x.2 ∧
      Issues (core (fmt x.1 0 0 4) g3) 0 (fmt x.1 0 0 4) x.2 := by
  simp only [Issues, Live, Machine.Inv]; decide +kernel

theorem wit_CsrAccessesReadAndWrite :
    (∀ n ∈ List.range 9, Issues (core (fmt 0x26 3 0 n) g3) 0 (fmt 0x26 3 0 n) .csrr ∧ fmt 0x26 3 0 n % 256 = n) ∧
    (∀ n ∈ [5, 7, 8], Issues (core (fmt 0x27 0 4 n) g3) 0 (fmt 0x27 0 4 n) .csrw ∧ fmt 0x27 0 4 n % 256 = n) := by
  simp only [Issues, Live, Machine.Inv]; decide +kernel

/-- A core that holds an asynchronous cause. -/
def held (w : Nat) : State := modClu (core w g3) 0 (fun x => { x with held := [⟨5, 3, 77⟩, ⟨4, 0, 9⟩] })

/-- A core in its handler. -/
def inHandler (w : Nat) : State := fset (core w g3) .CORE_STAT (tk 0) Fld.CORE_STAT_INTRAP 1

theorem wit_TrapsEnterTheHandler :
    (∀ x ∈ [(0x30 * 2 ^ 26 + 0x1234, CoreOp.trap), (0x3F * 2 ^ 26 + 5, .illegal), (fmt 0x27 0 4 1, .csrw)],
      inTrap (core x.1 g3) 0 = false ∧ Issues (core x.1 g3) 0 x.1 x.2) ∧ fmt 0x27 0 4 1 % 256 ∉ [5, 7, 8] ∧
    (inTrap (held 0) 0 = false ∧ Live (held 0) ∧ (clu (held 0) 0).held = ⟨5, 3, 77⟩ :: [⟨4, 0, 9⟩] ∧
      fbit (held 0) .CORE_STAT (tk 0) Fld.CORE_STAT_RUN = true ∧ (clu (held 0) 0).load = none ∧
      (clu (held 0) 0).store = none ∧ (clu (held 0) 0).stall = none ∧ drained (held 0) 0 = false) ∧
    (inTrap (inHandler (0x30 * 2 ^ 26 + 0xFFFF)) 0 = true ∧
      Issues (inHandler (0x30 * 2 ^ 26 + 0xFFFF)) 0 (0x30 * 2 ^ 26 + 0xFFFF) .trap) ∧
    Issues (inHandler (0x31 * 2 ^ 26)) 0 (0x31 * 2 ^ 26) .eret ∧ Issues (core (fmt 0x32 0 4 0) g3) 0 (fmt 0x32 0 4 0) .halt := by
  simp only [Issues, Live, Machine.Inv]; decide +kernel

/-- A core whose matrix, vector and DMA sources are halted. -/
def halted (w : Nat) : State :=
  fset (fset (fset (core w g3) .DMA_CH_STAT (tk 0 ++ [3]) Fld.DMA_CH_STAT_HALTED 1) .VX_STAT (tk 0 ++ [3])
    Fld.VX_STAT_HALTED 1) .MX_STAT (tk 0) Fld.MX_STAT_HALTED 1

theorem wit_QueueTokenAndChannelInstructions :
    (Issues (core (fmt 0x20 0 4 0) g3) 0 (fmt 0x20 0 4 0) .qpush ∧ fA (fmt 0x20 0 4 0) = 4 ∧
      pushesStopped (core (fmt 0x20 0 4 0) g3) 0 = false ∧ srcHalted (core (fmt 0x20 0 4 0) g3) 0 0 = false ∧
      (clu (core (fmt 0x20 0 4 0) g3) 0).mx.queue.length < 256) ∧
    (Issues (core (fmt 0x20 0 4 4) g3) 0 (fmt 0x20 0 4 4) .qpush ∧ fmt 0x20 0 4 4 % 8 = (3 : Fin 4).val + 1 ∧
      pushesStopped (core (fmt 0x20 0 4 4) g3) 0 = false ∧ srcHalted (core (fmt 0x20 0 4 4) g3) 0 4 = false ∧
      (lget Vx.init (clu (core (fmt 0x20 0 4 4) g3) 0).vx 3).queue.length < 64) ∧
    (∀ src ∈ [0, 4, 16, 31], Issues (core (fmt 0x21 0 4 src) g3) 0 (fmt 0x21 0 4 src) .twait ∧
      srcHalted (core (fmt 0x21 0 4 src) g3) 0 src = false) ∧
    (∀ src ∈ [0, 4, 19], Issues (halted (fmt 0x21 0 4 src)) 0 (fmt 0x21 0 4 src) .twait ∧
      srcHalted (halted (fmt 0x21 0 4 src)) 0 src = true ∧ inTrap (halted (fmt 0x21 0 4 src)) 0 = false) ∧
    Issues (core (fmt 0x22 5 0 31) g3) 0 (fmt 0x22 5 0 31) .tread ∧
    (Issues (core (fmt 0x23 0 0 3) g3) 0 (fmt 0x23 0 0 3) .dkick ∧ pushesStopped (core (fmt 0x23 0 0 3) g3) 0 = false) ∧
    (∀ x ∈ [(0, CoreOp.dctlResume), (16, .dctlRetry), (32, .dctlReset)],
      Issues (halted (fmt 0x24 0 0 (x.1 + 3))) 0 (fmt 0x24 0 0 (x.1 + 3)) x.2 ∧
      pushesStopped (halted (fmt 0x24 0 0 (x.1 + 3))) 0 = false ∧ dmaHalted (halted (fmt 0x24 0 0 (x.1 + 3))) 0 3 = true) ∧
    Issues (core (fmt 0x25 0 0 1) g3) 0 (fmt 0x25 0 0 1) .roinv := by
  simp only [Issues, Live, Machine.Inv]; decide +kernel

/-- Registers in which g4 is `a`. -/
def gAddr (a : Nat) : List Word := lset g3 4 (BitVec.ofNat 64 a)

theorem wit_ScratchpadLoadAndStore :
    (∀ x ∈ [(fmt 0x10 5 4 8, CoreOp.lds), (fmt 0x11 5 4 8, .sts)],
      let s := core x.1 (gAddr 0x3FFFF0)
      logOf s 0 = some 0 ∧ (effAddr s 0 x.1).toNat = 0x3FFFF8 ∧ (∀ e ∈ s.tcBytes, e.1 < spBase) ∧ Issues s 0 x.1 x.2 ∧
      Plain s (spAddr 0 0x3FFFF8) 8 false ∧ Plain s (spAddr 0 0x3FFFF8) 8 true ∧ injArmed s (spAddr 0 0x3FFFF8 / 16) = false) ∧
    (∀ x ∈ [(fmt 0x10 5 4 9, CoreOp.lds), (fmt 0x11 5 4 9, .sts), (fmt 0x12 5 4 9, .ldg), (fmt 0x13 5 4 9, .stg)],
      let s := core x.1 (gAddr 0x3FFFF0)
      inTrap s 0 = false ∧ Issues s 0 x.1 x.2 ∧ (effAddr s 0 x.1).toNat = 0x3FFFF9) ∧
    (∀ x ∈ [(fmt 0x10 5 4 0, CoreOp.lds, 0x400000), (fmt 0x11 5 4 0, .sts, 0x400000), (fmt 0x12 5 4 0, .ldg, 2 ^ 48),
        (fmt 0x13 5 4 0, .stg, 2 ^ 48)],
      let s := core x.1 (gAddr x.2.2)
      inTrap s 0 = false ∧ Issues s 0 x.1 x.2.1 ∧ (effAddr s 0 x.1).toNat = x.2.2) := by
  simp only [Issues, Live, Machine.Inv, Plain]; decide +kernel

/-- A load or store under way at an address of the stack, and one outside the device that has been answered. -/
def pend : CorePend := ⟨0x1008, 5, 0x1122334455667788, none⟩
def pendOut : CorePend := ⟨0x200000001008, 5, 0, some (0, [1, 2, 3, 4, 5, 6, 7, 8])⟩
def loading (p : CorePend) : State := modClu (core 0 g3) 0 (fun x => { x with load := some p })
def storing (p : CorePend) : State := modClu (core 0 g3) 0 (fun x => { x with store := some p })

theorem wit_GlobalLoadAndStore :
    (∀ x ∈ [(fmt 0x12 5 4 0, CoreOp.ldg, false), (fmt 0x13 5 4 0, .stg, true)],
      let s := core x.1 (gAddr 0x3FFFFFF8)
      (effAddr s 0 x.1).toNat = 0x3FFFFFF8 ∧ outside 0x3FFFFFF8 = false ∧ Issues s 0 x.1 x.2.1 ∧
      accStatus s 0x3FFFFFF8 8 x.2.2 ≠ 0x0301) ∧
    (Live (loading pend) ∧ drained (loading pend) 0 = false ∧ outside pend.addr = false ∧
      (clu (loading pend) 0).load = some pend ∧
      (accRead (modClu (bare (loading pend)) 0 (fun x => { x with load := none }))
        (coreAgent (modClu (bare (loading pend)) 0 (fun x => { x with load := none })) 0) pend.addr 8
        (trapMore (modClu (bare (loading pend)) 0 (fun x => { x with load := none })) 0 0x06 (BitVec.ofNat 64 pend.addr))).st
          = 0) ∧
    (Live (storing pend) ∧ drained (storing pend) 0 = false ∧ (clu (storing pend) 0).store = some pend ∧
      (accWrite (modClu (bare (storing pend)) 0 (fun x => { x with store := none }))
        (coreAgent (modClu (bare (storing pend)) 0 (fun x => { x with store := none })) 0) pend.addr (leBytes 8 pend.data.toNat)
        (trapMore (modClu (bare (storing pend)) 0 (fun x => { x with store := none })) 0 0x06 (BitVec.ofNat 64 pend.addr))).1
          = 0) ∧
    (Live (loading pendOut) ∧ drained (loading pendOut) 0 = false ∧ outside pendOut.addr = true ∧
      (clu (loading pendOut) 0).load = some pendOut ∧ pendOut.answer = some (0, [1, 2, 3, 4, 5, 6, 7, 8])) := by
  simp only [Issues, Live, Machine.Inv]; decide +kernel

theorem wit_GlobalLoadAndStore_cache :
    (∀ code ∈ [true, false], let s := core 0 g3
      Live s ∧ (clu s 0).rocErr = [] ∧ rocFind (clu s 0) code 0x1010 = none ∧ (rocFillLine (bare s) 0 code (0x1010 / 256)).1 = 0 ∧
      ∃ l, rocFind (clu (rocFillLine (bare s) 0 code (0x1010 / 256)).2 0) code 0x1010 = some l ∧ groupStatus l 0x1010 = 0) ∧
    rocFind (clu (core 0 g3) 0) true 0 = some (line 0) ∧ groupHeld (line 0) 0 = true := by
  refine ⟨?_, by decide +kernel, by decide +kernel⟩
  simp only [Live, Machine.Inv]
  intro code h
  refine ⟨by decide +kernel, by decide +kernel, ?_, ?_, ?_⟩
  · revert code; decide +kernel
  · revert code; decide +kernel
  · obtain rfl | rfl : code = true ∨ code = false := by simp at h; cases code <;> simp
    all_goals exact ⟨_, rfl, by decide +kernel⟩

/-! ### Witnesses: vector cores, the matrix array, DMA, the scratchpad -/

/-- A vector word: VOP, TYP, vd, va, vb, vc, mask, address register and immediate (R120). -/
def vw (o t d a b m abr imm : Nat) : Nat :=
  o * 2 ^ 56 + t * 2 ^ 53 + d * 2 ^ 48 + a * 2 ^ 43 + b * 2 ^ 38 + m * 2 ^ 30 + abr * 2 ^ 27 + imm

/-- Vector core 1 of cluster 0 has the word `w` at its queue's head. -/
def vec (w : Nat) : State :=
  setVx (core 0 g3) 0 1 { Vx.init with queue := [BitVec.ofNat 64 w, 9], a := [0, 0x3FFF70, 0, 0, 0, 0, 0, 0] }

theorem wit_VectorLaneInstructions :
    ∀ o ∈ [1, 2, 3, 4, 5, 6, 7, 8, 9, 0xA, 0x10, 0x11, 0x12, 0x13, 0x14, 0x15, 0x1A], ∀ t ∈ [0, 1],
      VHead (vec (vw o t 31 4 5 2 0 0x3C00)) 0 1 (vw o t 31 4 5 2 0 0x3C00) [9] ∧ vOp (vw o t 31 4 5 2 0 0x3C00) = o := by
  simp only [VHead, Live, Machine.Inv]; decide +kernel

theorem wit_VectorLaneInstructions_integer :
    ∀ o ∈ [1, 2, 3, 4, 5, 6, 7, 8, 9, 0xA, 0x1A], ∀ t ∈ [2, 4],
      VHead (vec (vw o t 31 4 5 7 0 0x7F)) 0 1 (vw o t 31 4 5 7 0 0x7F) [9] := by
  simp only [VHead, Live, Machine.Inv]; decide +kernel

theorem wit_IntegerLanesWrap : ∀ T ∈ [2, 3, 4], 2 ^ laneW T - 1 < 2 ^ laneW T := by decide +kernel

theorem wit_VectorCrossLaneInstructions :
    (∀ x ∈ [(0x00, 0), (0x18, 0x3C), (0x19, 0x3C), (0x20, 3), (0x38, 0x3FFFFF), (0x39, 0x3FFFFF), (0x3C, 0xFFFF)],
      VHead (vec (vw x.1 0 7 4 5 0 0 x.2)) 0 1 (vw x.1 0 7 4 5 0 0 x.2) [9] ∧ vOp (vw x.1 0 7 4 5 0 0 x.2) = x.1) ∧
    VHead (vec (vw 0x21 0 7 4 5 7 0 0)) 0 1 (vw 0x21 0 7 4 5 7 0 0) [9] ∧
    (∀ x ∈ [(0, 1 + 8), (1, 0), (0, 4), (4, 2 + 24)],
      VHead (vec (vw 0x28 x.1 3 4 0 1 0 x.2)) 0 1 (vw 0x28 x.1 3 4 0 1 0 x.2) [9] ∧ vOp (vw 0x28 x.1 3 4 0 1 0 x.2) = 0x28) ∧
    (let s := setVx (core 0 g3) 0 1 { Vx.init with sync := some 0x12345 };
      Live s ∧ (clu s 0).twait = none ∧ (vxOf s 0 1).sync = some 0x12345 ∧ drained s 0 = false) ∧
    (let s := vec (vw 0x3F 0 0 0 0 0 0 0);
      Live s ∧ (clu s 0).stall = none ∧ (clu s 0).twait = none ∧ (vxOf s 0 1).queue = BitVec.ofNat 64 (vw 0x3F 0 0 0 0 0 0 0) :: [9] ∧
      vReady s 0 1 = true ∧ vKnown (vOp (BitVec.ofNat 64 (vw 0x3F 0 0 0 0 0 0 0)).toNat) = false) := by
  simp only [VHead, Live, Machine.Inv]; decide +kernel

theorem wit_VectorLoadsAndStores :
    ∀ o ∈ [0x30, 0x31, 0x32],
      let w := vw o 0 3 0 0 0 1 0x10
      VHead (vec w) 0 1 w [9] ∧ logOf (vec w) 0 = some 0 ∧ vAddr (vxOf (vec w) 0 1) w + 128 = 2 ^ 22 ∧
      (∀ e ∈ (vec w).tcBytes, e.1 < spBase) ∧ Plain (vec w) (spAddr 0 0x3FFF80) 128 false ∧ vMsk w = 0 ∧
      Plain (vec w) (spAddr 0 0x3FFF80) (laneW (vTyp w) / 8) false ∧
      (∀ k, k < 8 → Plain (vec w) (spAddr 0 0x3FFF80 + 16 * k) 16 true) ∧
      ∀ k, k < 8 → injArmed (vec w) (spAddr 0 0x3FFF80 / 16 + k) = false := by
  simp only [VHead, Live, Machine.Inv, Plain]; decide +kernel

/-- Words 0 to 3 of a matrix instruction (R94, R98): opcode, WFMT, ACC, OFMT, K and M; output stride and weights; N;
addresses of STAT, OUT and BIAS. -/
def mword (opc wf acc ofm k m os n stat out bias : Nat) : List Nat :=
  [opc * 2 ^ 56 + wf * 2 ^ 51 + acc * 2 ^ 44 + ofm * 2 ^ 41 + k * 2 ^ 16 + m * 2 ^ 8, os * 2 ^ 48 + 0x1000, n * 2 ^ 44,
   stat / 16 * 2 ^ 46 + out / 16 * 2 ^ 28 + bias / 16 * 2 ^ 10]

def mma4 : List Nat := mword 0x40 7 0 1 4 2 0x20 3 0x2000 0x3000 0
def mma0 : List Nat := mword 0x40 7 1 1 0 2 0x20 3 0x2000 0x3000 0x3800
def drain : List Nat := [0x41 * 2 ^ 56 + 1 * 2 ^ 41 + 2 * 2 ^ 16 + 2 * 2 ^ 8, 0x20 * 2 ^ 48, 0, 0x3100 / 16 * 2 ^ 46]
def msync : List Nat := [0x42 * 2 ^ 56 + 0x55, 0, 0, 0]

/-- The matrix array of cluster 0 with a queue. -/
def mat (q : List (List Nat)) : State := setMx (core 0 g3) 0 { Mx.init with queue := q }

theorem wit_MatrixQueueAndPipe_head :
    (MHead (mat [mma0]) 0 0x40 mma0 [] ∧ mmaCheck (mxRunOf mma0) = 0 ∧ (mxRunOf mma0).k = 0) ∧
    (MHead (mat [mma4, msync]) 0 0x40 mma4 [msync] ∧ mmaCheck (mxRunOf mma4) = 0 ∧ (mxRunOf mma4).k ≠ 0 ∧
      logOf (mat [mma4, msync]) 0 = some 0 ∧ (∀ e ∈ (mat [mma4, msync]).tcBytes, e.1 < spBase) ∧
      ∀ m, m < (mxRunOf mma4).m → Plain (mat [mma4, msync])
        (spAddr 0 ((mxRunOf mma4).stat + m * 128 * aSize (mxRunOf mma4).afmt)) ((mxRunOf mma4).k * aSize (mxRunOf mma4).afmt)
        false) ∧
    (MHead (mat [msync]) 0 0x42 msync [] ∧ msyncCheck (mxRunOf msync) = 0) ∧
    (let e := mword 0x40 0x13 0 1 4 2 0x20 3 0x2000 0x3000 0;
      MHead (mat [e]) 0 0x40 e [] ∧ mmaCheck (mxRunOf e) ≠ 0 ∧ (clu (mat [e]) 0).twait = none) ∧
    (let e := lset drain 3 1;
      MHead (mat [e]) 0 0x41 e [] ∧ mdrainCheck (mxRunOf e) ≠ 0) ∧
    (let e := lset msync 2 1;
      MHead (mat [e]) 0 0x42 e [] ∧ msyncCheck (mxRunOf e) ≠ 0) ∧
    MHead (mat [[0x43 * 2 ^ 56, 0, 0, 0]]) 0 0x43 [0x43 * 2 ^ 56, 0, 0, 0] [] := by
  simp only [MHead, Live, Machine.Inv, Plain]; decide +kernel

/-- An MMA with K = 4 in the pipe: loaded, streaming, with its first column taken by both slots, and done. -/
def mLoaded : State := after (mat [mma4]) (.mma 0)
def mStreaming : State := after mLoaded (.mmaStreamStart 0)
def mColumn : State := after (after mStreaming (.mmaSlotUpdate 0 0)) (.mmaSlotUpdate 0 1)
def mDone : State := setMx mColumn 0 { mxOf mColumn 0 with
  pipe := (mxOf mColumn 0).pipe.map (fun r => { r with outCol := 3, next := [3, 3] }) }

theorem wit_MatrixQueueAndPipe_ready :
    ∀ s ∈ [mLoaded, mStreaming, mColumn, mDone], Live s ∧ drained s 0 = false ∧ s.topo.dark.contains (0 : Fin 1024).val = false := by
  simp only [Live, Machine.Inv]; decide +kernel

theorem wit_MatrixQueueAndPipe_run :
    (∃ r, (mxOf mLoaded 0).pipe.findIdx? (fun r => !r.live) = some 0 ∧ (mxOf mLoaded 0).pipe[0]? = some r ∧ r.k ≠ 0) ∧
    (∃ r col, (mxOf mStreaming 0).pipe.findIdx? (fun r => r.live && decide (0 < r.m) && decide (lget 0 r.next 0 < r.limit)) = some 0 ∧
      (mxOf mStreaming 0).pipe[0]? = some r ∧ tfind r.cols (lget 0 r.next 0) = some col) ∧
    (∃ r, (mxOf mColumn 0).pipe.findIdx? (fun r => r.live && r.ofmt != 0 && decide (r.outCol < r.limit)) = some 0 ∧
      (mxOf mColumn 0).pipe[0]? = some r ∧ r.next.all (fun y => decide (r.outCol < y)) = true ∧
      (writeRecord 0 r.ofmt (r.oaddr + r.outCol * r.ostride)
        ((List.range r.m).map (fun m => tget Slot.zero r.outs (128 * r.outCol + m))) (bare mColumn)).1 = 0) ∧
    (∃ r rest, (mxOf mDone 0).pipe = r :: rest ∧ r.live = true ∧ r.updating = false ∧ r.undef = false ∧ r.limit ≤ r.outCol) := by
  refine ⟨⟨_, by decide +kernel, rfl, by decide +kernel⟩, ⟨_, _, by decide +kernel, rfl, rfl⟩, ⟨_, by decide +kernel, rfl, by decide +kernel, by decide +kernel⟩,
    ⟨_, _, rfl, by decide +kernel, by decide +kernel, by decide +kernel, by decide +kernel⟩⟩

theorem wit_MatrixQueueAndPipe_drain :
    (MHead (mat [drain]) 0 0x41 drain [] ∧ (mxOf (mat [drain]) 0).pipe.any (fun y => y.updating) = false ∧
      mdrainCheck (mxRunOf drain) = 0 ∧
      (foldUp ((mxRunOf drain).k + 1) (fun (acc : Nat × Nat × State) i =>
        if acc.1 != 0 then acc
        else
          let w := writeRecord 0 (mxRunOf drain).ofmt (bits (mxRunOf drain).w3 63 46 * 16 + i * (mxRunOf drain).ostride)
            ((List.range (mxRunOf drain).m).map (fun m => mxSlot (mxOf acc.2.2 0) m ((mxRunOf drain).aslot + i))) acc.2.2
          if w.1 != 0 then (w.1, 0, w.2) else (0, 0, w.2)) (0, 0, noBallast (bare (mat [drain])) 0)).1 = 0) ∧
    (let s := setMx (core 0 g3) 0 { Mx.init with sync := some 0x55 };
      Live s ∧ (mxOf s 0).sync = some 0x55 ∧ (mxOf s 0).pipe = [] ∧ (clu s 0).twait = none) ∧
    (let s := { mat [] with pwr := { (mat []).pwr with bal := 64 } };
      Live s ∧ (mxOf s 0).queue = [] ∧ (mxOf s 0).pipe = [] ∧ ballastAsked s 0 = true) := by
  simp only [MHead, Live, Machine.Inv]; decide +kernel

/-! ### Witnesses: DMA, scratchpad ports, shaft controllers, near-bank units -/

/-- The four words of a descriptor (R137). -/
def dword (op red fence tok token len src dst w3 : Nat) : List Byte :=
  leBytes 8 (op * 2 ^ 56 + red * 2 ^ 52 + fence * 2 ^ 49 + tok * 2 ^ 48 + token * 2 ^ 32 + len) ++ leBytes 8 src ++
    leBytes 8 dst ++ leBytes 8 w3

/-- Channel 3 of cluster 0 with the descriptors `ds` in its ring. -/
def chan (ds : List (List Byte)) : State :=
  let s := { core 0 g3 with mem := mwrite [(sp + 0x201, 7), (sp + 0x210, 9)] sp ds.flatten }
  setTail (fset s .DMA_CH_CFG (tk 0 ++ [3]) Fld.DMA_CH_CFG_RSZ 1) 0 3 ds.length

def copyD : List Byte := dword 1 0 0 1 0x77 32 (sp + 0x200) (sp + 0x300) 0
def copy2dD : List Byte := dword 2 0 0 0 0 16 (sp + 0x200) (sp + 0x340) (2 ^ 48 + 16 * 2 ^ 24 + 32)
def fillD : List Byte := dword 3 0 1 0 0 32 0xAABBCCDD (sp + 0x3FFFE0) 0
def badD : List Byte := dword 1 0 0 0 0 0 0 0 0

theorem wit_DmaChannelSteps :
    (∀ x ∈ [([copyD], 1), ([copy2dD], 2), ([fillD], 3), ([badD], 1)],
      let s := chan x.1
      let d := dmaCh s 0 3
      let e := readEntry (bare s) 0 3 d.next
      Live s ∧ drained s 0 = false ∧ s.topo.dark.contains 0 = false ∧ dmaHalted s 0 3 = false ∧ d.next ≠ dmaTail s 0 3 ∧
      d.runs = [] ∧ e.st = 0 ∧ opRow (dOp (entryWords e.bytes)) = x.2) ∧
    (∀ x ∈ [(after (chan [copyD]) (.dmaCopy 0 3), false), (after (chan [badD]) (.dmaCopy 0 3), true)],
      Live x.1 ∧ drained x.1 0 = false ∧ x.1.topo.dark.contains 0 = false ∧ ∃ r, (dmaCh x.1 0 3).runs = [r] ∧ r.phase = 3 ∧
      (decide (r.status ≠ 0) = x.2) ∧ (writeStatus (advanceHead 0 3 (bare x.1)) 0 3 r.idx r.status).1 = 0) := by
  simp only [Live, Machine.Inv]
  refine ⟨by decide +kernel, fun x h => ?_⟩
  simp only [List.mem_cons, List.not_mem_nil, or_false] at h
  rcases h with rfl | rfl <;>
    exact ⟨by decide +kernel, by decide +kernel, by decide +kernel, _, rfl, by decide +kernel, by decide +kernel, by decide +kernel⟩

theorem wit_DmaChannelSteps_fill :
    let s := chan [fillD]
    let w := entryWords (mread s.mem (spAddr 0 (entryOff s 0 3 (dmaCh s 0 3).next)) 32)
    Live s ∧ drained s 0 = false ∧ s.topo.dark.contains 0 = false ∧ logOf s 0 = some 0 ∧ (∀ e ∈ s.tcBytes, e.1 < spBase) ∧
    s.tc = [] ∧ fbit s .ECC_INJ [] Fld.ECC_INJ_ARM = false ∧ Plain s (spAddr 0 (entryOff s 0 3 (dmaCh s 0 3).next)) 32 false ∧
    (clu s 0).dma.length = 16 ∧ (dmaCh s 0 3).runs = [] ∧ dmaHalted s 0 3 = false ∧ (dmaCh s 0 3).next ≠ dmaTail s 0 3 ∧
    descInvalid w = false ∧ dOp w = 3 ∧ dRed w = 0 ∧ spBase ≤ dDst w ∧ dDst w + dLen w = sp + 2 ^ 22 ∧
    dDst w + dLen w ≤ apBase ∧ Plain s (dDst w) (dLen w) true := by
  simp only [Live, Machine.Inv, Plain]; decide +kernel

/-- An access of requester 77. -/
def req (w : Bool) (a n : Nat) : MemReq := ⟨77, 4, a, n, w, if w then List.replicate n 5 else [], 0⟩

theorem wit_ScratchpadPortAccesses :
    ∀ q ∈ [req false 0x3FFFC0 64, req true 0x3FFFFF 1, req true 0 64],
      let s := core 0 g3
      Live s ∧ logOf s 0 = some 0 ∧ s.topo.dark.contains 0 = false ∧ q.len ≠ 0 ∧ q.addr + q.len ≤ 2 ^ 22 ∧
      (∀ e ∈ s.tcBytes, e.1 < spBase) ∧ fbit s .ECC_INJ [] Fld.ECC_INJ_ARM = false ∧ Plain s (spAddr 0 q.addr) q.len q.write := by
  simp only [Live, Machine.Inv, Plain]; decide +kernel

/-- The stack with an uncorrectable word (9) and a correctable one (10). -/
def bad9 : State := { core 0 g3 with chk := [(9, 0xFFFF), (10, 1)] }
def bank0 : BankId := ⟨0, 0, 0⟩
def bank1 : BankId := ⟨0, 0, 1⟩

theorem wit_ShaftControllerSteps :
    (∀ q ∈ [req false 0x90 32, req true (2 ^ 33 - 64) 64],
      Live bad9 ∧ q.addr + q.len ≤ spBase ∧ mapped bad9 q.addr q.len = true ∧ touchesOffline bad9 q.addr q.len = false ∧
      nbTouch bad9 q.addr q.len q.write = false ∧ ∃ k, bankOf bad9 q.addr = some k ∧ bankBusy bad9 k = false) ∧
    (tget 0 bad9.ecc.cmdTries 0 + 1 < 3 ∧ 3 ≤ tget 0 { bad9.ecc with cmdTries := [(0, 2)] }.cmdTries 0 + 1) ∧
    ((nbUnit bad9 (bankNum bank0)).run = none ∧ (refrOf bad9 (bankNum bank0)).busy = false) ∧
    (let s := after bad9 (.refreshRowDue bank0);
      (refrOf s (bankNum bank0)).busy = true ∧ (nbUnit s (bankNum bank0)).run = none ∧ s.nbBlock = [] ∧ ∀ e ∈ s.nbHeld, e.1 ≠ bankNum bank0) ∧
    (∀ n ∈ [0, 512 * 8192 - 1],
      let s := fset { bad9 with ecc := { bad9.ecc with scrub := [(1, n)] } } .MEM_SCRUB_CTL [] Fld.MEM_SCRUB_CTL_EN 1
      let b := 512 * 1 + n / 8192
      Live s ∧ fbit s .MEM_SCRUB_CTL [] Fld.MEM_SCRUB_CTL_EN = true ∧ (onlinePillars s).contains 1 = true ∧
      s.ecc.skipped = [] ∧ s.ecc.scrubbed.contains 1 = false ∧ tget 0 s.ecc.scrub 1 = n ∧
      (refrOf s b).busy = false ∧ (refrOf s b).due = false ∧ unitRuns s b = false) ∧
    (inOver bad9 8 = false ∧ (readWord bad9 8).1 = .clean) ∧ (inOver bad9 9 = false ∧ (readWord bad9 9).1.status ≠ 0) := by
  simp only [Live, Machine.Inv]
  refine ⟨?_, by decide +kernel, by decide +kernel, by decide +kernel, by decide +kernel, by decide +kernel, by decide +kernel⟩
  intro q h
  simp only [List.mem_cons, List.not_mem_nil, or_false] at h
  rcases h with rfl | rfl <;>
    exact ⟨by decide +kernel, by decide +kernel, by decide +kernel, by decide +kernel, by decide +kernel, _, rfl, by decide +kernel⟩

/-- A micro-operation (R157). -/
def uw (op a b c imm : Nat) : Nat := op * 2 ^ 26 + a * 2 ^ 22 + b * 2 ^ 18 + c * 2 ^ 14 + imm

/-- A RUN command of slot 3 of tower 0. -/
def ncmd : NbCmd :=
  { tower := 0, slot := 3, kind := 1, pc := 0, prelen := 0, desc := false, store := 0, tag := 9, inB := 0, inL := 16,
    outB := 32, outL := 4, p := List.replicate 16 0, data := [], job := 0, kv := false }

/-- A unit whose P3 is a record's address and whose AC1 is 33. -/
def nunit : NbUnit := { NbUnit.init with ac := [3, 33, 5, 0x1FFFF], p := lset (List.replicate 16 0) 3 0x4000, valid := [true, true] }

/-- The unit of bank 1 runs its program at entry `pc`, where the word `w` stands. -/
def unit (w pc : Nat) (f : NbRun → NbRun) : State :=
  setUnit { core 0 g3 with nbOut := [(3, [1, 2])], bucket := [(0, ⟨1000, 3⟩)] } 1
    { nunit with run := some (f { nbRunOf ncmd with pc := pc }), store := [List.replicate pc 0 ++ [w], []] }

/-- What runs in the unit of bank 1. -/
def urun (s : State) : NbRun := ((nbUnit s 1).run).getD (nbRunOf ncmd)

theorem wit_UnitRegisterOperations :
    ∀ o ∈ [0, 2, 3, 4, 5, 6, 0x10, 0x11, 0x12, 0x13, 0x18, 0x19, 0x1A, 0x1B, 0x1C, 0x1D, 0x1E, 0x1F],
      let w := uw o 3 14 13 0
      let s := unit w 126 id
      Live s ∧ (nbUnit s 1).run = some (urun s) ∧ (urun s).stop = none ∧ (urun s).desc = false ∧
      pillarOff s 0 = false ∧ lget 0 (lget [] (nbUnit s 1).store (urun s).cmd.store) (urun s).pc = w ∧ uOp w = o ∧
      (urun s).pc + 1 = 127 ∧ uB w + spanLen (uImm w % 4) ≤ 16 ∧ bits (uImm w) 8 2 + etN (uImm w % 4) ≤ 128 := by
  simp only [Live, Machine.Inv]; decide +kernel

theorem wit_UnitCommandSteps_arrive :
    (∀ s ∈ [setUnit (unit 0 3 id) 1 nunit, unit 0 3 id],
      let s := { s with nbFlight := [(2, ncmd), (1, { ncmd with slot := 47 })] }
      Live s ∧ s.nbFlight.find? (fun e => e.1 == 1) = some (1, { ncmd with slot := 47 }) ∧ pillarOff s 0 = false ∧ ncmd.kv = false ∧
      (nbUnit s 1).pendT = none) ∧
    (nbUnit (setUnit (unit 0 3 id) 1 nunit) 1).run = none ∧ (nbUnit (unit 0 3 id) 1).run = some (urun (unit 0 3 id)) ∧
    (let s := { unit 0 3 id with nbHeld := [(1, ⟨9, 4, 0x800800, 64, false, [], 0⟩)] };
      Live s ∧ s.nbHeld.find? (fun e => e.1 == 1 && !e.2.write && nbTouch s e.2.addr e.2.len false) =
        some (1, ⟨9, 4, 0x800800, 64, false, [], 0⟩)) ∧
    (let s := unit 0 127 id;
      Live s ∧ (urun s).stop = none ∧ (urun s).pc = 127 ∧ (urun s).wrote = false) := by
  simp only [Live, Machine.Inv]; decide +kernel

/-- The columns' words: RDC of column 0, WRC of column 33, EMIT to the pillar's merge unit and to memory. -/
def rdcW : Nat := uw 8 0 0 0 (33 * 256)
def wrcW : Nat := uw 9 0 1 0 (3 * 256)
def emitM : Nat := uw 0xA 3 0 0 (2 + 5 * 64 + 4096)
def emitA : Nat := uw 0xA 3 0 0 (2 + 32 * 64)

theorem wit_UnitCommandSteps_run :
    (∀ w ∈ [uw 1 0 0 0 0, rdcW, wrcW, emitM, emitA],
      let s := unit w 4 id
      Live s ∧ (nbUnit s 1).run = some (urun s) ∧ (urun s).stop = none ∧ (urun s).desc = false ∧ pillarOff s 0 = false ∧
      lget 0 (lget [] (nbUnit s 1).store (urun s).cmd.store) (urun s).pc = w ∧ (urun s).step = none) ∧
    (let s := unit rdcW 4 id
     let q := issueCol 1 3 (urun s) (bare s);
     bits (uImm rdcW) 13 8 = 33 ∧ lget 0 (nbUnit s 1).ac (uB rdcW % 4) = 3 ∧ inRange 3 (urun s).inB (urun s).inL = true ∧
      q.1 = true ∧ (unitRead q.2 1 3).st = 0) ∧
    (let s := unit wrcW 4 id
     let q := issueCol 1 33 (urun s) (bare s);
     bits (uImm wrcW) 13 8 ≤ 33 ∧ lget 0 (nbUnit s 1).ac (uB wrcW % 4) = 33 ∧ inRange 33 (urun s).outB (urun s).outL = true ∧
      q.1 = true ∧ (bankBase q.2 1).isSome = true) ∧
    (mergeSend (bare (unit emitM 4 id)) 0 0x4000 ((List.range 2).map (fun i => latch (nbUnit (unit emitM 4 id) 1) (5 + i)))).isSome
      = true ∧
    (let s := unit emitA 4 id;
      mapped s 0x4000 128 = true ∧ 0x4000 + 128 ≤ spBase ∧ runsIn s 0x4000 128 = false ∧
      (accWrite (bare s) ⟨0, 6, 0, true, false, 0, false⟩ 0x4000 (latchBytes (nbUnit s 1) 32 2)).1 = 0) ∧
    (∀ s ∈ [unit 0 3 (fun r => { r with step := some (1, 2) }), unit 0 3 (fun r => { r with stop := some 0x0805 })],
      Live s ∧ (nbUnit s 1).run = some (urun s) ∧ (refrOf s 1).due = false ∧ (refrOf s 1).busy = false ∧
      (∀ e ∈ s.nbHeld, e.1 ≠ 1) ∧ s.nbBlock = [] ∧ (urun s).cmd.kv = false ∧ (nbUnit s 1).pendT = none ∧ (nbUnit s 1).pendF = none) := by
  simp only [Live, Machine.Inv]; decide +kernel

theorem wit_SlotReportsAreCounted :
    (∀ s ∈ [unit 0 3 id, { unit 0 3 id with nbOut := [(3, [1])] }],
      ncmd.tower < 16 ∧ ncmd.slot < 64 ∧ s.topo.lmap.length ≤ 1024 ∧ 1 ∈ tget [] s.nbOut (64 * ncmd.tower + ncmd.slot) ∧
      fget s .NB_S_STAT [0, 3] Fld.NB_S_STAT_DONE_CNT < 2 ^ 15 ∧ fget s .NB_S_STAT [0, 3] Fld.NB_S_STAT_FAIL_CNT = 0) ∧
    tget [] { unit 0 3 id with nbOut := [(3, [1])] }.nbOut 3 = [1] ∧
    Live (unit 0 3 (fun r => { r with wait := false })) ∧
    (∀ e ∈ (unit 0 3 (fun r => { r with wait := false })).nb, e.1 / 512 = 0 → ∀ r ∈ e.2.run, r.wait = false) := by
  simp only [Live, Machine.Inv]; decide +kernel

/-! ### Witnesses: the tower cache and Tarhel -/

/-- A step of the check on one case of a list. -/
theorem each2 {α : Type} {P : α → Prop} {a b : α} (ha : P a) (hb : P b) : ∀ x ∈ [a, b], P x := by
  intro x h
  simp only [List.mem_cons, List.not_mem_nil, or_false] at h
  rcases h with rfl | rfl
  · exact ha
  · exact hb

/-- A tower cache with a line whose batch waits, the same line to be written back, and one being flushed. -/
def red : State := after (fset (core 0 g3) .TC_CFG [0] Fld.TC_CFG_DET 1) (.tcReduction 9 0x400 3 (List.replicate 16 3) 0)
def victim : State := setTc red 0 { tcOf red 0 with lines := (tcOf red 0).lines.map (fun l => { l with victim := true, dirty := true }) }
def thrash : State := setTc (fset (core 0 g3) .TC_PIN_QUOTA [0] Fld.TC_PIN_QUOTA_QUOTA 0) 0 { tcOf (core 0 g3) 0 with look := 16 * 2 ^ 20, miss := 16 * 2 ^ 20 }

theorem wit_TowerCacheSteps :
    (∀ x ∈ [(1, 0), (9, 2)], Live (core 0 g3) ∧ 0x400 % 16 = 0 ∧ 0x400 + 16 ≤ spBase ∧ accStatus (core 0 g3) 0x400 16 true = 0 ∧
      (accReduce (bare (core 0 g3)) 5 0x400 x.1 x.2 (List.replicate 16 3) 0).2.isSome = true) ∧
    (Live victim ∧ (((tcOf victim 0).lines.filter (fun l => l.victim)).getLast?.bind
      (fun l => tcLine (tcOf (settle (bare victim) 0 l.gran) 0) l.gran)).isSome = true) ∧
    (Live red ∧ (tcOf red 0).lines.any (fun l => !l.staged.isEmpty) = true) ∧
    (Live (fset red .TC_STAT [0] Fld.TC_STAT_FLUSHING 1) ∧
      fbit (fset red .TC_STAT [0] Fld.TC_STAT_FLUSHING 1) .TC_STAT [0] Fld.TC_STAT_FLUSHING = true) ∧
    (Live thrash ∧ thrashWin thrash 0 ≤ (tcOf thrash 0).look ∧
      max 1 (fget thrash .TC_THRASH [0] Fld.TC_THRASH_THRESH) * (tcOf thrash 0).look < 256 * (tcOf thrash 0).miss ∧
      15 * (quota thrash 0 * 4096) ≤ 16 * ((tcOf thrash 0).lines.filter (fun l => l.cls == 1)).length) ∧
    spaceOf (0x040100000000 + 0x3FFFFF0) = .aperture 0 0x3FFFFF0 ∧ mapped (core 0 g3) (0x040100000000 + 0x3FFFFF0) 16 = true ∧
    (apRead (bare (core 0 g3)) 0 0x3FFFFF0 16).st = 0 := by
  simp only [Live, Machine.Inv]; decide +kernel

/-- Queue `q` is enabled, with 16 entries in each ring. -/
def qOn (s : State) (q : Nat) : State :=
  let s := rput (rput s .QD_SQ_BASE [q] (0x10000 + q * 0x1000)) .QD_CQ_BASE [q] (0x20000 + q * 0x1000)
  let s := rput s .QD_Q_CFG [q] (4 + 5 * 2 ^ 32)
  fset (fset s .QD_Q_CTL [q] Fld.QD_Q_CTL_EN 1) .QD_Q_STAT [q] Fld.QD_Q_STAT_ENABLED 1

/-- Command 7 of queue 0. -/
def cmd7 (opc : Nat) (par : List Byte) : Cmd :=
  { id := 7, q := 0, tag := 0x77, opc := opc, flags := 0, par := par, begun := false, status := none, detail := 0 }

/-- A device with command 7 in flight. -/
def cm (s : State) (opc : Nat) (par : List Byte) : State := { qOn s 0 with cmds := [cmd7 opc par], nextCmd := 8 }

/-- Parameter bytes: widths and values. -/
def pars (l : List (Nat × Nat)) : List Byte := l.flatMap (fun p => leBytes p.1 p.2)

theorem wit_RepliesArePosted :
    (let s := cm (core 0 g3) 0 []
     let c := { cmd7 0 [] with status := some 0x103 }
     let t := { s with cmds := [c] };
      Live t ∧ qCmds t 0 = c :: [] ∧ t.tc = [] ∧ t.tcBytes = [] ∧ (∀ e ∈ t.nb, e.2.run = none) ∧
      fbit t .ECC_INJ [] Fld.ECC_INJ_ARM = false ∧ qResetting t 0 = false ∧ replyHeld t 0 = false ∧ tbit c.flags 1 = false ∧
      (qdOf t 0).told = (qdOf t 0).fence ∧ cqAddr t 0 (cqTail t 0) + 32 ≤ spBase ∧ Plain t (cqAddr t 0 (cqTail t 0)) 32 true ∧
      c.tag < 2 ^ 32 ∧ c.opc < 2 ^ 8 ∧ c.detail < 2 ^ 64 ∧ (qdOf t c.q).fence < 2 ^ 32) ∧
    (cmdOf (cm (core 0 g3) 0 []) 7 = some (cmd7 0 []) ∧ (cmd7 0 []).status = none) := by
  simp only [Live, Machine.Inv, Plain]; decide +kernel

/-- Queue 0 with one entry in its ring for each word. -/
def ring (l : List Nat) : State :=
  let s := fset (qOn (core 0 g3) 0) .QD_Q_PTR [0] Fld.QD_Q_PTR_SQ_TAIL l.length
  { s with mem := mwrite s.mem 0x10000 (l.flatMap (leBytes 64)) }

theorem wit_CommandsAreFetched :
    ∀ x ∈ [([5 * 2 ^ 32 + 2 ^ 16], 1), ([5 * 2 ^ 32], 0), ([5 * 2 ^ 32 + 65 * 2 ^ 16], 65), ([5 * 2 ^ 32 + 2 * 2 ^ 16 + 0x10, 0], 2)],
      let s := ring x.1
      let h := accRead (bare s) (qAgent s 0) (sqAddr s 0 (sqHead s 0)) 64
      Live s ∧ ratioBad s = none ∧ fetchOpen s 0 = true ∧ fetchTurn s 0 = true ∧ ptrDiff (sqTail s 0) (sqHead s 0) = x.1.length ∧ h.st = 0 ∧
      bits (leNat (h.bytes.take 8)) 23 16 = x.2 ∧ ringLen s 0 = 16 ∧
      (x.2 = 2 → (accRead h.s (qAgent s 0) (sqAddr s 0 (sqHead s 0 + 1)) 64).st = 0) := by
  simp only [Live, Machine.Inv]; decide +kernel

theorem wit_PlainTarhelCommands :
    (∀ x ∈ [(0x00, []), (0x02, pars [(8, 0x98), (8, 5)]), (0x02, pars [(8, 0x9C), (8, 5)]), (0x03, pars [(1, 15)]), (0xF0, []),
        (0xFF, [])],
      Starts (cm (core 0 g3) x.1 x.2) 7 x.1 (cmd7 x.1 x.2)) ∧
    (∀ x ∈ [(0, 5), (1, 0), (1, 5)], let p := pars [(1, x.1), (7, 0), (8, x.2)]
      let s := cm (core 0 g3) 0x01 p
      Starts s 7 0x01 (cmd7 0x01 p) ∧ rget s .QD_Q_COUNT [1] = 0 ∧ qEnabled s 1 = false) ∧
    (let p := pars [(1, 1), (7, 0), (8, 5)]
     let s := cm (qOn (core 0 g3) 1) 0x01 p;
      Starts s 7 0x01 (cmd7 0x01 p) ∧ rget s .QD_Q_COUNT [1] = 0 ∧ qEnabled s 1 = true) ∧
    (let s := cm (core 0 g3) 0x03 [0]
     let t := rput s .QD_Q_CFG [0] 0x14;
      par (cmd7 0x03 [0]) 0 1 ≤ fget s .LCS_TENANT [] Fld.LCS_TENANT_TENANT_MAX ∧
      (List.range 256).any (fun q => qTenant (begun s (cmd7 0x03 [0])) q && (qEnabled (begun s (cmd7 0x03 [0])) q ||
        !(qCmds (begun s (cmd7 0x03 [0])) q).isEmpty)) = !((List.range 256).any (fun q => qTenant (begun t (cmd7 0x03 [0])) q &&
          (qEnabled (begun t (cmd7 0x03 [0])) q || !(qCmds (begun t (cmd7 0x03 [0])) q).isEmpty)))) := by
  simp only [Starts, Live, Machine.Inv]; decide +kernel

/-- A code object with eight bytes of code at 0x4000, and its header (R141). -/
def codeObj (crc : Nat) : List Byte :=
  [0x57524853, 1, 8, 4, 0, 256, 16, crc].flatMap (leBytes 4) ++ List.replicate 32 0 ++ [1, 2, 3, 4, 5, 6, 7, 8]
def withCode (crc : Nat) : State := { core 0 g3 with mem := mwrite (core 0 g3).mem 0x4000 (codeObj crc) }
def good : State := withCode (crc32c [1, 2, 3, 4, 5, 6, 7, 8])
def loadP : List Byte := pars [(8, 0x4000), (8, 0x8000)]

theorem wit_LoadsCopyAndConvert :
    (∀ x ∈ [(good, 0, true), (withCode 5, 0, false), (core 0 g3, 1, false)],
      let s := cm x.1 0x10 loadP
      let b := begun s (cmd7 0x10 loadP)
      let h := accRead b (agentOf b (cmd7 0x10 loadP)) 0x4000 64
      let r := accRead h.s (agentOf b (cmd7 0x10 loadP)) 0x4040 (codeHdr h.bytes).codeLen
      Starts s 7 0x10 (cmd7 0x10 loadP) ∧ h.st = 0 ∧ (hdrCheck (codeHdr h.bytes) = 0 ↔ x.2.1 = 0) ∧
      mapped h.s 0x4000 (64 + 8) = true ∧ mapped h.s 0x8000 (64 + 8) = true ∧ r.st = 0 ∧
      (x.2.1 = 0 → (crc32c r.bytes = (codeHdr h.bytes).crc ↔ x.2.2 = true)) ∧
      (accWrite r.s (agentOf b (cmd7 0x10 loadP)) 0x8000 (h.bytes ++ r.bytes)).1 = 0) ∧
    (∀ conv ∈ [0, 1, 2, 3, 4],
      let p := if conv = 0 then pars [(8, 0x4000), (8, 0), (8, 0x9000), (8, 0), (4, 64), (4, 0)]
        else pars [(8, 0x4000), (8, 0x1000), (8, 0x9000), (8, 0xA000), (4, 2), (4, conv)]
      let s := cm good 0x11 p
      let b := begun s (cmd7 0x11 p)
      let r := accRead b (agentOf b (cmd7 0x11 p)) 0x4000 256 [] (some 4)
      let q := accRead r.s (agentOf b (cmd7 0x11 p)) 0x1000 8 [] (some 4)
      Starts s 7 0x11 (cmd7 0x11 p) ∧ par (cmd7 0x11 p) 36 1 = conv ∧ mapped b 0x4000 256 = true ∧ mapped b 0x1000 8 = true ∧
      mapped b 0x9000 256 = true ∧ mapped b 0xA000 8 = true ∧ r.st = 0 ∧ q.st = 0) := by
  simp only [Starts, Live, Machine.Inv]; decide +kernel

/-- A kernel launched on both clusters: claimed, running, and complete. -/
def idle2 : State := { good with regs := up.regs }
def launchP : List Byte := pars [(8, 0x4000), (8, 0x80), (2, 0), (2, 2)]
def claimed : State := after (cm idle2 0x20 launchP) (.launch 7)
def launched : State := after claimed (.launchStart (8192 * 7))
def haltAll (s : State) : State :=
  [0, 1].foldl (fun s c => fset (fset s .CORE_STAT (tk c) Fld.CORE_STAT_RUN 0) .CORE_STAT (tk c) Fld.CORE_STAT_HALTED 1) s

/-- A node record (R143), and a graph of two nodes at 0x5000 whose second waits for its first. -/
def node (code lf : Nat) (p : Nat) : List Byte :=
  pars [(8, code), (8, 0x80), (2, lf), (2, 1), (4, 0), (2, p), (2, 0xFFFF), (2, 0xFFFF), (2, 0xFFFF)] ++ List.replicate 32 0
def graphed : State := { idle2 with mem := mwrite idle2.mem 0x5000 (node 0x4000 0 0xFFFF ++ node 0x4000 1 0) }
def graphP : List Byte := pars [(8, 0x5000), (8, 2)]
def graph1 : State := after (cm graphed 0x21 graphP) (.graphLaunch 7)

theorem wit_LaunchesAndGraphs :
    (let s := cm idle2 0x20 launchP
     let b := begun s (cmd7 0x20 launchP)
     let h := accRead b (agentOf b (cmd7 0x20 launchP)) 0x4000 64;
      Starts s 7 0x20 (cmd7 0x20 launchP) ∧ h.st = 0 ∧ launchBad h.s (codeHdr h.bytes) 0 2 = false) ∧
    (let p := pars [(8, 0x80), (8, 0x80), (2, 0), (2, 2)]
     let s := cm idle2 0x20 p
     let b := begun s (cmd7 0x20 p)
     let h := accRead b (agentOf b (cmd7 0x20 p)) 0x80 64;
      Starts s 7 0x20 (cmd7 0x20 p) ∧ h.st = 0 ∧ launchBad h.s (codeHdr h.bytes) 0 2 = true) ∧
    (Live claimed ∧ ((launchOf claimed (8192 * 7)).map (fun l => (l.started, launchFree claimed l))) = some (false, true)) ∧
    (let s := haltAll launched;
      Live s ∧ (launchOf s (8192 * 7)).map (fun l => l.started) = some true ∧
      (launchOf s (8192 * 7)).map (fun l => (launchSet l).filterMap (fun j => physOf s j)) = some [0, 1] ∧
      [0, 1].all (kernelDone s) = true ∧ ∀ c ∈ [0, 1], fget s .CORE_STAT (tk c) Fld.CORE_STAT_EXIT = 0) ∧
    (let s := cm graphed 0x21 graphP
     let b := begun s (cmd7 0x21 graphP)
     let r := accRead b (agentOf b (cmd7 0x21 graphP)) 0x5000 128;
      Starts s 7 0x21 (cmd7 0x21 graphP) ∧ r.st = 0 ∧ (graphCheck (agentOf b (cmd7 0x21 graphP)) r.bytes 2 r.s).1 = 0) ∧
    (Live graph1 ∧ (graph1.graphs.find? (fun g => g.cmd == 7)).isSome = true ∧ (cmdOf graph1 7).map (fun c => c.status) = some none ∧
      graph1.graphs.map (fun g => g.nodes.map (fun n => (n.state, n.preds.filter (fun p => p != 0xFFFF)))) = [[(0, []), (0, [0])]] ∧
      qFenced graph1 0 = false) := by
  simp only [Starts, Live, Machine.Inv]; decide +kernel

theorem wit_CopyChannelCommands :
    (∀ x ∈ [(0x60, dword 1 0 0 0 0 32 0x80 0x6000 0), (0x60, dword 1 0 0 1 0 32 0x80 0x6000 0), (0x60, dword 1 0 1 0 0 32 0x80 0x6000 0),
        (0x61, pars [(8, 0x7000), (8, 2)])],
      let s := cm (core 0 g3) x.1 x.2
      let b := begun s (cmd7 x.1 x.2)
      Starts s 7 x.1 (cmd7 x.1 x.2) ∧ chanOf b 7 = none ∧ (chanWaiters b).all (fun y => decide (7 ≤ y.id)) = true) ∧
    (let d := dword 1 0 0 0 0 32 0x80 0x6000 0
     let s := { cm (core 0 g3) 0x60 d with cmds := [{ cmd7 0x60 d with begun := true }] };
      Live s ∧ chanWaiters s = [{ cmd7 0x60 d with begun := true }] ∧ qFenced s 0 = false) := by
  simp only [Starts, Live, Machine.Inv]; decide +kernel

/-- A FILL of 48 bytes at offset 0x300 of the scratchpad of cluster 0, as a command and as a list of one entry. -/
def fillQ : List Byte := dword 3 0 0 0 0 48 0xA1B2C3D4 (sp + 0x300) 0
def fillCmds : List (Nat × List Byte) := [(0x60, fillQ), (0x61, pars [(8, sp + 0x400), (4, 1)])]
def fillState (x : Nat × List Byte) : State := cm { core 0 g3 with mem := mwrite [] (sp + 0x400) fillQ } x.1 x.2

theorem wit_CopyChannelCommands_fill :
    ∀ x ∈ fillCmds,
      let s := fillState x
      let c := cmd7 x.1 x.2
      let d := { c with begun := true }
      let t := { s with cmds := [d] }
      let w := if x.1 = 0x60 then entryWords (x.2.take 32) else entryWords (mread s.mem (sp + 0x400) 32)
      (Starts s 7 x.1 c ∧ chanOf s 7 = none ∧ ∀ y ∈ chanWaiters s, 7 ≤ y.id) ∧
      (Live t ∧ cmdOf t 7 = some d ∧ chanWaiters t = [d] ∧ qFenced t 0 = false) ∧
      s.chans.length = 8 ∧ lget none s.chans 7 = none ∧ s.tc = [] ∧ s.tcBytes = [] ∧ fbit s .ECC_INJ [] Fld.ECC_INJ_ARM = false ∧
      w = entryWords fillQ ∧ dFence w = false ∧ dTok w = false ∧ descInvalid w = false ∧ dOp w = 3 ∧ dRed w = 0 ∧
      dDst w = sp + 0x300 ∧ dLen w = 48 ∧ spBase ≤ sp ∧ sp + 0x420 ≤ apBase ∧ Plain s (sp + 0x300) 48 true ∧
      (x.1 = 0x61 → par c 0 8 = sp + 0x400 ∧ par c 8 4 = 1 ∧ Plain s (sp + 0x400) 32 false ∧ Plain s (sp + 0x400) 32 true) := by
  simp only [Starts, Live, Machine.Inv, Plain]; decide +kernel

theorem test_fill_command : ∀ x ∈ fillCmds, ∀ i ∈ if x.1 = 0x60 then [Instr.dmaDesc 7] else [Instr.dmaList 7],
    mread (after (fillState x) i).mem (sp + 0x300) 48 = (List.replicate 12 (leBytes 4 0xA1B2C3D4)).flatten := by decide +kernel

/-! ### Witnesses: the page manager, attention, host ports -/

/-- A device with a spill tier of 64 GiB, host window 2 over port 0, and an upstream link up. -/
def kv0 : State :=
  let s := rput (core 0 g3) .HP_SPILL_STAT [] 64
  let s := rput (rput (rput s .HP_HWIN [2] (2 ^ 63 + 0x200000000000)) .HP_HWIN_SIZE [2] (2 ^ 32)) .HP_HWIN_HOST [2] 0x7000000000
  let s := rput s .HP_LINK_STAT [0] 1
  { s with host := { s.host with roles := 1 } }

def page0 : PageRec :=
  { loc := 1, cls := 2, sealed := true, fill := 128, addr := 0x1000000, refcnt := 1, sealG := 0, score := 5, instep := 7, lastG := 0 }
def page1 : PageRec := { page0 with sealed := false, fill := 2, addr := 0x1000000 + 17408 }

/-- Sequence 0 with 130 positions of one layer in two pages. -/
def seq0 : Seq :=
  { state := 1, profile := 3, prio := 4, lens := [130], ptes := [(0, 2 ^ 31), (1, 2 ^ 31 + 1)], sums := [], last := 0 }

/-- A pool with sequence 0 in it. -/
def kv1 : State :=
  { kv0 with kv := { Kv.init with pool := [(0x1000000, 2)], profiles := [(3, ⟨1, 1, [2]⟩)], seqs := [(0, seq0)],
                                  recs := [(0, page0), (1, page1)], frames := [0x1000000, 0x1000000 + 17408] } }
def spill (s : State) : State := rput s .KV_SPILL_AREA [] (2 * 2 ^ 48 + 0x100000000000)
def swap (s : State) : State := rput s .KV_SWAP_AREA [] (2 * 2 ^ 48 + 0x200000000000)

def poolP (n1 : Nat) : List Byte := pars [(2, 0), (2, 1), (2, 3), (2, 0), (4, 0xC), (4, n1), (4, 1), (4, 0), (8, 0x40000000), (2, 1)]
def profP : List Byte := pars [(1, 15), (1, 64), (2, 2), (4, 0), (8, 2), (8, 1)]
def areaP (a n : Nat) : List Byte := pars [(8, a), (4, n)]

theorem wit_KvConfigurationCommands :
    (∀ x ∈ [(kv0, 2, false), (kv0, 9, true), (kv1, 2, true)],
      let s := cm x.1 0x30 (poolP x.2.1)
      let bs := poolBanks s 0 1 3 0xC
      Starts s 7 0x30 (cmd7 0x30 (poolP x.2.1)) ∧ mapped s 0x40000000 (2 ^ 30) = true ∧
      (s.kv.seqs.any (fun q => q.2.state != 0) || decide (bs.length < x.2.1 + 1) ||
        bs.any (fun a => striped s (a / 2 ^ 30)) || bs.any (fun a => overlaps a (2 ^ 23) 0x40000000 (2 ^ 30))) = x.2.2) ∧
    (let s := cm kv0 0x31 profP;
      Starts s 7 0x31 (cmd7 0x31 profP) ∧ par (cmd7 0x31 profP) 1 1 = 64 ∧
      s.kv.seqs.any (fun q => q.2.state != 0 && q.2.profile == 15) = false ∧
      ([2, 1] : List Nat).any (fun r => r % 4 == 3 || (tbit r 2 && decide (bits r 31 16 ≤ bits r 7 4 + bits r 15 8))) = false) ∧
    (∀ n ∈ [0, 2], let s := cm kv0 0x40 (areaP 0x100000000000 n)
      Starts s 7 0x40 (cmd7 0x40 (areaP 0x100000000000 n)) ∧ s.kv.recs.any (fun r => !(r.2.loc == 1 || r.2.loc == 4) && !(inSwap s r.2)) = false ∧
      mapped s 0x100000000000 (n * 2 ^ 30) = true ∧ spaceOf 0x100000000000 = .spill 0) ∧
    (∀ n ∈ [0, 4], let s := cm kv0 0x41 (areaP 0x200000000000 n)
      Starts s 7 0x41 (cmd7 0x41 (areaP 0x200000000000 n)) ∧ s.kv.seqs.any (fun q => q.2.state == 3 || q.2.state == 4) = false ∧
      (n ≠ 0 → hwinParts s 257 0x200000000000 (n * 2 ^ 30) ≠ none)) := by
  simp only [Starts, Live, Machine.Inv]; decide +kernel

/-- A command that has begun and waits. -/
def begunCmd (s : State) : State := { s with cmds := s.cmds.map (fun c => { c with begun := true }) }

theorem wit_SequenceAndDataCommands :
    (let p := pars [(1, 3), (1, 0), (2, 9)]
     let s := cm kv1 0x32 p;
      Starts s 7 0x32 (cmd7 0x32 p) ∧ (tfind s.kv.profiles 3).isSome = true ∧ tfind s.kv.profiles 4 = none ∧
      (List.range 1024).find? (fun i => (seqOf s i).isNone) = some 1) ∧
    (∀ x ∈ [(0x33, 130), (0x34, 0), (0x35, 0)], let p := pars [(2, 0), (2, 0), (4, x.2)]
      let s := cm kv1 x.1 p
      let u := kvArrive 7 [0] (begun s (cmd7 x.1 p))
      Goes s 7 x.1 (cmd7 x.1 p) (begun s (cmd7 x.1 p)) ∧ seqBusy u 7 0 = false ∧ seqCheck u 0 = 0 ∧ seqOf u 0 = some seq0 ∧
      (∀ l ∈ seq0.lens, x.2 ≤ l) ∧ (List.range 1024).find? (fun i => (seqOf u i).isNone) = some 1 ∧
      (walk (kvAgentOf s (cmd7 x.1 p)) 0 (allKeys u 0) u).1 = 0 ∧
      (seqOf (seq0.ptes.foldl (cutEntry 0 x.2) (walk (kvAgentOf s (cmd7 x.1 p)) 0 (allKeys u 0) u).2) 0).isSome = true) ∧
    (let p := pars [(2, 0), (2, 0), (4, 0)]
     let s := begunCmd (cm kv1 0x34 p);
      Goes s 7 0x34 { cmd7 0x34 p with begun := true } (bare s)) := by
  simp only [Starts, Goes, Live, Machine.Inv]; decide +kernel

/-- Progress of a command, or of a move of its own; and a wait for a frame of class 2 for page 0. -/
def krun (k : Nat) (ws : List KvWait) (m : Option KvMove) : KvRun := ⟨k, 0, 0, 0, ws, [0], [0], [], none, m, none⟩
def wait0 : KvWait := ⟨0, 2, 0, none, 0⟩

theorem wit_SequenceAndDataCommands_move :
    (∀ x ∈ [(0x37, pars [(2, 0), (1, 0), (1, 0), (1, 0), (1, 1), (2, 0), (4, 1), (4, 2), (8, 0xB000)], kv1),
        (0x42, pars [(2, 0), (1, 0), (1, 0), (4, 0), (4, 200)], kv1), (0x43, pars [(2, 0), (1, 0), (1, 0), (4, 0), (4, 200)], spill kv1),
        (0x44, pars [(2, 0)], swap kv1)],
      let s := cm x.2.2 x.1 x.2.1
      let b := begun s (cmd7 x.1 x.2.1)
      let u := kvArrive 7 [0] b
      Goes s 7 x.1 (cmd7 x.1 x.2.1) b ∧ seqBusy u 7 0 = false ∧ readerFree u = true ∧ seqCheck u 0 = 0 ∧ seqOf u 0 = some seq0 ∧
      0 < seqLayers u seq0 ∧ seqHeads u seq0 = 1 ∧ mapped u 0xB000 (2 * 2 * 256) = true ∧
      (walk (kvAgentOf b (cmd7 x.1 x.2.1)) 0 (allKeys u 0) u).1 = 0) ∧
    (let p := pars [(1, 0), (1, 0), (2, 1), (4, 0), (8, 0x9000), (8, 0xB000)]
     let s := cm { kv1 with mem := mwrite kv1.mem 0x9000 (pars [(2, 0), (2, 0), (4, 3), (8, 0xA000)]) } 0x36 p
     let b := begun s (cmd7 0x36 p);
      Goes s 7 0x36 (cmd7 0x36 p) b ∧ mapped b 0x9000 16 = true ∧ mapped b 0xB000 1 = true ∧
      (accRead b { agentOf b (cmd7 0x36 p) with reader := 10 } 0x9000 16).st = 0) ∧
    (let s := cm { kv1 with kv := { kv1.kv with seqs := [(0, { seq0 with state := 3 })] } } 0x45 (pars [(2, 0)])
     let b := begun s (cmd7 0x45 (pars [(2, 0)]));
      let u := kvArrive 7 [0] b
      Goes s 7 0x45 (cmd7 0x45 (pars [(2, 0)])) b ∧ seqBusy u 7 0 = false ∧ readerFree u = true ∧
      seqOf u 0 = some { seq0 with state := 3 } ∧ (walk (kvAgentOf b (cmd7 0x45 (pars [(2, 0)]))) 0 (allKeys u 0) u).1 = 0 ∧
      (runOf u 7).back = none ∧
      (fetchPages 7 (kvAgentOf b (cmd7 0x45 (pars [(2, 0)]))) 0 (swappedPages u { seq0 with state := 3 })
        (fun s => s) (setSeq u 0 { seq0 with state := 4 })).1 = some (0, 0)) ∧
    (∀ opc ∈ [0x44, 0x45],
      let t := begunCmd (cm kv1 opc (pars [(2, 0)]))
      let s := { t with kv := { t.kv with runs := [{ krun 7 [] none with back := some ⟨0, 0x0205, 9, false⟩ }] } }
      Goes s 7 opc { cmd7 opc (pars [(2, 0)]) with begun := true } (bare s) ∧ (runOf (kvArrive 7 [0] (bare s)) 7).back ≠ none) := by
  simp only [Goes, Live, Machine.Inv]; decide +kernel

/-- A reader of an old epoch pins one retired item and not the other. -/
def pinned : State :=
  { kv1 with kv := { kv1.kv with retired := [⟨0, 0x1000000, 5⟩, ⟨1, 4, 2⟩], readers := [(0, 3), (1, 9)] } }

/-- Page 0 on its way in. -/
def out2 : State := { kv1 with kv := { kv1.kv with recs := [(0, { page0 with loc := 3 }), (1, page1)] } }

theorem wit_KvManagerSteps :
    (Live pinned ∧ mayReturn pinned ⟨0, 0x1000000, 5⟩ = false ∧ mayReturn pinned ⟨1, 4, 2⟩ = true) ∧
    (wmLow kv1 2 ≤ clsFree kv1 2 ∧ (spillArea kv1).2 = 0) ∧
    (let s := fset (fset (spill kv1) .KV_WM [2] Fld.KV_WM_LOW 480) .KV_WM [2] Fld.KV_WM_HIGH (clsFree kv1 2 + 1);
      Live s ∧ clsFree s 2 < wmLow s 2 ∧ (spillArea s).2 ≠ 0 ∧ readerFree s = true ∧ wmHigh s 2 = clsFree s 2 + 1 ∧
      s.kv.retired = [] ∧ (spillCands s 2).head? = some 0 ∧ recOf s 0 = some page0 ∧
      (freeSlot (spillArea s) s.kv.slots 2).isSome = true ∧ (accRead (bare s) (kvAgent 0) page0.addr (1024 * clsRows 2)).st = 0 ∧
      (accWrite (bare s) (kvAgent 0) 0x100000000000 (List.replicate 17408 1)).1 = 0) ∧
    (∀ opc ∈ [0x36, 0x38, 0x42, 0x45],
      let t := begunCmd (cm kv1 opc [])
      let s := { t with kv := { t.kv with pool := [], runs := [krun 7 [wait0] none] } }
      Live s ∧ (runOf s 7).waits.find? (fun w => w.ended.isNone) = some wait0 ∧ fbit s .KV_CFG [] Fld.KV_CFG_AUTO_PREEMPT = false ∧
      cmdOf s 7 = some { cmd7 opc [] with begun := true } ∧ qFenced s 0 = false ∧ isHeld s = false) ∧
    (let s := { out2 with kv := { out2.kv with pool := [], runs := [krun (2 ^ 32) [wait0] (some ⟨0, 0, 0, 0, 0, 9⟩)] } };
      Live s ∧ cmdOf s (2 ^ 32) = none ∧ (runOf s (2 ^ 32)).waits = [wait0] ∧ (runOf s (2 ^ 32)).move = some ⟨0, 0, 0, 0, 0, 9⟩ ∧
      isHeld s = false ∧ fbit s .KV_CFG [] Fld.KV_CFG_AUTO_PREEMPT = false ∧ readerFree s = true ∧
      recOf s 0 = some { page0 with loc := 3 } ∧ page0.cls = 2 ∧ pteKey 0 0 0 = 0 ∧ placeFrame s 2 0 0 0 0 = none) ∧
    (let t := begunCmd (cm out2 0x42 (pars [(2, 0), (1, 0), (1, 0), (4, 0), (4, 200)]))
     let s := { t with kv := { t.kv with pool := [], runs := [{ krun 7 [wait0] none with mine := some 0 }] } };
      Live s ∧ (runOf s 7).waits = [wait0] ∧ isHeld s = false ∧ qFenced s 0 = false ∧ metaSize s = 0 ∧ seqBusy s 7 0 = false ∧
      (waitOf (waitGo 7 (bare s)) 7 0 = some wait0) ∧ (waitOf (waitGo 7 (bare { s with kv := { s.kv with pool := kv1.kv.pool } })) 7 0 = none) ∧
      readerFree s = true ∧ seqCheck s 0 = 0 ∧ seqOf s 0 = some seq0 ∧ 0 < seqLayers s seq0 ∧
      ((namedPages seq0 0 0 0 200).filter (fun p => toFetch s 7 p.2.2.2)) = [(0, 0, 0, 0)] ∧
      recOf s 0 = some { page0 with loc := 3 } ∧ placeFrame s 2 0 0 0 0 = none) ∧
    (waitOf { kv1 with kv := { kv1.kv with runs := [krun 7 [{ wait0 with ended := some 0 }] none] } } 7 0 = some { wait0 with ended := some 0 }) ∧
    ((⟨0, 0x1000000, 5⟩ : Retired) ∈ pinned.kv.retired ∧ (0, 3) ∈ pinned.kv.readers) := by
  simp only [Live, Machine.Inv]; decide +kernel

theorem wit_KvManagerSteps_image :
    page0.loc ≠ 5 ∧ (accRead kv1 (kvAgent 5) page0.addr (1024 * clsRows 2 + 4 * clsRows 2)).st = 0 := by decide +kernel

/-- An attention pass over sequence 0: the command, what runs, and a floor context that is complete. -/
def attP (g topp : Nat) : List Byte := pars [(1, 0), (1, g), (1, 0), (1, 0), (2, topp), (2, 1), (4, 0x3F800000), (4, 0), (8, 0x9000), (8, 0xC000)]
def att (g topp : Nat) : State :=
  cm { kv1 with mem := mwrite kv1.mem 0x9000 (pars [(2, 0), (6, 0), (8, 0xA000), (8, 0xB000)]) } 0x38 (attP g topp)
def entry0 : AttEntry :=
  { idx := 0, seq := 0, qaddr := 0xA000, oaddr := 0xB000, stage := 0, status := 0, layer := 0, q := [], sel := [], pages := [],
    open_ := [], planned := false, work := [], mass := [], outs := [] }

theorem wit_AttentionSteps :
    (∀ x ∈ [(1, 256, false), (16, 0, false), (0, 0, true), (17, 0, true), (1, 257, true)],
      let s := att x.1 x.2.1
      let c := cmd7 0x38 (attP x.1 x.2.1)
      let b := begun s c
      let r := accRead b { agentOf b c with reader := 10 } 0x9000 24
      Goes s 7 0x38 c b ∧ attOf b 7 = none ∧ mapped b 0x9000 24 = true ∧ mapped b 0xC000 1 = true ∧ r.st = 0 ∧
      (decide (par c 1 1 = 0 ∨ 16 < par c 1 1 ∨ 256 < par c 4 2 ∨ 32 ≤ par c 2 1) = x.2.2)) ∧
    (let s := { kv1 with kv := { kv1.kv with waiting := [7 * 2048] } };
      Live s ∧ s.kv.waiting = 7 * 2048 :: [] ∧ readerFree s = true ∧ ∀ r ∈ s.kv.runs, r.move = none ∧ r.back = none) ∧ kv1.kv.waiting = [] := by
  simp only [Goes, Live, Machine.Inv]; decide +kernel

/-- The pass with its reader slot granted, and the same with a run out to a bank of tower 0. -/
def granted : State := after (after (att 1 0) (.kvAttend 7)) .readerSlotGrant
def dispatched : State := { granted with pageRuns := [⟨1, 7, 0, ⟨0, 0, 0, 0, 0⟩, [8], []⟩] }

theorem wit_AttentionSteps_run :
    (Live granted ∧ (granted.attends.findSome? (fun a => a.entries.findSome? (fun e =>
        (e.work.find? (fun w => w.tower == (0 : Fin 16).val && canDispatch granted a e w)).map (fun w => (a, e, w))))).isSome = true ∧
      (∀ r ∈ granted.pageRuns, r.bank / 32768 ≠ 0) ∧ (freeFwSlot granted 0).isSome = true ∧
      Live dispatched ∧ dispatched.pageRuns.any (fun r => r.bank / 32768 == 0) = true) ∧
    (let s := setMrg kv1 0 { mrgOf kv1 0 with inputs := [(3, [⟨5, [0, 0]⟩])] };
      Live s ∧ (∀ j ∈ (mrgOf s 0).inputs, j.2.length < 8) ∧ (∀ c ∈ (mrgOf s 0).ctxs, c.got < c.expect) ∧
      ((mrgOf s 0).inputs.filterMap (fun i => match i.2 with | [] => none | r :: _ => some (i.1, tbit r.tag 31))) = [(3, false)] ∧
      (popInput 0 3 (bare s)).1 = some ⟨5, [0, 0]⟩) ∧
    (∀ tag ∈ [5, 2 ^ 31 + 5],
      let s := { kv1 with attends := [⟨7, 1, 0, 0, 0, 0xC000, [entry0]⟩], floor := [⟨tag, 7, 0, [0], [(0, ⟨tag, 7, 0, 1, 1, [none, none], []⟩)]⟩] }
      Live s ∧ (s.floor.find? (fun c => c.tag == tag)).isSome = true ∧ (attOf s 7).isSome = true ∧ attEntry s 7 0 = some entry0 ∧
      (∀ t < 16, (mrgOf s t).out = [])) := by
  simp only [Live, Machine.Inv]; decide +kernel

/-- A device with both upstream ports, one link up, requests, snoops and a spill device. -/
def hosted : State :=
  let s := rput (rput kv0 .HP_LINK_STAT [0] (1 + 2 ^ 9 + 5 * 2 ^ 32)) .HP_LINK_STAT [2] 0
  { s with host := { s.host with roles := 0x11, share := [0], reqs := [⟨5, 0, 2, .coreLd 0, 8, false, none, none⟩],
                                 snoops := [⟨3, 0, true⟩], filter := [⟨3, 0, false⟩], expanders := [⟨2, 0, 2 ^ 30, none⟩] } }

theorem wit_HostAccessesAreServed :
    (Live hosted ∧ portRole hosted 0 = 1 ∧ hostUp hosted 0 = true ∧ hostCxl hosted 0 = true ∧ memClosed hosted = false ∧
      memClosed (rput hosted .BOOT_STAT [] 3) = true ∧ hostUp (rput hosted .BOOT_STAT [] 3) 0 = true) ∧
    (mapped hosted 0x1000 64 = true ∧ 0x1000 + 64 ≤ grade hosted * 2 ^ 32 ∧ mapped hosted (2 ^ 43 - 64) 64 = false) ∧
    (∀ a ∈ [0x1000, 2 ^ 33 - 64], (hostWrite 0 a (List.replicate 64 7) (bare hosted)).1 = 0 ∧ (hostRead 0 a 64 (bare hosted)).1.1 = 0) ∧
    (let s := { hosted with chk := [(9, 0xFFFF)] };
      Live s ∧ isWordFault (hostRead 0 0x90 16 (bare s)).1.1 = true) ∧
    hosted.host.snoops.find? (fun x => x.line == 0xC0 / 64 && x.port == 0) = some ⟨3, 0, true⟩ ∧
    hosted.host.reqs.any (fun r => r.tag == 5 && r.port == 0 && r.ans.isNone && r.held.isNone) = true ∧
    hosted.host.reqs.any (fun r => r.tag == 6 && r.port == 0 && r.ans.isNone && r.held.isNone) = false ∧
    (let s := rput { hosted with boot := { hosted.boot with life := .halted } } .BOOT_STAT [] 3;
      Machine.Inv s ∧ s.boot.life = .halted ∧ booted s = false ∧ portRole s 0 = 1 ∧ hostUp s 0 = true) := by
  simp only [Live, Machine.Inv]; decide +kernel

def hwinP (n p dev : Nat) : List Byte := pars [(2, n), (1, p), (5, 0), (8, dev), (8, 0x8000000), (8, 0x1000)]

theorem wit_HostAccessesAreServed_links :
    (let s := { hosted with host := { hosted.host with reqs := [] } };
      Live s ∧ portRole s 0 = 1 ∧ hostUp s 0 = true ∧ s.host.reqs = [] ∧ s.host.unmaps = []) ∧
    (portRole hosted 1 = 1 ∧ hostUp hosted 1 = false) ∧
    (∀ l ∈ [(SpillLoss.mk 2 none, 1), (SpillLoss.mk 2 (some 0), 1), (SpillLoss.mk 2 (some 1), 0), (SpillLoss.mk 1 none, 0)],
      (hosted.host.expanders.zipIdx.filter (fun e => e.1.link == l.1.link.val && !(hosted.host.lost.contains e.2)
        && (match l.1.dev with | none => true | some d => e.2 == d.val))).length = l.2) ∧
    (∀ x ∈ [(255, 0x400000000000 - 0x1000), (0, 0x210000000000)],
      let s := cm hosted 0x52 (hwinP x.1 1 x.2)
      Starts s 7 0x52 (cmd7 0x52 (hwinP x.1 1 x.2)) ∧ hwin s x.1 = none ∧ portRole s 1 = 1 ∧
      (List.range 256).all (fun j => (hwin s j).all (fun w => !(overlaps x.2 0x1000 w.dev w.size))) = true) ∧
    (∀ x ∈ [(hosted, false), (swap hosted, true)],
      let s := cm x.1 0x53 (pars [(2, 2)])
      Starts s 7 0x53 (cmd7 0x53 (pars [(2, 2)])) ∧ hwin s 2 = some ⟨0x200000000000, 2 ^ 32, 0x7000000000, 0⟩ ∧
      ((List.range 256).any (fun q => qEnabled s q && (overlaps (sqBase s q) (64 * ringLen s q) 0x200000000000 (2 ^ 32) ||
        overlaps (cqBase s q) (32 * ringLen s q) 0x200000000000 (2 ^ 32))) ||
        overlaps (swapArea s).1 (swapArea s).2 0x200000000000 (2 ^ 32)) = x.2) := by
  simp only [Starts, Live, Machine.Inv]; decide +kernel

/-! ### Witnesses: Synur -/

/-- Port `p` in state `st` with lanes, its neighbour 0x300 + p at stratum 1. -/
def port (s : State) (p st lanes : Nat) : State :=
  let s := fset (fset s .SYN_PORT_STAT [p] Fld.SYN_PORT_STAT_STATE st) .SYN_PORT_STAT [p] Fld.SYN_PORT_STAT_LANES lanes
  setPort (fset s .SYN_PORT_STAT [p] Fld.SYN_PORT_STAT_NEIGH (0x300 + p)) p { SynPort.init with good := lanes, strat := some 1 }

/-- Member 0x123 of a fabric: ports 0 and 3 up, port 3 its parent; windows 4 (open) and 6 (closing) of generation 5. -/
def fab : State :=
  let s := port (port (core 0 g3) 0 2 0xFF) 3 2 0x0F
  let s := fset (fset s .SYN_ID [] Fld.SYN_ID_ID 0x123) .SYN_ID [] Fld.SYN_ID_SET 1
  let s := fset (fset s .SYN_CFG [] Fld.SYN_CFG_EN 1) .SYN_STAT [] Fld.SYN_STAT_MSTATE 2
  let s := fset (fset s .SYN_TIME [] Fld.SYN_TIME_PARENT 3) .SYN_STAT [] Fld.SYN_STAT_PORTS_UP 9
  let s := rput (rput s .WIN_IN_A [4] (2 ^ 62 + 5 * 2 ^ 48 + 9 * 2 ^ 32 + 0xFFFF * 2 ^ 16 + 7)) .WIN_IN_A [6]
    (2 ^ 63 + 5 * 2 ^ 48 + 9 * 2 ^ 32 + 0xFFFF * 2 ^ 16 + 7)
  let s := rput s .QD_Q_CFG [0] (4 + 9 * 2 ^ 32)
  { s with tick := 5000, syn := { s.syn with
      parented := true, members := [0x123, 0x300, 0x2A0], wins := [(4, (0x10000, 0x4000)), (6, (0x20000, 0x1000))], syncT1 := 19000,
      sent := [⟨0x2A0, 3, 9, .coreLd 0, true, 8, 4, [], 0, [], none⟩, ⟨0x2A0, 4, 9, .coreSt 0, false, 8, 0, [], 0, [], none⟩] } }

/-- A packet to this device from `src`: VC, TYPE, JOB, TAG, WIN, GEN, OFF and payload (R288). -/
def pk (src vc typ job tag win gen off : Nat) (d : List Byte) : Pkt :=
  ⟨mkHdr 0x123 src vc 0 7 0 typ true true job tag win gen off, 2 ^ 256 - 1, d⟩

/-- A device with a packet at the head of its inbox. -/
def inb (s : State) (p : Nat) (x : Pkt) : State := { s with syn := { s.syn with inbox := [(p, x)] } }

theorem takes {s : State} {p : Nat} {x : Pkt} {typ : Nat} (h : Live (inb s p x) ∧ x.typ = typ) :
    ∃ u, TakesPkt (inb s p x) typ p x u := ⟨_, h.1, h.2, [], rfl, rfl⟩

/-- Control packets: SYNC_REQ, SYNC_RSP, HELLO, JOIN of another and of the own identifier, LEAVE, ALIVE, FENCE, MEMBER_MAP. -/
def ctlPkts : List (Nat × Pkt × Nat) :=
  [(0, pk 0x300 2 0x18 0 0 0 0 0 (leBytes 8 77), 0x18),
   (3, pk 0x303 2 0x19 0 0 0 0 0 (leBytes 8 20010 ++ leBytes 8 20000), 0x19), (5, pk 0x305 2 0x1A 0 0 0 0 0 [5, 3, 0], 0x1A),
   (0, pk 0x777 2 0x1B 0 0 0 0 0 [], 0x1B), (0, pk 0x123 2 0x1B 0 0 0 0 0 [], 0x1B), (0, pk 0x300 2 0x1C 0 0 0 0 0 [], 0x1C),
   (0, pk 0x300 2 0x1D 0 0 0 0 0 [], 0x1D), (0, pk 0x300 2 0x1E 0 0 0 0 0 (leBytes 2 9 ++ leBytes 2 0x300 ++ leBytes 4 6), 0x1E),
   (0, ⟨mkHdr 0x123 0x300 2 0 7 0 0x1F true false 0 0 0 0 256, 0, 5 :: List.replicate 255 0⟩, 0x1F)]

/-- A device that has aligned its tick and sent its JOIN at tick 3. -/
def joining : State :=
  let t := fset fab .SYN_STAT [] Fld.SYN_STAT_MSTATE 1
  { t with tick := 500000000, syn := { t.syn with joinTick := some 3 } }

theorem wit_FabricControlPackets :
    (∀ e ∈ ctlPkts, ∃ u, TakesPkt (inb fab e.1 e.2.1) e.2.2 e.1 e.2.1 u) ∧
    (parentPort fab = 3 ∧ fbit fab .SYN_CFG [] Fld.SYN_CFG_TIME_MASTER = false ∧ mstate fab ≠ 1 ∧
      (0x305 : Nat) ≠ ownId fab ∧ ownId fab = 0x123 ∧ (0x300 : Nat) ∈ fab.syn.members ∧ queueJob fab 0 = 9 ∧
      (0x300, 6) ∉ fab.rcv.seen ∧ fab.syn.parented = true ∧ mstate joining = 1 ∧ ownId joining = 0x123 ∧
      joining.syn.mapped = false ∧ joining.syn.mapFrom = none ∧ parentPort joining = 3 ∧ joining.syn.parented = true) ∧
    (∀ e ∈ ctlPkts, ∃ u, TakesPkt (inb joining e.1 e.2.1) e.2.2 e.1 e.2.1 u) ∧
    (portState fab (parentPort fab) = 2 ∧ isMember fab = true ∧ isMember (core 0 g3) = false ∧ Live fab) := by
  refine ⟨fun e h => takes ((key e h).1), by decide +kernel, fun e h => takes ((key e h).2), by simp only [Live, Machine.Inv]; decide +kernel⟩
where
  key : ∀ e ∈ ctlPkts, (Live (inb fab e.1 e.2.1) ∧ e.2.1.typ = e.2.2) ∧ (Live (inb joining e.1 e.2.1) ∧ e.2.1.typ = e.2.2) := by
    simp only [Live, Machine.Inv]; decide +kernel

/-- A spare is held while the fabric has at most 960 members. -/
def spare : State :=
  let t := fset (fset fab .SYN_PORT_STAT [0] Fld.SYN_PORT_STAT_SPARE_V 1) .SYN_PORT_STAT [0] Fld.SYN_PORT_STAT_SPARE 7
  { t with syn := { t.syn with reserve := true } }

theorem wit_FabricControlPackets_timers :
    Live spare ∧ spare.syn.reserve = true ∧ spare.syn.members.length ≤ 960 ∧ fab.syn.reserve = false ∧
    (0x300 : Nat) ∈ joining.syn.members ∧ (0x300 : Nat) ≠ ownId joining ∧ tget 0 joining.syn.heard 0x300 + 500000000 ≤ joining.tick ∧
    Live joining ∧ joining.syn.joinTick = some 3 ∧ mstate joining = 1 ∧ 3 + 10000000 ≤ joining.tick ∧ fab.syn.joinTick = none ∧
    spareHeld spare 0 = true ∧ portState spare 0 = 2 ∧
    (∀ p < 16, spareHeld (setPortState spare 0 3) p = true → portState (setPortState spare 0 3) p ≠ 2) := by
  simp only [Live, Machine.Inv]; decide +kernel

/-- Window and register packets: a write, reductions, a read, its answer, a write's answer, UNREACH, register packets. -/
def winPkts : List (Nat × Pkt × Nat) :=
  [(3, pk 0x2A0 0 1 9 1 4 5 0x3FE0 (List.replicate 32 3), 1), (3, pk 0x2A0 0 5 9 1 4 5 0 (List.replicate 32 3), 5),
   (3, pk 0x2A0 0 13 9 1 4 5 0x20 (List.replicate 32 3), 13), (3, pk 0x2A0 0 2 9 1 4 5 0x3F00 (leBytes 4 256), 2),
   (3, pk 0x2A0 1 3 9 3 0 0 0 (List.replicate 16 3), 3), (3, pk 0x2A0 1 4 9 4 0 0 0 [0, 0, 1, 0, 0, 0], 4),
   (3, pk 0x303 1 0x0E 9 4 0 0 0 (leBytes 16 (mkHdr 0x2A0 0x123 0 0 1 0 1 true true 9 4 0 0 0)), 0x0E),
   (3, pk 0x303 1 0x0E 9 4 0 0 0 (leBytes 16 (mkHdr 0x2A0 0x123 0 0 1 0 1 false true 9 4 0 0 0)), 0x0E),
   (3, pk 0x2A0 0 0x10 9 4 0 0 0 (leBytes 8 0 ++ leBytes 8 5), 0x10), (3, pk 0x2A0 0 0x11 9 4 0 0 0 (leBytes 8 0), 0x11),
   (3, pk 0x2A0 0 0x12 9 4 0 0 0 (leBytes 8 0 ++ leBytes 8 5), 0x12)]

theorem wit_FabricWindowPackets :
    (∀ e ∈ winPkts, ∃ u, TakesPkt (inb fab e.1 e.2.1) e.2.2 e.1 e.2.1 u) ∧
    (∀ e ∈ winPkts.take 3, (winBurst e.1 e.2.1 (bare fab)).isSome = true ∧ e.2.1.first = true ∧
      winCheck (bare fab) e.2.1 (if e.2.1.full then 1 else e.2.1.data.length) true = 0 ∧
      (applyFlit e.2.1 (bare fab)).1 = 0 ∧ (applyFlit e.2.1 (bare fab)).2.isSome = true ∧ e.2.1.full = false ∧
      (accWrite (bare fab) (winAgent e.2.1.job) ((tget (0, 0) (bare fab).syn.wins e.2.1.win).1 + e.2.1.off) e.2.1.data).1 = 0) ∧
    (∀ x ∈ [pk 0x2A0 0 1 9 1 6 5 0 [3], pk 0x2A0 0 5 9 1 4 6 0 (List.replicate 32 3)], x.first = true ∧
      winCheck (bare fab) x (if x.full then 1 else x.data.length) true ≠ 0) ∧
    (let x := pk 0x2A0 0 2 9 1 4 5 0x3F00 (leBytes 4 256);
      winCheck (bare fab) x 256 true = 0 ∧
      (accRead (countRej x.win 0 (bare fab)) (winAgent x.job) ((tget (0, 0) fab.syn.wins x.win).1 + x.off) 256).st = 0 ∧
      winCheck (bare fab) (pk 0x2A0 0 2 9 1 6 5 0 (leBytes 4 64)) 64 true ≠ 0) ∧
    (sentOf fab (pk 0x2A0 1 3 9 3 0 0 0 []) true = some ⟨0x2A0, 3, 9, .coreLd 0, true, 8, 4, [], 0, [], none⟩ ∧
      sentOf fab (pk 0x2A0 1 3 9 2 0 0 0 []) true = none ∧
      sentOf fab (pk 0x2A0 1 4 9 4 0 0 0 []) false = some ⟨0x2A0, 4, 9, .coreSt 0, false, 8, 0, [], 0, [], none⟩) ∧
    (ratioBad fab = none ∧ rview (fset fab .SYN_CFG [] Fld.SYN_CFG_RVIEW 0) = none ∧ ∀ v ∈ [1, 2], (rview (fset fab .SYN_CFG [] Fld.SYN_CFG_RVIEW v)).isSome = true) := by
  refine ⟨fun e h => ?_, by decide +kernel, by decide +kernel, by decide +kernel, by decide +kernel, by decide +kernel⟩
  have key : ∀ e ∈ winPkts, Live (inb fab e.1 e.2.1) ∧ e.2.1.typ = e.2.2 := by simp only [Live, Machine.Inv]; decide +kernel
  exact takes (key e h)

def winP (w acc base size : Nat) : List Byte := pars [(2, w), (2, 0xFFFF), (1, acc), (3, 0), (8, base), (8, size)]

theorem wit_FabricWindowPackets_commands :
    (∀ x ∈ [(4095, 7, 0), (7, 1, 2 ^ 33 - 0x1000)],
      let p := winP x.1 x.2.1 x.2.2 0x1000
      Starts (cm fab 0x50 p) 7 0x50 (cmd7 0x50 p) ∧ winState (cm fab 0x50 p) x.1 = 0 ∧ mapped (cm fab 0x50 p) x.2.2 0x1000 = true) ∧
    (Starts (cm fab 0x50 (winP 6 3 0 0x1000)) 7 0x50 (cmd7 0x50 (winP 6 3 0 0x1000)) ∧ winState (cm fab 0x50 (winP 6 3 0 0x1000)) 6 ≠ 0) ∧
    (∀ w ∈ [4, 6], Starts (cm fab 0x51 (pars [(2, w)])) 7 0x51 (cmd7 0x51 (pars [(2, w)])) ∧
      (winState (cm fab 0x51 (pars [(2, w)])) w = 1 ↔ w = 4)) ∧
    (let s := { fab with syn := { fab.syn with bursts := [⟨0x2A0, 9, 6, 0, 1, 3⟩] } };
      Live s ∧ s.syn.bursts.find? (fun y => y.win == 6 && y.stat == 0) = some ⟨0x2A0, 9, 6, 0, 1, 3⟩) := by
  simp only [Starts, Live, Machine.Inv]; decide +kernel

/-- A flit that waits, one that arrives, and the same on eight lanes with its link control word. -/
def waiting1 : Waiting := ⟨pk 0x2A0 0 1 9 1 4 5 0x20 [1], some (3, 0)⟩
def arrives : Pkt := pk 0x123 0 1 9 1 4 5 0x20 [3]
def onWire (ctl : Nat) (torn : Bool) : Wire := ⟨stripe 8 (flitSymbols ctl arrives), torn⟩

/-- Port 0 in state `n`, with a flit that waits. -/
def prt (n lanes : Nat) : State :=
  setPort (setLanes (setPortState fab 0 n) 0 lanes) 0 { synPort fab 0 with wait := [waiting1], good := lanes }

/-- Port 0 up on seven lanes with lane 7 held, a proposal out, a flit in the receive buffer, and `n` replays. -/
def port7 (n : Nat) : State :=
  let t := fset (fset (prt 2 0x7F) .SYN_PORT_STAT [0] Fld.SYN_PORT_STAT_SPARE_V 1) .SYN_PORT_STAT [0] Fld.SYN_PORT_STAT_SPARE 7
  inb (setPort t 0 { synPort t 0 with good := 0xFF, ops := [(3, 4)], replays := n }) 0 arrives

theorem wit_FabricPortEvents :
    (∀ n ∈ [0, 1, 2, 3, 4], Live (prt n 0xFF) ∧ portState (prt n 0xFF) 0 = n ∧ (synPort (prt n 0xFF) 0).wait = [waiting1] ∧
      (synPort (prt n 0xFF) 0).ops = [] ∧ (synPort (prt n 0xFF) 0).retry = []) ∧
    (∀ x ∈ [(0xFF, 0, 7), (0x1F, 4, 4), (0x0F, 3, 3)], tbit (synPort (prt 2 x.1) 0).good x.2.1 = true ∧
      tbit (portLanes (prt 2 x.1) 0) x.2.1 = true ∧ spareHeld (prt 2 x.1) 0 = false ∧ (prt 2 x.1).syn.reserve = false ∧
      popCount 8 (sansLane (portLanes (prt 2 x.1) 0) x.2.1) = x.2.2) ∧
    (∀ l ∈ [7, 2], spareHeld (port7 0) 0 = true ∧ portState (port7 0) 0 = 2 ∧ tbit (synPort (port7 0) 0).good l = true ∧
      (spareLane (port7 0) 0 = l ↔ l = 7) ∧ (tbit (portLanes (port7 0) 0) l = true ↔ l = 2)) ∧
    (mustRetrain (prt 2 0xFF) 0 = false ∧ mustRetrain (port7 8) 0 = true ∧ (synPort (port7 0) 0).ops = [(3, 4)] ∧
      (port7 0).syn.inbox.find? (fun e => e.1 == (0 : Fin 16).val) = some (0, arrives)) ∧
    4 ≤ popCount 8 (0x0F % 256) := by
  simp only [Live, Machine.Inv]; decide +kernel

theorem wit_FabricPortEvents_flits :
    ∀ f ∈ [(onWire 0 false, false, false, true), (onWire 0 true, false, false, true), (onWire 5 false, false, false, false),
        (onWire (2 ^ 26 + 2 ^ 24) false, false, true, true), (⟨[], false⟩, true, false, true)],
      let d := decodeFlit (popCount 8 (portLanes (prt 2 0xFF) 0)) f.1
      let v := pump 0 2 (laneOpRx 0 (bits d.ctl 55 53) (bits d.ctl 58 56) (takeCtl 0 d.ctl
        (laneErrs 0 d.corr d.unc (setPort (bare (prt 2 0xFF)) 0 { synPort (prt 2 0xFF) 0 with rxTick := 5000 }))))
      d.bad = f.2.1 ∧ tbit d.ctl 26 = f.2.2.1 ∧ portState v 0 = 2 ∧ ((d.ctl % 4096 = (synPort v 0).rxSeq) ↔ f.2.2.2 = true) := by decide +kernel

/-- The clock conditions of the statements above: every island of these states has its clock; a device whose S layer of tower 0 and
port 0 have lost theirs. -/
theorem wit_clocks :
    (∀ s ∈ [core 0 g3, red, thrash, kv1, hosted, prt 2 0xFF, port7 0], ∀ i ∈ [0, 2048, 2064, 2084, 2100, 2105], noClock s i = false) ∧
    noClock victim 2048 = false ∧
    (let s := { core 0 g3 with clk := { (core 0 g3).clk with unlocked := [2048, 2084] } };
      Live s ∧ noClock s 2048 = true ∧ noClock s 2084 = true ∧ clockStops s 0 0x400 8 = true ∧ clockStops s 0 (spAddr 0 0) 8 = false) := by
  simp only [Live, Machine.Inv]; decide +kernel

/-- Groups 2 (two members), 3 (a later sequence number) and 4 (another job); member lists at 0x9000. -/
def grp : State :=
  let t := { fab with groups := [(2, ⟨5, [0x123, 0x2A0], 0⟩), (4, ⟨8, [0x123, 0x2A0], 0⟩)],
                      mem := mwrite fab.mem 0x9000 (pars [(2, 0x123), (2, 0x2A0), (2, 0x300), (2, 0x123)]) }
  rput t .SYN_RT [0x150] 0x80
def collP (g red len : Nat) : List Byte := pars [(2, g), (1, red), (1, 0), (4, 0), (8, 0x10000), (8, 0x20000), (8, len), (8, 0)]
def collOps : List (Nat × Nat) := [(0x70, 1), (0x71, 0), (0x72, 1), (0x73, 0), (0x74, 0), (0x75, 0), (0x76, 0), (0x77, 0)]

/-- The collective of a command before it has a place in its group's queue. -/
def collNew (c : Cmd) : Coll :=
  { cmd := c.id, group := par c 0 2, opc := c.opc, red := par c 2 1, hint := par c 3 1, src := par c 8 8, dst := par c 16 8,
    len := par c 24 8, plan := par c 32 8, seq := 0, order := [], begun := false, base := false, ready := [], sent := [],
    rx := [], applied := [], counts := [], dones := [], doneOut := false, recs := [], rows := [], wrote := false, span := [], laps := false }

theorem wit_CollectiveCommands :
    (let p := pars [(2, 4095), (2, 2), (4, 0), (8, 0x9000)]
     let b := begun (cm grp 0x78 p) (cmd7 0x78 p)
     let r := accRead b { agentOf b (cmd7 0x78 p) with reader := 5 } 0x9000 4;
      Starts (cm grp 0x78 p) 7 0x78 (cmd7 0x78 p) ∧ grp.colls = [] ∧ r.st = 0 ∧
      ((List.range 2).map (fun i => leNat ((r.bytes.drop (2 * i)).take 2))) = [0x123, 0x2A0] ∧ ownId r.s = 0x123) ∧
    (∀ e ∈ collOps, ∀ g ∈ [2, 4, 9],
      let c := cmd7 e.1 (collP g e.2 32)
      Starts (cm grp e.1 (collP g e.2 32)) 7 e.1 c ∧ collOf (cm grp e.1 (collP g e.2 32)) 7 = none ∧
      (groupOf (cm grp e.1 (collP g e.2 32)) g = none ↔ g = 9)) ∧
    (∀ e ∈ collOps.take 1, let c := cmd7 e.1 (collP 2 e.2 32)
      let b := begun (cm { grp with groups := [(2, ⟨cmdJob (cm grp 0 []) c, [0x123, 0x2A0], 0⟩)] } e.1 (collP 2 e.2 32)) c
      (collCheck (collNew c) (cmdJob b c) b).1 = 0 ∧ (collCheck { collNew c with group := 9 } (cmdJob b c) b).1 ≠ 0) := by
  simp only [Starts, Live, Machine.Inv]; decide +kernel

/-- The first collective of group 2 at its head, and packets for it. -/
def running : State := { grp with colls := [{ collNew (cmd7 0x70 (collP 2 1 32)) with order := [0x123, 0x2A0], begun := true }] }
def collPk (d : List Byte) : Pkt := ⟨mkHdr 0x123 0x2A0 3 0 7 0 0x13 true true 9 0 2 0 0, 0, d ++ List.replicate (32 - d.length) 0⟩
def readyD : List Byte := pars [(1, 1), (1, 0x70), (2, 0), (4, 0), (8, 32), (4, membersCrc [0x123, 0x2A0])]

theorem wit_CollectiveCommands_packets :
    (∀ d ∈ [readyD, [2, 1], [3], List.replicate 256 7], ∀ s ∈ [running, grp],
      Live (inb s 0 (collPk d)) ∧ (collPk d).typ = 0x13 ∧ ((collPk d).full = true ↔ d.length = 256) ∧
      ((collFor (inb s 0 (collPk d)) (collPk d)).isSome = true ↔ s.colls ≠ [])) ∧
    running.colls.find? (fun x => x.group == 2 && x.begun) = some { collNew (cmd7 0x70 (collP 2 1 32)) with order := [0x123, 0x2A0], begun := true } ∧
    readyFits (bare running) { collNew (cmd7 0x70 (collP 2 1 32)) with order := [0x123, 0x2A0], begun := true }
      ⟨2, 0x2A0, 0, 0x70, 32, membersCrc [0x123, 0x2A0]⟩ = true ∧
    0 = (tget [] (collNew (cmd7 0x70 (collP 2 1 32))).rx (txKey 0 1)).length := by
  simp only [Live, Machine.Inv]; decide +kernel

theorem wit_CollectivePlansCoverTheirData :
    (collNew (cmd7 0x70 (collP 2 1 48))).opc = 0x70 ∧ 0 < 2 ∧ (collNew (cmd7 0x70 (collP 2 1 48))).len % 16 = 0 := by decide +kernel

/-! ### Witnesses: clocks, power, heat -/

/-- A device at tick 5000, and CLK_SYNC of it. -/
def clk0 : State := { core 0 g3 with tick := 5000 }
def syncP (at_ cls mhz : Nat) : List Byte := pars [(8, at_), (1, cls), (1, 0), (2, mhz)]
def holdover (s : State) : State := { s with clk := { s.clk with hold := some 3 } }

theorem wit_ClockChanges :
    (∀ x ∈ [(0, 0, 1000), (105000, 3, 1000), (104999, 3, 1000)],
      let s := cm clk0 0x81 (syncP x.1 x.2.1 x.2.2)
      Starts s 7 0x81 (cmd7 0x81 (syncP x.1 x.2.1 x.2.2)) ∧ mhzOk s x.2.1 x.2.2 = true ∧ s.clk.pend = [] ∧ s.clk.hold = none) ∧
    (∀ x ∈ [(4, 1000), (1, 620)], Starts (cm clk0 0x81 (syncP 0 x.1 x.2)) 7 0x81 (cmd7 0x81 (syncP 0 x.1 x.2)) ∧
      (3 < x.1 ∨ mhzOk clk0 x.1 x.2 = false)) ∧
    (Starts (cm (holdover clk0) 0x81 (syncP 0 0 1000)) 7 0x81 (cmd7 0x81 (syncP 0 0 1000)) ∧ (holdover clk0).clk.hold ≠ none) ∧
    (∀ s ∈ [clk0, holdover clk0], let t := { s with clk := { s.clk with pend := [⟨7, 1, 600, 90000, 0⟩, ⟨9, 1, 500, 90001, 0⟩] } }
      Live t ∧ firstChange 1 t.clk.pend = some 90000 ∧
      t.clk.pend.filter (fun y => y.cls == (1 : Fin 4).val && y.tick == 90000) = [⟨7, 1, 600, 90000, 0⟩]) ∧
    (∀ l ∈ [([], true), ([(0, 3, 80000)], false)], let t := { clk0 with tick := 90000, clk := { clk0.clk with lost := l.1 } }
      (islOfClass t 1).all (switches t 1) = l.2 ∧ t.clk.swing.all (fun y => y.cls != 1) = true ∧
      t.clk.stuck.all (fun e => islClass e.1 != some 1) = true) := by
  simp only [Starts, Live, Machine.Inv]; decide +kernel

theorem wit_ClockChanges_events :
    (Live clk0 ∧ 2106 ∉ clk0.clk.hung ∧ loopIslands clk0 22 4 ≠ [] ∧ clk0.clk.hold = none) ∧
    (loopIslands clk0 23 0 = []) ∧
    ((holdover clk0).clk.hold ≠ none ∧ (holdover clk0).clk.lossTold = false ∧ ∀ x ∈ (holdover clk0).clk.pend, clk0.tick < x.tick) ∧
    ({ clk0.clk with mgmt := [(800, 200)] }.mgmt = [(800, 200)]) ∧
    ((tfind { clk0.clk with stuck := [(2048, 0)] }.stuck 2048).isSome = true) ∧
    (let s := { clk0 with tick := 2 * 10 ^ 9, thm := { clk0.thm with steady := [(3243, (0, 0))] } };
      calReady s 1023 = true ∧ calReady clk0 1023 = false) ∧
    (∀ s ∈ [clk0, { clk0 with clk := { clk0.clk with cal := [(1023, [classMhz clk0 0])] } }],
      islGated s 1023 = false ∧ noClock s 1023 = false ∧ 1023 ∉ s.clk.low) ∧
    (tget [] clk0.clk.cal 1023).contains (classMhz clk0 0) = false := by
  simp only [Live, Machine.Inv]; decide +kernel

/-- What is measured at a boundary. -/
def quiet : Measured :=
  { vin := 4800, iin := 100, pin := 2000000, demand := 1500000, cur := [], towerDemand := List.replicate 16 100, spAcc := [], cols := [], looks := [] }

theorem wit_EnvelopeObeysItsSlopesAndBounds : Live clk0 := by
  simp only [Live, Machine.Inv]; decide +kernel

def targetP (at_ w up dn : Nat) : List Byte := pars [(8, at_), (4, w), (4, up), (4, dn)]

theorem wit_GovernorCommands :
    (∀ x ∈ [(0, 3000, 0, 0), (0, 0, 50, 0), (5000, 3000, 100, 50), (4999, 3000, 0, 0)],
      let p := targetP x.1 x.2.1 x.2.2.1 x.2.2.2
      let s := cm clk0 0x80 p
      Starts s 7 0x80 (cmd7 0x80 p) ∧ (∀ v ∈ [x.2.2.1], v = 0 ∨ (50 ≤ v ∧ v ≤ fget s .HRD_SLOPE_CEIL [] Fld.HRD_SLOPE_CEIL_UP_CEIL)) ∧
      (∀ v ∈ [x.2.2.2], v = 0 ∨ (50 ≤ v ∧ v ≤ fget s .HRD_SLOPE_CEIL [] Fld.HRD_SLOPE_CEIL_DN_CEIL)) ∧ s.pwr.pend.length < 16 ∧
      1000 * x.2.1 ≤ ceilingMw s ∧ fget s .THM_STAT [] Fld.THM_STAT_THROTTLED = 0) ∧
    (Starts (cm clk0 0x80 (targetP 0 3000 49 0)) 7 0x80 (cmd7 0x80 (targetP 0 3000 49 0)) ∧
      Starts (cm clk0 0x80 (targetP 0 65000 0 0)) 7 0x80 (cmd7 0x80 (targetP 0 65000 0 0)) ∧ ceilingMw clk0 < 1000 * 65000) ∧
    (let s := fset (fset clk0 .THM_STAT [] Fld.THM_STAT_THROTTLED 1) .THM_STAT [] Fld.THM_STAT_LIMIT 100
     let t := cm s 0x80 (targetP 0 3000 0 0);
      Starts t 7 0x80 (cmd7 0x80 (targetP 0 3000 0 0)) ∧ fget t .THM_STAT [] Fld.THM_STAT_THROTTLED ≠ 0 ∧
      fget t .THM_STAT [] Fld.THM_STAT_LIMIT < 3000) ∧
    (let s := { clk0 with pwr := { clk0.pwr with pend := [⟨7, 8000, 3000, 0, 0⟩, ⟨8, 9000, 3000, 0, 0⟩] } };
      Live s ∧ s.pwr.pend.filter (fun y => y.tick == 8000) = [⟨7, 8000, 3000, 0, 0⟩] ∧ firstAt s.pwr.pend = some 8000) ∧
    (∀ x ∈ [(65000, 5), (100, 60001), (100, 60000)], let p := pars [(4, x.1), (4, x.2)]
      Starts (cm clk0 0x82 p) 7 0x82 (cmd7 0x82 p) ∧ (ceilingMw (cm clk0 0x82 p) < 1000 * x.1 ↔ x.1 = 65000)) := by
  simp only [Starts, Live, Machine.Inv]; decide +kernel

/-- A member, and the coordinator of its fleet with credit to give. -/
def memb : State := { fset clk0 .SYN_STAT [] Fld.SYN_STAT_MSTATE 2 with syn := { clk0.syn with members := [0x123] } }
def coord : State :=
  fset (fset (fset memb .HRD_COORD [] Fld.HRD_COORD_SELF 1) .SYN_ID [] Fld.SYN_ID_ID 0x123) .HRD_FLEET [] Fld.HRD_FLEET_UP_W 50
def beacon1 : Pkt := ⟨mkHdr 0x123 0x300 2 0 7 0 0x14 true true 0 0 0 0 0, 0, leBytes 5 1 ++ [3, 0, 0] ++ leBytes 2 5 ++ List.replicate 22 0⟩
def grant1 : Pkt := ⟨mkHdr 0x123 0x300 2 0 7 0 0x15 true true 0 0 0 0 0, 0, leBytes 5 1 ++ [0, 0, 0] ++ leBytes 2 5 ++ leBytes 2 6 ++ List.replicate 20 0⟩

theorem wit_PowerEvents :
    (Live clk0 ∧ isMember clk0 = false ∧ isMember memb = true ∧ isCoord memb = false ∧ isMember coord = true ∧ isCoord coord = true ∧
      isCoord clk0 = false ∧ Live memb ∧ Live coord) ∧
    (leNat (beacon1.data.take 5) = epochNow (inb coord 3 beacon1) + 1 ∧ (inb coord 3 beacon1).tick % 10 ^ 7 < 6000000) ∧
    epochNow (inb memb 3 grant1) < leNat (grant1.data.take 5) ∧
    (let s := { coord with pwr := { coord.pwr with beacons := [⟨0x123, 3, 60, 10⟩] } };
      isCoord s = true ∧ (⟨0x123, 3, 60, 10⟩ : Beacon).dev = ownId s) ∧
    (let s := { clk0 with pwr := { clk0.pwr with grant := some (1, 5, 6) } };
      1 = (if epochNow s < s.tick / 10 ^ 7 then s.tick / 10 ^ 7 else epochNow s + 1) ∧ s.pwr.grant = some (1, 5, 6)) ∧
    (clk0.pwr.fails = [] ∧ clk0.boot.frrOpen = 0) ∧
    (∀ d ∈ [0, 1050], 0 < phaseCount d ∧ domDark clk0 d = false ∧ tbit (fget clk0 .PWR_DOM_STAT [d] Fld.PWR_DOM_STAT_PHASE_GOOD) 0 = true) ∧
    capAfter 0 (phaseCount 0 - popCount (phaseCount 0) (setBits (fget clk0 .PWR_DOM_STAT [0] Fld.PWR_DOM_STAT_PHASE_GOOD) 0 0 0)) ≠ 0 ∧
    (let s := fset clk0 .PWR_DOM_STAT [1050] Fld.PWR_DOM_STAT_PHASE_GOOD 1;
      capAfter 1050 (phaseCount 1050 - popCount (phaseCount 1050) (setBits (fget s .PWR_DOM_STAT [1050] Fld.PWR_DOM_STAT_PHASE_GOOD) 0 0 0)) = 0 ∧
      domDark s 1050 = false) ∧
    tbit (fget clk0 .PWR_REF [] Fld.PWR_REF_IBC_GOOD) 7 = true ∧ clk0.pwr.low = false ∧ { clk0.pwr with low := true }.low = true ∧
    ({ clk0.boot with vin := true }.vin = true ∧ clk0.lcs.prog = none) := by
  simp only [Live, Machine.Inv]; decide +kernel

theorem wit_PowerEvents_packets :
    (∃ u, TakesPkt (inb coord 3 beacon1) 0x14 3 beacon1 u) ∧ ∃ u, TakesPkt (inb memb 3 grant1) 0x15 3 grant1 u := by
  refine ⟨takes ?_, takes ?_⟩ <;> (simp only [Live, Machine.Inv]; decide +kernel)

theorem wit_PowerEvents_snapshot :
    ∀ x ∈ [(clk0, 0, false), (clk0, 1, false), (clk0, 2, false),
        (fset (fset clk0 .LCS_TENANT [] Fld.LCS_TENANT_SNAP 0) .QD_Q_CFG [0] Fld.QD_Q_CFG_OWNER 1, 1, true)],
      let p := pars [(8, 0x10000), (1, x.2.1)]
      let s := cm x.1 0x91 p
      Starts s 7 0x91 (cmd7 0x91 p) ∧ (x.2.2 = false → snapDenied s (cmd7 0x91 p) = false) := by
  simp only [Starts, Live, Machine.Inv]; decide +kernel

/-- Sensor readings in sixteenths of a degree, and a model that has run. -/
def warm : State :=
  { clk0 with thm := { clk0.thm with read := [(64, 960), (65, 1100)], last := [(0, 1200), (1, 3000), (2, 2000)], tm := [(5, 60)], steps := 5 } }

/-- A model that is ready and a node whose sensors disagree with it, overridden or not. -/
def hotNode (o : Bool) : State :=
  let th : Thm := { warm.thm with read := (List.range 212).map (fun i => (i, 1000)) }
  let th : Thm := { th with overrides := if o then [⟨nodeNum 0 2 0, false⟩] else [] }
  let th : Thm := { th with tm := if o then [] else [(nodeNum 0 2 0, 200)] }
  fset { warm with thm := th } .THM_STAT [] Fld.THM_STAT_MODEL_READY 1

theorem wit_ThermalEvents :
    Live warm ∧
    (∀ v ∈ [(-640 : Int), 1000], (0 : Nat) ∉ warm.thm.excluded ∧ v < limCrit warm (sensNode 0 % 160 / 8) ∧ v < limShut warm (sensNode 0 % 160 / 8)) ∧
    (tfind warm.thm.last 1 = some 3000 ∧ limShut warm (sensNode 1 % 160 / 8) ≤ 2400 ∧ (1 : Nat) ∉ warm.thm.excluded) ∧
    (64 < (readingOf warm 64 - readingOf warm 65).natAbs ∧ (readingOf clk0 64 - readingOf clk0 65).natAbs ≤ 32) ∧
    (sensPair 64 = some 65 ∧ (64 : Nat) ∉ warm.thm.excluded ∧ 65 ∉ warm.thm.excluded ∧ (64 : Nat) ∉ warm.thm.suspect ∧
      modelReady warm = false ∧ warm.thm.tm ≠ [] ∧ warm.thm.suspect = [] ∧
      modelReady (fset warm .THM_STAT [] Fld.THM_STAT_MODEL_READY 1) = true) ∧
    (let s := fset clk0 .THM_TWR [0] Fld.THM_TWR_CRIT 1;
      fbit s .THM_TWR [0] Fld.THM_TWR_CRIT = true ∧ ∀ x ∈ towerTemps s 0, x.2 < limCrit s (x.1 % 160 / 8) - 80) := by
  simp only [Live, Machine.Inv]; decide +kernel

theorem wit_ThermalEvents_override :
    (modelReady (hotNode false) = true ∧ overridden (hotNode false) (nodeNum 0 2 0) = false ∧ 96 < excess (hotNode false) (nodeNum 0 2 0)) ∧
    excess (hotNode true) (nodeNum 0 2 0) ≤ 48 ∧ overridden (hotNode true) (nodeNum 0 2 0) = true := by decide +kernel

/-! ### Witnesses: the log, faults and recovery -/

/-- A report. -/
def rep (tick kind idx det : Nat) : Report := { mkRep clk0 0x33 2 kind idx 3 9 det with tick := tick }
def logged : State := { clk0 with log := { clk0.log with waiting := [rep 5 3 2 1, rep 4 9 9 3, rep 4 9 9 4] } }

/-- A full ring: the next entry's place holds the oldest. -/
def fullRing : State :=
  { fset (fset logged .LOG_STAT [] Fld.LOG_STAT_NEXT_SEQ 8195) .LOG_STAT [] Fld.LOG_STAT_OLDEST_SEQ 3 with
    log := { logged.log with slots := [(3, [1, 2, 3, 4])] } }

theorem wit_LogEntriesAreOrderedAndPlaced :
    (∀ s ∈ [logged, fullRing], Machine.Inv s ∧ firstRep s.log.waiting = some (rep 4 9 9 3) ∧ (rep 4 9 9 3).more = [] ∧
      ((rep 4 9 9 3).tick : Int) + (rep 4 9 9 3).shift + 2000 ≤ s.tick ∧ ((tfind s.log.slots (nextSeq s % 8192)).isSome = true ↔ s.log.slots ≠ [])) ∧
    (let s := { logged with tick := 2003 };
      Machine.Inv s ∧ firstRep s.log.waiting = some (rep 4 9 9 3) ∧ (s.tick : Int) < (rep 4 9 9 3).tick + (rep 4 9 9 3).shift + 2000) ∧
    (Machine.Inv clk0 ∧ clk0.log.waiting = []) := by
  simp only [Machine.Inv]; decide +kernel

def readP (buf first mx : Nat) : List Byte := pars [(8, buf), (4, first), (2, mx)]
def fiveEntries : State :=
  { fset clk0 .LOG_STAT [] Fld.LOG_STAT_NEXT_SEQ 5 with
    log := { clk0.log with slots := (List.range 5).map (fun i => (i, [BitVec.ofNat 64 i, BitVec.ofNat 64 (i * 2 ^ 32), 2 ^ 39, 7])) } }

theorem wit_LogCommands :
    (∀ a ∈ [0x10000, 0x030000000000], ∀ first ∈ [0, 4, 5], let s := cm fiveEntries 0x90 (readP a first 10)
      Starts s 7 0x90 (cmd7 0x90 (readP a first 10)) ∧
      (mapped (begun s (cmd7 0x90 (readP a first 10))) a 320 = true ↔ a = 0x10000) ∧
      (readStart s first = none ↔ first = 5)) ∧
    Starts (cm fiveEntries 0x92 []) 7 0x92 (cmd7 0x92 []) ∧
    (Live clk0 ∧ fget (fset clk0 .LOG_CFG [] Fld.LOG_CFG_CE_PERIOD 0) .LOG_CFG [] Fld.LOG_CFG_CE_PERIOD = 0 ∧
      fget (fset clk0 .LOG_CFG [] Fld.LOG_CFG_CE_PERIOD 65535) .LOG_CFG [] Fld.LOG_CFG_CE_PERIOD ≠ 0) := by
  simp only [Starts, Live, Machine.Inv]; decide +kernel

/-- Cluster 0 belongs to job 9, whose queues are 0 and 3; queue 5 is job 8's. -/
def jobs : State :=
  { rput (rput (rput clk0 .QD_Q_CFG [0] (4 + 9 * 2 ^ 32)) .QD_Q_CFG [3] (4 + 9 * 2 ^ 32)) .QD_Q_CFG [5] (4 + 8 * 2 ^ 32) with
    jobOf := [(0, 9), (1, 8)] }

theorem wit_AFaultFencesItsJob :
    Live jobs ∧ rcvRunning jobs = false ∧ isHeld jobs = false ∧ jobOfC jobs 0 ≠ 0 ∧ queueJob jobs 3 = jobOfC jobs 0 ∧
    queueJob jobs 5 ≠ jobOfC jobs 0 := by
  simp only [Live, Machine.Inv]; decide +kernel

def stage (n restarts : Nat) : State :=
  { jobs with rcv := { jobs.rcv with stage := n, restarts := restarts, jobs := [9], res := [⟨.cluster 0, .reverify, true, 1, 0⟩], tests := [(2, 0)] } }
def heldState : State :=
  { fset jobs .QD_STAT [] Fld.QD_STAT_HELD 1 with rcv := { jobs.rcv with
      stage := 7, jobs := [9], restarts := 4, culprits := [.cluster 0],
      res := [⟨.cluster 0, .reverify, true, 1, 0⟩, ⟨.pillar 3, .repair, true, 5, 7⟩] } }

theorem wit_RecoverySteps :
    (∀ x ∈ [(2, 0), (4, 0), (5, 3), (5, 4)], Live (stage x.1 x.2) ∧ (stage x.1 x.2).rcv.stage = x.1 ∧
      (stage x.1 x.2).rcv.restarts = x.2 ∧ (stage x.1 x.2).rcv.waiters = [] ∧ (∀ f ∈ [(⟨0, 3, 0⟩ : VerifyFail), ⟨2, 0, 5⟩], isTested (stage x.1 x.2) f = true) ∧
      ∀ i < 27, domDark (stage x.1 x.2) (1024 + i) = false) ∧
    ({ stage 2 0 with clu := [] }.clu = [] ∧ (stage 2 0).nb = [] ∧ (stage 2 0).nbFlight = [] ∧ (stage 2 0).cmds = []) ∧
    (jobOfC (stage 2 0) 0 ≠ 0 ∧ jobOfC (stage 2 0) 0 ∈ (stage 2 0).rcv.jobs) ∧
    (∀ x ∈ [(clk0, false, false), (stage 5 0, false, true), (heldState, true, false)], Starts (cm x.1 0xA0 []) 7 0xA0 (cmd7 0xA0 []) ∧
      isHeld (cm x.1 0xA0 []) = x.2.1 ∧ (x.2.1 = false → rcvRunning (cm x.1 0xA0 []) = x.2.2)) ∧
    (Starts (cm heldState 0xA1 []) 7 0xA1 (cmd7 0xA1 []) ∧ isHeld (cm heldState 0xA1 []) = true) := by
  simp only [Starts, Live, Machine.Inv]; decide +kernel

/-! ### Witnesses: settings, credentials and register writes -/

/-- A session open with credential 0; records of a ledger. -/
def sess (s : State) : State := { s with lcs := { s.lcs with session := some 4000 } }
def ledg (k v : Nat) : Ledger := { tick := 1, value := v, setting := k, slot := 0, cred := 1, valid := true, torn := false, prior := 1500 }
def filled (k : Nat) : State :=
  { sess clk0 with lcs := { (sess clk0).lcs with records := (List.range (slotCount k)).map (fun j => (slotBase k + j, ledg k 2000)) } }
def burning (k v : Nat) : State := { sess clk0 with lcs := { (sess clk0).lcs with prog := some (slotBase k, ledg k v) } }

/-- The six registers, with a value that meets every condition and one out of range. -/
def setRegs : List (Nat × RegId × Nat × Nat) :=
  [(0, .PWR_CEILING, 2000, 0), (1, .HP_ROLE, 0x21, 0x33), (2, .SYN_ID, 0x123, 0xFFFF), (3, .LCS_TENANT, 0x10F, 0xFF),
   (4, .HRD_SLOPE_CEIL, 60 * 2 ^ 32 + 70, 0), (5, .LCS_GRADE, 976, 0)]

theorem wit_LimitedChangeSettings :
    (∀ x ∈ setRegs, Reaches (sess clk0) .bar0 x.2.1 [] ∧ (sess clk0).lcs.prog = none ∧ (openSlot (sess clk0) x.1).isSome = true ∧
      valueInRange x.1 (settingMask x.1 x.2.2.1) = true ∧
      (settingMask x.1 x.2.2.1 ≠ settingNow (sess clk0) x.1 ∨ (x.1 = 2 ∧ fbit (sess clk0) .SYN_ID [] Fld.SYN_ID_SET = false)) ∧
      ownCond (sess clk0) x.1 (settingMask x.1 x.2.2.1) = true) ∧
    (∀ x ∈ setRegs, Reaches clk0 .bar0 x.2.1 [] ∧ clk0.lcs.session = none ∧ Reaches (burning x.1 x.2.2.1) .bar0 x.2.1 [] ∧
      (burning x.1 x.2.2.1).lcs.prog ≠ none ∧ Reaches (filled x.1) .bar0 x.2.1 [] ∧
      (∀ j < slotCount x.1, (tfind (filled x.1).lcs.records (slotBase x.1 + j)).isSome = true) ∧ (filled x.1).lcs.session ≠ none) := by
  simp only [Reaches, Live, Machine.Inv]; decide +kernel

theorem wit_LimitedChangeSettings_values :
    (∀ k ∈ [0, 1, 4], ∃ v ∈ [0, 0x33], valueInRange k (settingMask k v) = false) ∧
    (settingMask 0 (settingNow (sess clk0) 0) = settingNow (sess clk0) 0) ∧
    (∀ x ∈ setRegs, Live (burning x.1 x.2.2.1) ∧ (burning x.1 x.2.2.1).lcs.prog = some (slotBase x.1, ledg x.1 x.2.2.1) ∧
      x.1 ≤ 5 ∧ x.2.2.1 = settingMask x.1 x.2.2.1) ∧
    (ownCond (fset (sess clk0) .SYN_CFG [] Fld.SYN_CFG_EN 1) 2 0x123 = false) := by
  simp only [Live, Machine.Inv]; decide +kernel

/-- An action being verified. -/
def verifying (s : State) (a i : Nat) : State := { s with lcs := { s.lcs with verify := some (a, i, [1, 2], [3]) } }

theorem wit_CredentialActions :
    (Reaches clk0 .bar0 .LCS_AUTH_CTL [] ∧ clk0.lcs.verify = none) ∧
    (Reaches (verifying clk0 1 0) .bar0 .LCS_AUTH_CTL [] ∧ (verifying clk0 1 0).lcs.verify ≠ none) ∧
    (∀ a ∈ [1, 2, 3, 4], ∀ i ∈ [0, 7], Live (verifying clk0 a i) ∧ (verifying clk0 a i).lcs.verify = some (a, i, [1, 2], [3]) ∧
      commissioned (verifying clk0 a i) = false ∧ ∀ n < 8, n ≠ i → credBound (verifying clk0 a i) n = true → credRevoked (verifying clk0 a i) n = true) ∧
    (authCheck (verifying clk0 3 7) 3 7 [1, 2] [3] ≠ 0) ∧
    (let s := sess (fset (fset clk0 .LCS_STAT [] Fld.LCS_STAT_COMMISSIONED 1) .LCS_STAT [] Fld.LCS_STAT_BOUND 7);
      commissioned s = true ∧ s.lcs.session ≠ none ∧ fget s .LCS_STAT [] Fld.LCS_STAT_SESS_CRED ≠ 1 ∧
      ∃ n < 8, n ≠ 1 ∧ credBound s n = true ∧ credRevoked s n = false) := by
  simp only [Reaches, Live, Machine.Inv]; decide +kernel

/-- Slot 5 of tower 0 aimed at bank 0 of cluster 0, and a queue that is disabled. -/
def aimed : State := rput clk0 .NB_S_RANGE_IN [0, 5] (2 ^ 46)
def qOff : State := fset (qOn clk0 3) .QD_Q_CTL [3] Fld.QD_Q_CTL_EN 0

theorem wit_CommandRegisterWrites :
    (∀ kd ∈ [1, 2, 3], let v := withKind (0 : Word) kd
      Reaches aimed .bar0 .NB_S_CMD [0, 5] ∧ fbit aimed .NB_S_STAT (slotIx 5) Fld.NB_S_STAT_BUSY = false ∧ nbFieldCheck aimed 5 v = 0 ∧
      nbTargets aimed 5 = (0, [0]) ∧ bankStriped aimed 0 = false) ∧
    (let s := fset aimed .NB_S_STAT (slotIx 5) Fld.NB_S_STAT_BUSY 1;
      Reaches s .bar0 .NB_S_CMD [0, 5] ∧ fbit s .NB_S_STAT (slotIx 5) Fld.NB_S_STAT_BUSY = true) ∧
    (∀ n ∈ [0, 4, 255], bits (BitVec.ofNat 64 (n * 2 ^ 56)).toNat 63 56 ∉ [1, 2, 3]) ∧
    (∀ t ∈ [0, 15], Reaches clk0 .bar0 .TC_CTL [t]) ∧ ((4 : Word).toNat % 4 = 0 ∧ (12 : Word).toNat % 4 = 0) ∧
    (∀ r ∈ [RegId.QD_DB_SQ, .QD_DB_CQ, .QD_Q_CTL], ∀ s ∈ [qOn clk0 3, qOff], Reaches s .bar0 r [3]) ∧
    (ptrDiff 16 (sqHead (qOn clk0 3) 3) ≤ ringLen (qOn clk0 3) 3 ∧ ringLen (qOn clk0 3) 3 < ptrDiff 17 (sqHead (qOn clk0 3) 3) ∧
      ptrDiff (cqTail (qOn clk0 3) 3) 65520 ≤ ringLen (qOn clk0 3) 3 ∧ ringLen (qOn clk0 3) 3 < ptrDiff (cqTail (qOn clk0 3) 3) 65519) ∧
    (qEnabled qOff 3 = false ∧ qEnabled (qOn clk0 3) 3 = true ∧ qCmds (qOn clk0 3) 3 = [] ∧
      ringOk (sqBase qOff 3) (64 * ringLen qOff 3) = true ∧ ringOk (cqBase qOff 3) (32 * ringLen qOff 3) = true ∧
      ringOk (sqBase (rput qOff .QD_SQ_BASE [3] (2 ^ 43)) 3) 64 = false ∧
      (clk0.rcv.acked + 2 ^ 32 - fget (qOn clk0 3) .QD_Q_STAT [3] Fld.QD_Q_STAT_FENCE) % 2 ^ 32 < 2 ^ 31) := by
  simp only [Reaches, Live, Machine.Inv]; decide +kernel

theorem wit_ControlRegisterWrites :
    (∀ r ∈ [RegId.SYN_CFG, .LOG_CTL, .CLK_BYPASS, .CLK_MGMT, .CLK_GATE, .CLK_OBS, .THM_COOL, .RST_CTL], Reaches clk0 .bar0 r []) ∧
    (∀ i ∈ [0, 16383], Reaches clk0 .bar0 .SYN_RT [i]) ∧ clk0.syn.members.length ≤ 4096 ∧
    (fbit clk0 .SYN_CFG [] Fld.SYN_CFG_EN = false ∧ fbit (fset clk0 .SYN_CFG [] Fld.SYN_CFG_EN 1) .SYN_CFG [] Fld.SYN_CFG_EN = true ∧
      Reaches (fset clk0 .SYN_CFG [] Fld.SYN_CFG_EN 1) .bar0 .SYN_CFG []) ∧
    (∃ i < 20, gateBit clk0 i = false ∧ blockUsed clk0 i = true) ∧ canReset clk0 = true ∧
    (∀ x ∈ [(170, 20, 1), (450, 20, 65535)], let n := x.1 * 2 ^ 32 + x.2.1 * 2 ^ 16 + x.2.2
      170 ≤ bits n 47 32 ∧ bits n 47 32 ≤ 450 ∧ 20 ≤ bits n 31 16 ∧ bits n 15 0 ≠ 0) := by
  simp only [Reaches, Live, Machine.Inv]; decide +kernel

/-- Firmware of security version 3 that runs, with `raises` already made. -/
def fw (mn raises : Nat) : State :=
  let t := fset (fset clk0 .BOOT_FW [] Fld.BOOT_FW_SVN 3) .BOOT_FW [] Fld.BOOT_FW_MIN_SVN mn
  { t with boot := { t.boot with raises := raises } }

theorem wit_CommitRaisesTheMinimumVersion :
    (∀ x ∈ [(2, 0), (2, 31), (3, 0), (2, 32)], Reaches (fw x.1 x.2) .bar0 .BOOT_FW_CTL [] ∧
      (fget (fw x.1 x.2) .BOOT_FW [] Fld.BOOT_FW_MIN_SVN < fget (fw x.1 x.2) .BOOT_FW [] Fld.BOOT_FW_SVN ↔ x.1 = 2) ∧
      (fw x.1 x.2).boot.raises = x.2) := by
  simp only [Reaches, Live, Machine.Inv]; decide +kernel

/-! ### Witnesses: the register space, bring-up, reset -/

theorem wit_ReservedOffsetsReadZero :
    ∀ x ∈ [(RegSrc.bar0, 0x900), (.bar0, 0x3FFFFF8), (.synOper, 0x1FFFFF8), (.bar2, 0xA4C000)], Machine.Inv clk0 ∧ answers clk0 x.1 = true ∧
      ratioBad clk0 = none ∧ (viewOff x.1 x.2).all (fun v => !(inSett v) && (regAt v).isNone) = true := by
  simp only [Machine.Inv]; decide +kernel

theorem wit_RegisterAccesses :
    (Live clk0 ∧ ratioBad clk0 = none ∧ ∀ src ∈ [RegSrc.bar0, .bar2, .owl], answers clk0 src = true) ∧
    (∀ x ∈ [(RegId.ID_DEVICE, ([] : List Nat)), (.SP_CFG, [0, 1]), (.LOG_CFG, []), (.KV_CFG, []), (.HRD_AVG, []), (.THM_LIM, [1]), (.RST_CFG, []),
        (.ECC_CFG, [])], viewOff .bar0 (x.1.off x.2) = some (x.1.off x.2) ∧ land clk0 .bar0 (x.1.off x.2) = .reg x.1 x.2) ∧
    (answers clk0 .synTenant = true ∧ viewOff .synTenant (RegId.LCS_GRADE.off []) = some (RegId.LCS_GRADE.off []) ∧
      land clk0 .synTenant (RegId.LCS_GRADE.off []) = .absent ∧ (0x0F : BitVec 8) ≠ 0xFF) ∧
    (let s := fset clk0 .CLK_GATE [] ⟨18, 18⟩ 1;
      land s .bar0 (RegId.SYN_COLL_CFG.off []) = .gated 18) ∧
    (let s := { clk0 with host := { clk0.host with roles := 1 } };
      Live s ∧ portRole s 0 = 1 ∧ 4 < fget s .BOOT_STAT [] Fld.BOOT_STAT_STAGE ∧ Live (rput s .BOOT_STAT [] 4) ∧
      portRole (rput s .BOOT_STAT [] 4) 0 = 1 ∧ fget (rput s .BOOT_STAT [] 4) .BOOT_STAT [] Fld.BOOT_STAT_STAGE ≤ 4) ∧
    (∀ x ∈ [(RegId.SP_CFG, [0, 1]), (.LOG_CFG, []), (.QD_DB_SQ, [3]), (.SYN_ID, [])], land clk0 .bar0 (x.1.off x.2) = .reg x.1 x.2 ∧
      tenantSrc .bar0 = false) := by
  simp only [Live, Machine.Inv]; decide +kernel

/-- The device with its bring-up state changed. -/
def boot (f : Boot → Boot) : State := { clk0 with boot := f clk0.boot }

theorem wit_ResetSources :
    (∀ s ∈ [clk0, boot (fun b => { b with vin := false, life := .standby }), boot (fun b => { b with vin := false, resetN := true, life := .standby }),
        boot (fun b => { b with resetN := true, vin := true, life := .run }), boot (fun b => { b with life := .unpowered, vin := false })], Machine.Inv s) ∧
    ((boot (fun b => { b with vin := false, life := .standby })).boot.life ≠ .dark) ∧
    (let s := { fset clk0 .RST_CFG [] Fld.RST_CFG_PERST_COLD 1 with host := { clk0.host with roles := 0x11 } };
      tbit (fget s .RST_CFG [] Fld.RST_CFG_PERST_COLD) 0 = true ∧ portRole s 0 = 1 ∧ canReset s = true ∧
      tbit (fget s .RST_CFG [] Fld.RST_CFG_PERST_COLD) 1 = false ∧ s.alive = true ∧ hostUp (rput s .HP_LINK_STAT [2] 1) 1 = true ∧
      s.host.reqs = [] ∧ s.host.unmaps = []) ∧
    (let s := boot (fun b => { b with wdog := some 3 });
      s.alive = true ∧ s.boot.wdog.isSome = true ∧ canReset s = true ∧ fbit s .RST_CFG [] Fld.RST_CFG_WDOG_EN = true ∧ s.boot.life = .run ∧
      fbit (fset s .RST_CFG [] Fld.RST_CFG_WDOG_EN 0) .RST_CFG [] Fld.RST_CFG_WDOG_EN = false) := by
  simp only [Machine.Inv]; decide +kernel

/-- What a stage finds when nothing is wrong. -/
def fine : StageResult :=
  { halt := none, fuses := [], bonds := [], phases := [], clocks := [], lanes := [], logic := [], scratch := [], units := [], ways := [], banks := [],
    links := [], slots := [], found := [], readLat := [], lat := [] }
def atStage (n : Nat) : State := rput State.reset .BOOT_STAT [] n

theorem wit_BringUpStages :
    (∀ n ∈ [1, 2, 3, 12, 13], let w := stageWork n fine (bare (atStage n))
      Live (atStage n) ∧ fget (atStage n) .BOOT_STAT [] Fld.BOOT_STAT_STAGE = n ∧ w.1 = none ∧ w.2.host.hit = [] ∧
      fget w.2 .BOOT_STAT [] Fld.BOOT_STAT_STAGE = n ∧ w.2.tick < 2 ^ 64 ∧
      (n = 1 → fget w.2 .PWR_DOM_STAT [1050] Fld.PWR_DOM_STAT_CAP_PCT ≠ 0)) ∧
    ((boot (fun b => { b with meas := (4, 0, 0) })).boot.meas.1 = 4 ∧ (atStage 12).boot.meas.1 ≠ 4 ∧
      (boot (fun b => { b with meas := (1, 99, 5000000) })).boot.meas = (1, 99, 5000000)) ∧
    (∀ b ∈ [(⟨([1, 2], crc32c [1, 2]), ([], 1)⟩ : FuseBank), ⟨([], 1), ([1, 2], crc32c [1, 2])⟩], fuseLoad b = some [1, 2]) ∧
    ([(⟨([], 1), ([], 1)⟩ : FuseBank)].findIdx? (fun b => (fuseLoad b).isNone) = some 0) ∧
    (let l := [(15, 18, 3, 0), (15, 18, 3, 31), (15, 18, 2, 4)];
      (∀ b ∈ l, (sameBundle l b).length ≤ 2) ∧ 2 < (sameBundle ((15, 18, 3, 7) :: l) (15, 18, 3, 7)).length) ∧
    (let w := stageWork 2 { fine with halt := some 77 } (bare (atStage 2));
      w.1 = some ⟨2, 0, 0, 77⟩ ∧ w.2.host.hit = [] ∧ fget w.2 .BOOT_STAT [] Fld.BOOT_STAT_STAGE = 2) ∧
    fget (atStage 0) .BOOT_STAT [] Fld.BOOT_STAT_STAGE = 0 ∧ fget (atStage 14) .BOOT_STAT [] Fld.BOOT_STAT_STAGE = 14 := by
  simp only [Live, Machine.Inv]; decide +kernel

theorem wit_TestPortInstructions :
    (∀ s ∈ [boot (fun b => { b with trst := false }), boot (fun b => { b with trst := false, resetN := true }), boot (fun b => { b with trst := true })],
      Machine.Inv s ∧ s.boot.life ≠ .unpowered) := by
  simp only [Machine.Inv]; decide +kernel

theorem wit_IdleBlockTicks : State.reset.pending = [] ∧ State.reset.alive = true ∧
    (boot (fun b => { b with life := .unpowered })).pending = [] ∧ (boot (fun b => { b with life := .unpowered })).counts = false ∧
    ∀ k ∈ [(4 : Int), -4, 3, -3, 0], let s := { clk0 with tick := 20000, syn := { clk0.syn with slew := k, slewAt := 10001 } }
      s.pending = [] ∧ s.counts = true ∧ ((4 ≤ s.syn.slew.natAbs ∧ s.syn.slewAt + 9999 ≤ s.tick) ↔ k = 4 ∨ k = -4) := by
  decide +kernel

theorem wit_EveryStepKeepsItsInvariant :
    Machine.Inv { clk0 with pending := [.idcode, .bypass] } ∧ ∃ t, step { clk0 with pending := [.idcode, .bypass] } = .next t :=
  ⟨by simp only [Machine.Inv]; decide +kernel, _, rfl⟩

theorem wit_TheOnlyFaultIsTheClockRatio :
    let s := { clk0 with pending := [.rstCtlCold .bar0 1], clk := { clk0.clk with core := 1200, rbus := 100 } }
    ratioBad clk0 = none ∧ ratioBad s ≠ none ∧ s.alive = true ∧ s.pending.head? = some (.rstCtlCold .bar0 1) := by decide +kernel

/-! ### Ill-formed commands -/

/-- For each check of `Instr.wf`, commands that fail it. -/
theorem test_wf_registers :
    ∀ i ∈ [Instr.registerWrite .bar0 4 0xFF 0, .registerWrite .bar2 (2 ^ 24) 0xFF 0, .registerRead .bar0 (2 ^ 26) 0xFF,
        .registerRead .owl 1 0xFF, .credOpen .bar0 0, .credClose .bar0 0, .credBind .bar0 0, .credSeal .bar0 0, .credRevoke .bar0 0,
        .nbRun .bar0 0 0 (2 * 2 ^ 56), .nbLoad .bar0 0 0 (3 * 2 ^ 56), .nbSetgrp .bar0 0 0 (2 ^ 56), .nbCmdReserved .bar0 0 0 (3 * 2 ^ 56),
        .tcFlush .bar0 0 0, .tcRclose .bar0 0 0, .tcUnpin .bar0 0 0, .queueEnable .bar0 0 0, .queueDisable .bar0 0 1,
        .queueReset .bar0 0 0, .fenceAck .bar0 0 0, .synEnSet .bar0 0, .synEnClear .bar0 1, .logCtlClear .bar0 0, .clkBypass .bar0 0,
        .rstCtlCold .bar0 0, .fwCommit .bar0 0], i.wf = false := by decide +kernel

theorem test_wf_memory :
    ∀ i ∈ [Instr.stackAccess ⟨0, 0, 0, 0, false, [], 0⟩ [], .stackAccess ⟨0, 0, 0, 16, true, [], 0⟩ [],
        .stackAccess ⟨0, 0, 0, 16, false, [], 3⟩ [], .stackAccess ⟨0, 0, 0, 16, false, [], 0⟩ [⟨1, 1, .cell⟩],
        .stackAccess ⟨0, 0, sp, 16, false, [], 0⟩ [], .scratchpadAccess 0 0 ⟨0, 0, 0, 16, false, [], 0⟩ [],
        .scratchpadAccess 0 0 ⟨0, 0, sp, 16, false, [], 0⟩ [⟨0, 1, .cell⟩], .rocFill 0 true 8 [], .rocFill 0 true (2 ^ 47) [],
        .tcReduction 0 0 0 [0] 0, .tcReduction 0 0 10 (List.replicate 16 0) 0, .tcReduction 0 8 1 (List.replicate 16 0) 0,
        .tcReduction 0 0 1 [] 0, .tcReduction 0 0 1 (List.replicate 16 0) 3, .batchTimeout 0 (2 ^ 32),
        .tcApertureAccess true ⟨0, 0, sp, 16, false, [], 0⟩, .hostMemAccess 0 ⟨0, 0, 2 ^ 47, 1, false, [], 0⟩,
        .cxlMemRequest 0 ⟨0, 0, 0, 0, false, [], 0⟩ false, .birsp 0 0 (some [1]), .hostCompletion 0 0 false (List.replicate 4097 0)],
      i.wf = false := by decide +kernel

theorem test_wf_events :
    ∀ i ∈ [Instr.nbActivityEval ⟨0, 0, 0⟩ 32001, .drainTimeout none 256, .unitParity none 256, .reverify [⟨16, 0, 0⟩],
        .reverify [⟨0, 1051, 0⟩], .computeResetStage [] [(0, 576)], .kernelComplete 1024, .launchStart 1024, .graphNodeStart 0 65536,
        .flitReceive 0 ⟨stripe 3 (List.replicate 72 0), false⟩, .flitReceive 0 ⟨stripe 9 (List.replicate 72 0), false⟩,
        .flitReceive 0 ⟨stripe 8 (List.replicate 90 0), false⟩, .flitReceive 0 ⟨List.replicate 8 [], true⟩, .portUp 0 256 true,
        .portTrainAttempt 0 true 256, .memberTimeout 0x8000, .collTimeout 65536, .hostLinkUp 0 0 16, .hostLinkUp 0 7 16, .hostLinkUp 0 5 3,
        .phaseFail 1051 0, .switchHung 2107, .pllUnlock 23 0, .marginMeasure 1024 0, .marginCalibrate 1024, .sensorSample 0 (2 ^ 15),
        .sensorSample 0 (-(2 ^ 15) - 1), .millisecondBoundary { quiet with vin := 65536 }, .millisecondBoundary { quiet with iin := 65536 },
        .millisecondBoundary { quiet with cur := [(1051, (0, 0))] }, .millisecondBoundary { quiet with spAcc := [(1024, 0)] },
        .millisecondBoundary { quiet with cols := [(16384, 0)] }, .millisecondBoundary { quiet with looks := [(1024, 0)] },
        .millisecondBoundary { quiet with towerDemand := [] }], i.wf = false := by decide +kernel

theorem test_wf_stages :
    ∀ r ∈ [{ fine with phases := [(1051, 0)] }, { fine with phases := [(0, 6)] }, { fine with clocks := [2107] },
        { fine with lanes := [(1024, 0)] }, { fine with lanes := [(0, 576)] }, { fine with logic := [1024] }, { fine with scratch := [1024] },
        { fine with ways := [(16, 0)] }, { fine with banks := [(0, 16, 0)] }, { fine with banks := [(0, 0, 33)] },
        { fine with slots := [[], [], []] }, { fine with bonds := [(16, 0, 0, 0)] }, { fine with bonds := [(0, 0, 0, 32)] }], (Instr.bringupStageComplete r).wf = false := by decide +kernel

theorem test_wf_accepts :
    ∀ i ∈ [Instr.registerRead .bar0 (2 ^ 26 - 8) 0xFF, .stackAccess ⟨0, 0, 0, 16, false, [], 2⟩ [⟨0, 1, .cell⟩],
        .flitReceive 0 (onWire 0 false), .flitReceive 0 ⟨stripe 5 (List.replicate 360 0), true⟩,
        .tcReduction 0 0 9 (List.replicate 16 0) 0, .bringupStageComplete fine, .millisecondBoundary quiet, .add 1023], i.wf = true := by
  decide +kernel

/-! ### Words of the scalar core, bit by bit from R108 and R109 -/

theorem test_words :
    decodeCore 0b00000000011001000010100000000000 = .add ∧ decodeCore 0b00000000011001000010100000001101 = .remu ∧
    decodeCore 0b00000000011001000010100000001110 = .illegal ∧ decodeCore 0b00000100011001001111111111111111 = .addi ∧
    decodeCore 0b00100000011001000000000000000001 = .shli ∧ decodeCore 0b01000000011001000000000000001000 = .lds ∧
    decodeCore 0b01001100011001000000000000001000 = .stg ∧ decodeCore 0b01110100011001001111111111111111 = .bgeu ∧
    decodeCore 0b01111000001000000000000000000010 = .jal ∧ decodeCore 0b10000000000001000000000000000000 = .qpush ∧
    decodeCore 0b10000000001001000000000000000000 = .illegal ∧ decodeCore 0b10010000000000000000000000100011 = .dctlReset ∧
    decodeCore 0b10011000011000000000000000001001 = .csrr ∧ decodeCore 0b10011000011000000000000000001010 = .illegal ∧
    decodeCore 0b11001000000001000000000000000000 = .halt ∧ decodeCore 0b11111100000000000000000000000000 = .illegal := by
  decide +kernel

/-! ### Results worked out by hand -/

/-- g3 after an instruction of the core of cluster 0 with g4 = a and g5 = b. -/
def g3After (i : Instr) (w : Nat) (a b : Word) : Word := reg (after (core w (lset (lset g3 4 a) 5 b)) i) 0 3

theorem test_add_wraps : g3After (.add 0) (fmt 0 3 4 (5 * 2 ^ 11)) 0xFFFFFFFFFFFFFFFF 2 = 1 := by decide +kernel
theorem test_mulh_signed : g3After (.mulh 0) (fmt 0 3 4 (5 * 2 ^ 11 + 9)) 0xFFFFFFFFFFFFFFFF 5 = 0xFFFFFFFFFFFFFFFF := by decide +kernel
theorem test_divu_by_zero : g3After (.divu 0) (fmt 0 3 4 (5 * 2 ^ 11 + 12)) 7 0 = 0xFFFFFFFFFFFFFFFF := by decide +kernel
theorem test_srai : g3After (.srai 0) (fmt 7 3 4 4) 0x8000000000000000 0 = 0xF800000000000000 := by decide +kernel
theorem test_shli : g3After (.shli 0) (fmt 8 3 4 0xFFFF) 1 0 = 0x1FFFF := by decide +kernel

/-- FP32 sums and products of near-bank units, and an E4M3 code of 1.5 (R81). -/
theorem test_fp32 : f32add 0x3F800000 0x3F800000 = 0x40000000 ∧ f32mul 0x40000000 0x3FC00000 = 0x40400000 ∧
    f32max 0xBF800000 0x3F800000 = 0x3F800000 ∧ fenc .e4m3 (fdec .fp32 0x3FC00000) = 0x3C := by decide +kernel

/-- The CRC of a code image is CRC-32C, whose check value for the digits 1 to 9 is E3069283H (R141). -/
theorem test_crc32c : crc32c (List.range 9 |>.map (fun i => BitVec.ofNat 8 (0x31 + i))) = 0xE3069283 := by decide +kernel

/-- The register addresses of R446 reach their registers, and RST_CAUSE after a cold reset names the power-on. -/
theorem test_reset_cause : regAt (RegId.RST_CAUSE.off []) = some (.RST_CAUSE, []) ∧ rget State.reset .RST_CAUSE [] = 2 := by decide +kernel

/-- A step runs the command at the front of the queue. -/
theorem test_step : ∃ t, step { core (fmt 0 3 4 (5 * 2 ^ 11)) g3 with pending := [.add 0, .sub 0] } = .next t ∧ t.pending = [.sub 0] ∧
    reg t 0 3 = 27 := ⟨_, rfl, by decide +kernel⟩

theorem wit_SlotsStayInTheirRange :
    0 ≤ (Slot.zero).v + 2 ^ 47 ∧ (Slot.zero).v < 2 ^ 47 := by decide +kernel

end Sys2Proof.Tests
end

section
/-! PROOFS. A firmware commit (R431): the meaning of a whole-word register write of the Operator view, what a register and a field
hold after a write of another field, and the branches of a write of BOOT_FW_CTL. -/

namespace Sys2Proof.Machine

/-! ### Registers and fields -/

/-- A register's word fits 64 bits when its reset word does. -/
theorem rget_lt (s : State) {r : RegId} {ix : List Nat} (h : resetWord r ix < 2 ^ 64) : rget s r ix < 2 ^ 64 := by
  unfold rget
  split
  · exact BitVec.isLt _
  · exact h

/-- A field's value fits the field's width. -/
theorem fget_lt (s : State) (r : RegId) (ix : List Nat) (f : Fld) : fget s r ix f < 2 ^ (f.hi + 1 - f.lo) :=
  Nat.mod_lt _ (Nat.two_pow_pos _)

theorem RegsOnly.refl (s : State) (offs : List Nat) : RegsOnly s s offs := fun _ _ _ => rfl

/-- A field write at a listed offset adds no other register to those that differ. -/
theorem RegsOnly.fset {s t : State} {offs : List Nat} (h : RegsOnly s t offs) {r : RegId} {ix : List Nat} (hr : r.off ix ∈ offs)
    (f : Fld) (v : Nat) : RegsOnly s (fset t r ix f v) offs := by
  intro r' ix' ho
  have hne : r'.off ix' ≠ r.off ix := fun e => ho (e ▸ hr)
  rw [rget_fset_other t hne, h r' ix' ho]

/-! ### The bus -/

theorem tbit_eq_testBit (v i : Nat) : tbit v i = v.testBit i := by
  rw [Nat.testBit_eq_decide_div_mod_eq]; rfl

/-- A bit that `withBit` sets is set. -/
theorem tbit_withBit_true (v : Word) (i : Nat) : tbit (withBit v i true) i = true := by
  have h := bits_setBits v.toNat 1 (le_refl i)
  simp only [bits, Nat.add_sub_cancel_left, pow_one] at h
  simp [tbit, withBit, b2n, h]

/-- Data bits of writable fields take effect in the Operator view. -/
theorem tbit_writeData_oper {d : RegDesc} {i : Nat} (h : tbit (writeMask d false) i = true) {val : Nat} (hv : tbit val i = true)
    (cur : Nat) : tbit (writeData d false cur val) i = true := by
  rw [tbit_eq_testBit] at *
  simp [writeData, h, hv]

/-- A running device answers every source. -/
theorem answers_of_alive {s : State} (h : s.alive = true) (src : RegSrc) : answers s src = true := by
  have hl : s.boot.life = .run := by simp only [State.alive, Bool.and_eq_true, beq_iff_eq] at h; exact h.1
  cases src <;> simp [answers, h, hl]

/-- A source of the Operator view reaches a view offset at that offset. -/
theorem offFor_oper {src : RegSrc} (h : tenantSrc src = false) (v : Nat) : offFor src v = v := by
  have hb : (src == .bar2) = false := by simp only [tenantSrc, Bool.or_eq_false_iff] at h; exact h.1
  simp [offFor, hb]

/-- A whole-word write that reaches its register does what the register's write does. -/
theorem writeReg_of_reaches {s : State} {src : RegSrc} {r : RegId} {ix : List Nat} (h : Reaches s src r ix) (v : Nat) :
    writeReg src r ix v (bare s) = regWrite false r ix (writeData r.desc false (rget s r ix) v) (bare s) := by
  obtain ⟨_, _, ht, hv, hl⟩ := h
  have hl' : land (bare s) src (r.off ix) = .reg r ix := hl
  simp only [writeReg, busWrite, offFor_oper ht, hv, hl', ht]
  rfl

/-- An effect that comes to `u` with the queue set aside enters the state as `u`, when it meets no host copy and keeps memory
canonical. -/
theorem runAny_of_eq {s u : State} {f : State → State} (e : f (bare s) = u) (hh : u.host.hit = []) (hm : Memory.wf u.mem = true) :
    s.runAny f = .next { u with pending := s.pending } := by
  subst e; exact s.runAny_quiet f hh hm

/-- With a legal ratio a row of the register bus is an effect that enters the state. -/
theorem onBus_of_ratio {s : State} (h : ratioBad s = none) (src : RegSrc) (f : State → State) :
    s.onBus src f = s.runAny (fun s => if answers s src then f s else s) := by
  simp [State.onBus, h]

/-- The step of a whole-word write that reaches its register and leaves memory and the host alone. -/
theorem onBus_writeReg_of_reaches {s u : State} {src : RegSrc} {r : RegId} {ix : List Nat} (h : Reaches s src r ix) {v : Nat}
    (hu : regWrite false r ix (writeData r.desc false (rget s r ix) v) (bare s) = u) (hh : u.host = s.host) (hm : u.mem = s.mem) :
    s.onBus src (writeReg src r ix v) = .next { u with pending := s.pending } := by
  have hw := writeReg_of_reaches h v
  obtain ⟨⟨halive, hwf, hhit⟩, hratio, -⟩ := h
  rw [onBus_of_ratio hratio]
  exact runAny_of_eq ((if_pos (answers_of_alive (s := bare s) halive src)).trans (hw.trans hu)) (by rw [hh, hhit]) (by rw [hm, hwf])

/-- A command that answers a next state keeps what holds between commands. -/
theorem exec_keeps_inv {c : Instr} {s t : State} (hs : Inv s) (h : exec c s = .next t) : Inv t := by
  obtain ⟨-, hwf, hhit⟩ := exec_keeps h
  exact ⟨hwf, hhit hs.2⟩

/-! ### A write of BOOT_FW_CTL -/

/-- Whether a commit raises MIN_SVN: the running SVN lies above it and the fuse has a raise left (R431). -/
def CommitRaises (s : State) : Prop :=
  fget s .BOOT_FW [] Fld.BOOT_FW_MIN_SVN < fget s .BOOT_FW [] Fld.BOOT_FW_SVN ∧ s.boot.raises < 32

/-- The state once a write of BOOT_FW_CTL has had its effect on COMMIT_ERR, which a 1 clears. -/
def errCleared (v : Nat) (s : State) : State :=
  if tbit v 1 then fset s .BOOT_FW_CTL [] Fld.BOOT_FW_CTL_COMMIT_ERR 0 else s

theorem errCleared_eq (v : Nat) (s : State) : errCleared v s = { s with regs := (errCleared v s).regs } := by
  unfold errCleared; split <;> rfl

theorem errCleared_boot (v : Nat) (s : State) : (errCleared v s).boot = s.boot := by rw [errCleared_eq]

theorem regsOnly_errCleared (v : Nat) (s : State) : RegsOnly s (errCleared v s) [RegId.BOOT_FW_CTL.off []] := by
  unfold errCleared
  split
  · exact (RegsOnly.refl s _).fset (by simp) _ _
  · exact RegsOnly.refl s _

theorem bootFw_off_ne : RegId.BOOT_FW.off [] ≠ RegId.BOOT_FW_CTL.off [] := by decide

theorem fget_errCleared_bootFw (v : Nat) (s : State) (f : Fld) : fget (errCleared v s) .BOOT_FW [] f = fget s .BOOT_FW [] f := by
  unfold fget
  rw [regsOnly_errCleared v s .BOOT_FW [] (by simpa using bootFw_off_ne)]

/-- A commit that does not raise MIN_SVN sets COMMIT_ERR. -/
theorem fwCtlWrite_of_not_raises {s : State} {v : Nat} (hv : tbit v 0 = true) (h : ¬ CommitRaises s) :
    fwCtlWrite v s = fset (errCleared v s) .BOOT_FW_CTL [] Fld.BOOT_FW_CTL_COMMIT_ERR 1 := by
  have hc : fget (errCleared v s) .BOOT_FW [] Fld.BOOT_FW_SVN ≤ fget (errCleared v s) .BOOT_FW [] Fld.BOOT_FW_MIN_SVN ∨
      32 ≤ (errCleared v s).boot.raises := by
    rw [fget_errCleared_bootFw, fget_errCleared_bootFw, errCleared_boot]
    simpa only [CommitRaises, not_and_or, not_lt] using h
  calc fwCtlWrite v s = _ := if_neg (by simp [hv])
    _ = _ := if_pos hc

/-- A commit that raises MIN_SVN sets it to the running SVN and uses up one raise. -/
theorem fwCtlWrite_of_raises {s : State} {v : Nat} (hv : tbit v 0 = true) (h : CommitRaises s) :
    fwCtlWrite v s = fset (fset (modBoot (errCleared v s) (fun b => { b with raises := b.raises + 1 })) .BOOT_FW []
      Fld.BOOT_FW_MIN_SVN (fget s .BOOT_FW [] Fld.BOOT_FW_SVN)) .BOOT_FW_CTL [] Fld.BOOT_FW_CTL_RAISES_LEFT
      (32 - (s.boot.raises + 1)) := by
  have hc : ¬ (fget (errCleared v s) .BOOT_FW [] Fld.BOOT_FW_SVN ≤ fget (errCleared v s) .BOOT_FW [] Fld.BOOT_FW_MIN_SVN ∨
      32 ≤ (errCleared v s).boot.raises) := by
    rw [fget_errCleared_bootFw, fget_errCleared_bootFw, errCleared_boot]
    simpa only [CommitRaises, not_or, not_le] using h
  rw [← fget_errCleared_bootFw v s, ← errCleared_boot v s]
  calc fwCtlWrite v s = _ := if_neg (by simp [hv])
    _ = _ := if_neg hc

/-- What a commit that does not raise MIN_SVN changes: COMMIT_ERR, which is then set. -/
theorem fwCtlWrite_refuses {s : State} {v : Nat} (hv : tbit v 0 = true) (h : ¬ CommitRaises s) :
    fwCtlWrite v s = { s with regs := (fwCtlWrite v s).regs } ∧
    fget (fwCtlWrite v s) .BOOT_FW_CTL [] Fld.BOOT_FW_CTL_COMMIT_ERR = 1 ∧
    RegsOnly s (fwCtlWrite v s) [RegId.BOOT_FW_CTL.off []] := by
  rw [fwCtlWrite_of_not_raises hv h]
  refine ⟨?frame, ?err, (regsOnly_errCleared v s).fset (by simp) _ _⟩
  case frame => rw [errCleared_eq]; rfl
  case err => exact fget_fset_self _ _ _ _ _ (by decide) (by decide) (rget_lt _ (by decide))

/-- What a commit that raises MIN_SVN changes: MIN_SVN, which is then the running SVN, and the count of raises. -/
theorem fwCtlWrite_commits {s : State} {v : Nat} (hv : tbit v 0 = true) (h : CommitRaises s) :
    fwCtlWrite v s = { s with regs := (fwCtlWrite v s).regs, boot := { s.boot with raises := s.boot.raises + 1 } } ∧
    fget (fwCtlWrite v s) .BOOT_FW [] Fld.BOOT_FW_MIN_SVN = fget s .BOOT_FW [] Fld.BOOT_FW_SVN ∧
    RegsOnly s (fwCtlWrite v s) [RegId.BOOT_FW.off [], RegId.BOOT_FW_CTL.off []] := by
  rw [fwCtlWrite_of_raises hv h]
  refine ⟨?frame, ?svn, ?only⟩
  case frame => rw [errCleared_eq]; rfl
  case svn =>
    rw [fget_fset_other _ bootFw_off_ne, fget_fset_self _ _ _ _ _ (by decide) (by decide) (rget_lt _ (by decide))]
    exact Nat.mod_eq_of_lt (fget_lt s .BOOT_FW [] Fld.BOOT_FW_SVN)
  case only =>
    have hm : RegsOnly s (modBoot (errCleared v s) (fun b => { b with raises := b.raises + 1 }))
        [RegId.BOOT_FW.off [], RegId.BOOT_FW_CTL.off []] :=
      fun r ix ho => regsOnly_errCleared v s r ix (fun e => ho (List.mem_cons_of_mem _ e))
    exact (hm.fset (by simp) _ _).fset (by simp) _ _

/-! ### FW_COMMIT -/

/-- The data of FW_COMMIT as it takes effect: it carries COMMIT. -/
def commitData (s : State) (val : Word) : Nat :=
  writeData RegId.BOOT_FW_CTL.desc false (rget s .BOOT_FW_CTL []) (withBit val 0 true)

theorem tbit_commitData (s : State) (val : Word) : tbit (commitData s val) 0 = true :=
  tbit_writeData_oper (by decide) (tbit_withBit_true val 0) _

/-- The step of a commit that reaches BOOT_FW_CTL. -/
theorem exec_fwCommit_of_reaches {s u : State} {src : RegSrc} (h : Reaches s src .BOOT_FW_CTL []) (val : Word)
    (hu : fwCtlWrite (commitData s val) (bare s) = u) (hh : u.host = s.host) (hm : u.mem = s.mem) :
    exec (.fwCommit src val) s = .next { u with pending := s.pending } :=
  onBus_writeReg_of_reaches h hu hh hm

/-- A commit always completes while the ratio is legal. -/
theorem exec_fwCommit_next {s : State} (h : ratioBad s = none) (src : RegSrc) (val : Word) :
    ∃ t, exec (.fwCommit src val) s = .next t := by
  obtain ⟨t, ht⟩ := s.runAny_next _
  exact ⟨t, (onBus_of_ratio h src _).trans ht⟩

theorem exec_fwCommit_raises {s : State} {src : RegSrc} (h : Reaches s src .BOOT_FW_CTL []) (val : Word) (hm : CommitRaises s) :
    ∃ u, exec (.fwCommit src val) s = .next u ∧
      u = { s with regs := u.regs, boot := { s.boot with raises := s.boot.raises + 1 } } ∧
      fget u .BOOT_FW [] Fld.BOOT_FW_MIN_SVN = fget s .BOOT_FW [] Fld.BOOT_FW_SVN ∧
      RegsOnly s u [RegId.BOOT_FW.off [], RegId.BOOT_FW_CTL.off []] := by
  obtain ⟨hframe, hsvn, honly⟩ := fwCtlWrite_commits (s := bare s) (tbit_commitData s val) hm
  exact ⟨_, exec_fwCommit_of_reaches h val rfl ((congrArg State.host hframe).trans rfl) ((congrArg State.mem hframe).trans rfl),
    congrArg (fun t => { t with pending := s.pending }) hframe, hsvn, honly⟩

theorem exec_fwCommit_refuses {s : State} {src : RegSrc} (h : Reaches s src .BOOT_FW_CTL []) (val : Word) (hm : ¬ CommitRaises s) :
    ∃ u, exec (.fwCommit src val) s = .next u ∧ u = { s with regs := u.regs } ∧
      fget u .BOOT_FW_CTL [] Fld.BOOT_FW_CTL_COMMIT_ERR = 1 ∧ RegsOnly s u [RegId.BOOT_FW_CTL.off []] := by
  obtain ⟨hframe, herr, honly⟩ := fwCtlWrite_refuses (s := bare s) (tbit_commitData s val) hm
  exact ⟨_, exec_fwCommit_of_reaches h val rfl ((congrArg State.host hframe).trans rfl) ((congrArg State.mem hframe).trans rfl),
    congrArg (fun t => { t with pending := s.pending }) hframe, herr, honly⟩

/-! ### Which image passes -/

/-- An image that passes every check has no SVN below MIN_SVN. -/
theorem minSvn_le_of_fwCheck {s : State} {img : List Byte} (h : fwCheck s img = 0) :
    fget s .BOOT_FW [] Fld.BOOT_FW_MIN_SVN ≤ leNat (imgBytes img 8 1) := by
  simp only [fwCheck] at h
  split_ifs at h with hmagic hkey hhash hsvn
  exact Nat.le_of_not_lt hsvn

/-- The slot that runs holds an image that passes every check. -/
theorem fwCheck_of_fwSelect {s : State} {slots : List (List Byte)} {k : Nat} (h : fwSelect s slots = .inl k) :
    fwCheck s (lget [] slots k) = 0 := by
  simp only [fwSelect] at h
  split at h <;> split at h
  · next hb => cases h; exact hb
  · split at h
    · next ha => cases h; exact ha
    · cases h
  · next ha => cases h; exact ha
  · split at h
    · next hb => cases h; exact hb
    · cases h

/-- Settles O51: a commit is a write that reaches BOOT_FW_CTL with COMMIT set, and each branch of that write is stated once; the
slot that runs passed every check of its image, that of its SVN among them. -/
theorem commitRaisesTheMinimumVersion : Obligations.CommitRaisesTheMinimumVersion := by
  refine ⟨fun s src val hs hratio => ?_, fun s src val h => ⟨exec_fwCommit_raises h val, exec_fwCommit_refuses h val⟩,
    fun s slots k hk => minSvn_le_of_fwCheck (fwCheck_of_fwSelect hk)⟩
  obtain ⟨t, ht⟩ := exec_fwCommit_next hratio src val
  exact ⟨t, ht, exec_keeps_inv hs.2 ht⟩

end Sys2Proof.Machine
end

section
/-! PROOFS. Reserved offsets (R444): where no register and no byte of the Sett image lies an access lands nowhere, so that a read
gives 0 and a write changes nothing. -/

namespace Sys2Proof.Machine

/-! ### An access that lands nowhere -/

/-- An offset of a source at which neither the Sett image nor a register lies: outside the view, or a reserved offset within it. -/
def Vacant (src : RegSrc) (off : Nat) : Prop := ∀ v, viewOff src off = some v → inSett v = false ∧ regAt v = none

/-- Served or not, an offset outside the Sett image with no register is one where an access lands nowhere. -/
theorem land_of_regAt_none {v : Nat} (hsett : inSett v = false) (hreg : regAt v = none) (s : State) (src : RegSrc) :
    land s src v = .nothing := by
  unfold land
  by_cases hserved : served s src v = true
  · simp [hserved, hsett, hreg]
  · simp [hserved]

/-- Whatever the byte enables, a read of a vacant offset gives status 0 and data 0, and leaves the state. -/
theorem busRead_of_vacant {src : RegSrc} {off : Nat} (h : Vacant src off) (be : BitVec 8) (s : State) :
    busRead src off be s = ((0, 0), s) := by
  unfold busRead
  cases hv : viewOff src off with
  | none => rfl
  | some v =>
    obtain ⟨hsett, hreg⟩ := h v hv
    simp only [land_of_regAt_none hsett hreg]

/-- A read row of a vacant offset sends back 0 and does nothing else. -/
theorem regRead_of_vacant {src : RegSrc} {off : Nat} (h : Vacant src off) (be : BitVec 8) (s : State) :
    regRead src off be s = emit s (.data (srcCode src) 0 0 []) := by
  simp only [regRead, busRead_of_vacant h]

/-- A whole-word write to a vacant offset leaves the state; a partial one is counted (R445). -/
theorem busWrite_of_vacant {src : RegSrc} {off : Nat} (h : Vacant src off) (val : Nat) (s : State) :
    busWrite src off 0xFF val s = s := by
  unfold busWrite
  rw [if_neg (by decide)]
  cases hv : viewOff src off with
  | none => rfl
  | some v =>
    obtain ⟨hsett, hreg⟩ := h v hv
    simp only [land_of_regAt_none hsett hreg]

/-! ### A row of the bus that is answered -/

/-- The step of a row from a source the device answers, on a device that is halted or has a legal ratio, when its effect leaves
memory and the host alone. -/
theorem onBus_of_answers {s u : State} {src : RegSrc} {f : State → State} (hinv : Inv s) (ha : answers s src = true)
    (hratio : s.alive = true → ratioBad s = none) (hu : f (bare s) = u) (hh : u.host = s.host) (hm : u.mem = s.mem) :
    s.onBus src f = .next { u with pending := s.pending } := by
  obtain ⟨hwf, hhit⟩ := hinv
  have hbus : s.onBus src f = s.runAny (fun s => if answers s src then f s else s) := by
    have hnone : (if s.alive then ratioBad s else none) = none := by
      split
      · next halive => exact hratio halive
      · rfl
    simp only [State.onBus, hnone]
  rw [hbus]
  exact runAny_of_eq ((if_pos (show answers (bare s) src = true from ha)).trans hu) (by rw [hh, hhit]) (by rw [hm, hwf])

/-- Settles O52: an access to such an offset lands nowhere, served or not, so that the row's effect is the reply with 0 for a read
and nothing at all for a write. -/
theorem reservedOffsetsReadZero : Obligations.ReservedOffsetsReadZero := by
  intro s src off be val hinv ha hratio hvacant
  exact ⟨onBus_of_answers hinv ha hratio (regRead_of_vacant hvacant be _) rfl rfl,
    onBus_of_answers (u := bare s) hinv ha hratio (busWrite_of_vacant hvacant val.toNat (bare s)) rfl rfl⟩

end Sys2Proof.Machine
end
